-- ==== Sys2Proof/Word.lean ====
section
/-!
DEFINITION. The tagged word (spec 00 R4, R31, R33, R34): 64 payload bits and an 8-bit tag, and the tag codes of Table 2-2.
-/
namespace Sys2Proof

/-- A 64-bit payload (R31). -/
abbrev W64 := BitVec 64

/-- A tag code (Table 2-2, R34). -/
abbrev Tag := BitVec 8

/-- The stored form of a word in SRAM and DRAM (Table 2-1, R31): payload 63:0, tag 71:64, check bits 79:72. -/
abbrev Stored := BitVec 80

/-- A tagged word. Identity of two words is equality of all 72 bits (R33). -/
structure Word where
  tag : Tag
  pay : W64
  deriving DecidableEq, Repr

namespace Tag

abbrev void : Tag := 0x00#8
abbrev fix  : Tag := 0x01#8
abbrev flo  : Tag := 0x02#8
abbrev qty  : Tag := 0x03#8
abbrev chr  : Tag := 0x04#8
abbrev imm  : Tag := 0x05#8
abbrev cons : Tag := 0x08#8
abbrev vec  : Tag := 0x09#8
abbrev str  : Tag := 0x0A#8
abbrev byt  : Tag := 0x0B#8
abbrev sym  : Tag := 0x0C#8
abbrev fn   : Tag := 0x0D#8
abbrev code : Tag := 0x0E#8
abbrev rec  : Tag := 0x0F#8
abbrev big  : Tag := 0x10#8
abbrev que  : Tag := 0x12#8
abbrev rem  : Tag := 0x13#8
abbrev weak : Tag := 0x14#8
abbrev hdr  : Tag := 0x18#8
abbrev fwd  : Tag := 0x19#8
abbrev ret  : Tag := 0x1A#8
abbrev raww : Tag := 0x1B#8
abbrev dev  : Tag := 0x1C#8

end Tag

/-- The word a power-on or a reset leaves: VOID with payload zero (R62, R427). -/
abbrev Word.void : Word := ⟨Tag.void, 0#64⟩

end Sys2Proof
end

