-- ==== Sys2Proof/Syntax.lean ====
section
/-!
DEFINITION. The commands of the block: core instructions (already fetched and decoded, with the core that executes them),
register accesses (with their requester), and events (with the instance they concern and what arrives from outside). Operand
types are as wide as the fields of the encodings (spec 04 Tables 4-1, 4-2, 4-4) or as the numbers of instances.
-/
namespace Sys2Proof

/-- A core number (R11). -/
abbrev CoreId := Fin 64
/-- A 5-bit register field (R93, Table 4-1). -/
abbrev RegN := Fin 32
/-- A segment register number (R94). -/
abbrev SgN := Fin 16
/-- A partition number (R14). -/
abbrev PartId := Fin 16
/-- An INTC source number (R179). -/
abbrev SrcId := Fin 512

/-- The requester of a register access (R24, R29): a core, a DMA channel, or the JTAG port with the rights of partition 0
(R494). -/
inductive Req where
  | core (c : CoreId)
  | dma (ch : Fin 64)
  | jtag
  deriving DecidableEq, Repr

/-- A short operation of a pair word (Table 4-4, R96): its code, its d field and its s field. -/
structure ShortOp where
  op : BitVec 5
  d  : RegN
  s  : BitVec 5
  deriving DecidableEq, Repr

/-- The count source of a repeat prefix (R101): the register form and the immediate form. -/
inductive RepSrc where
  | reg (a : RegN)
  | imm (count : BitVec 23)
  deriving DecidableEq, Repr

/-- The cache enable that a write clears (R223). -/
inductive CacheEn where
  | l1i (c : CoreId)
  | l1d (c : CoreId)
  | l2 (cl : Fin 8)
  deriving DecidableEq, Repr

/-- A requested and current field pair of R19. -/
inductive ModeSel where
  | l2split (cl : Fin 8)
  | l2power (cl : Fin 8)
  | l3power (slice : Fin 32)
  | wmask (slice : Fin 32) (k : Fin 5)
  | sweepMode (h : Fin 16)
  | meldLanes
  | corgilPort (p : Fin 4)
  | opPoint
  deriving DecidableEq, Repr

/-- A cache array (Table 9-1). -/
inductive ArrayId where
  | l1i (c : CoreId)
  | l1d (c : CoreId)
  | l2 (cl : Fin 8)
  | l3 (slice : Fin 32)
  deriving DecidableEq, Repr

/-- What a scrub of a cache array finds at a place (R233–R235): nothing, an error in a data word (single-bit, or not correctable),
or a parity error of a tag entry. -/
inductive ArrayFinding where
  | none
  | dataSingle (set : Fin 4096) (way : Fin 16) (word : Fin 8)
  | dataUncorr (set : Fin 4096) (way : Fin 16) (word : Fin 8)
  | tagParity (set : Fin 4096) (way : Fin 16)
  deriving DecidableEq, Repr

/-- What a scrub of a control store finds (R207). -/
inductive MicroFinding where
  | none
  | single (ua : BitVec 14)
  | uncorr (ua : BitVec 14)
  deriving DecidableEq, Repr

/-- A peripheral instance with the common registers of spec 15. -/
inductive PerId where
  | eth (i : Fin 4)
  | usb
  | can (i : Fin 4)
  | uart (i : Fin 8)
  | i2c (i : Fin 4)
  | pmb
  | xspi
  deriving DecidableEq, Repr

/-- The Corgil message types (Table 13-4). -/
inductive CKind where
  | rd | wr | push | rdack | wrack | pushack | nak | refinc | refdec | refack | time | bgrant | breq
  deriving DecidableEq, Repr

/-- A Corgil message (Tables 13-3, 13-4): the header's fields and up to 8 body words. -/
structure CMsg where
  kind  : CKind
  dst   : BitVec 12
  src   : BitVec 12
  hops  : BitVec 5
  hidx  : BitVec 5
  txid  : BitVec 16
  txgen : BitVec 16
  route : BitVec 48
  body  : List Word
  deriving DecidableEq, Repr

/-- What the flash device answers for an image slot (R426, R442): nothing or a read error; the octets it holds; or other octets. -/
inductive SlotRead where
  | fails
  | held
  | gives (o : List (BitVec 8))
  deriving DecidableEq, Repr

/-- What training of a Corgil port measures (R342, R343): the lanes that align (0 where it fails), the partner's node and port, and the
one-way delay in ns. -/
structure TrainRes where
  lanes : Fin 5
  node  : BitVec 12
  port  : Fin 4
  delay : BitVec 16
  deriving DecidableEq, Repr

/-- An octet (R33). -/
abbrev Octet := BitVec 8

/-- A frame that arrives at an ETH, USB or CAN instance (R399): its octets, whether its CRC is good, and for CAN its identifier with bit 31
set where extended and bit 30 where FD. -/
structure FrameIn where
  octets : List Octet
  crcOk  : Bool
  canId  : BitVec 32
  deriving DecidableEq, Repr

/-- How a transaction on an I2C, PMBus or xSPI bus ends outside the device. -/
inductive BusEnd where
  | done | nack | arbLost | pecErr
  deriving DecidableEq, Repr

/-- The result of a bus transaction: its end, the octets read, and for xSPI the flash's status register. -/
structure BusRes where
  ending : BusEnd
  octets : List Octet
  status : Octet
  deriving DecidableEq, Repr
/-- The commands of the block: one constructor for each row of the spec's table of operations and events, in the table's
order. Each constructor's docstring names its row and the rule that governs it. -/
inductive Instr where
  /-- ADD (R109). -/
  | add (c : CoreId) (d : RegN) (a : RegN) (b : RegN)
  /-- SUB (R109). -/
  | sub (c : CoreId) (d : RegN) (a : RegN) (b : RegN)
  /-- MUL (R109). -/
  | mul (c : CoreId) (d : RegN) (a : RegN) (b : RegN)
  /-- DIV (R114). -/
  | div (c : CoreId) (d : RegN) (a : RegN) (b : RegN)
  /-- QUO (R114). -/
  | quo (c : CoreId) (d : RegN) (a : RegN) (b : RegN)
  /-- MOD (R114). -/
  | mod (c : CoreId) (d : RegN) (a : RegN) (b : RegN)
  /-- NEG (R109). -/
  | neg (c : CoreId) (d : RegN) (a : RegN)
  /-- ABS (R109). -/
  | abs (c : CoreId) (d : RegN) (a : RegN)
  /-- CMP (R121). -/
  | cmp (c : CoreId) (d : RegN) (a : RegN) (b : RegN)
  /-- LT (R121). -/
  | lt (c : CoreId) (d : RegN) (a : RegN) (b : RegN)
  /-- LE (R121). -/
  | le (c : CoreId) (d : RegN) (a : RegN) (b : RegN)
  /-- NUMEQ (R121). -/
  | numeq (c : CoreId) (d : RegN) (a : RegN) (b : RegN)
  /-- EQ (R33). -/
  | eq (c : CoreId) (d : RegN) (a : RegN) (b : RegN)
  /-- EQI (R33). -/
  | eqi (c : CoreId) (d : RegN) (a : RegN) (imm : BitVec 13)
  /-- MIN (R122). -/
  | min (c : CoreId) (d : RegN) (a : RegN) (b : RegN)
  /-- MAX (R122). -/
  | max (c : CoreId) (d : RegN) (a : RegN) (b : RegN)
  /-- ADDI (R108). -/
  | addi (c : CoreId) (d : RegN) (a : RegN) (imm : BitVec 13)
  /-- SUBI (R108). -/
  | subi (c : CoreId) (d : RegN) (a : RegN) (imm : BitVec 13)
  /-- MULI (R108). -/
  | muli (c : CoreId) (d : RegN) (a : RegN) (imm : BitVec 13)
  /-- CMPI (R108). -/
  | cmpi (c : CoreId) (d : RegN) (a : RegN) (imm : BitVec 13)
  /-- LTI (R108). -/
  | lti (c : CoreId) (d : RegN) (a : RegN) (imm : BitVec 13)
  /-- LEI (R108). -/
  | lei (c : CoreId) (d : RegN) (a : RegN) (imm : BitVec 13)
  /-- ADDW (R128). -/
  | addw (c : CoreId) (d : RegN) (a : RegN) (b : RegN)
  /-- SUBW (R128). -/
  | subw (c : CoreId) (d : RegN) (a : RegN) (b : RegN)
  /-- MULW (R128). -/
  | mulw (c : CoreId) (d : RegN) (a : RegN) (b : RegN)
  /-- DIVW (R128). -/
  | divw (c : CoreId) (d : RegN) (a : RegN) (b : RegN)
  /-- MODW (R128). -/
  | modw (c : CoreId) (d : RegN) (a : RegN) (b : RegN)
  /-- NEGW (R128). -/
  | negw (c : CoreId) (d : RegN) (a : RegN)
  /-- ANDW (R128). -/
  | andw (c : CoreId) (d : RegN) (a : RegN) (b : RegN)
  /-- ORW (R128). -/
  | orw (c : CoreId) (d : RegN) (a : RegN) (b : RegN)
  /-- XORW (R128). -/
  | xorw (c : CoreId) (d : RegN) (a : RegN) (b : RegN)
  /-- NOTW (R128). -/
  | notw (c : CoreId) (d : RegN) (a : RegN)
  /-- SHLW (R128). -/
  | shlw (c : CoreId) (d : RegN) (a : RegN) (b : RegN)
  /-- SHRW (R128). -/
  | shrw (c : CoreId) (d : RegN) (a : RegN) (b : RegN)
  /-- SARW (R128). -/
  | sarw (c : CoreId) (d : RegN) (a : RegN) (b : RegN)
  /-- ROLW (R128). -/
  | rolw (c : CoreId) (d : RegN) (a : RegN) (b : RegN)
  /-- CLZW (R128). -/
  | clzw (c : CoreId) (d : RegN) (a : RegN)
  /-- POPW (R128). -/
  | popw (c : CoreId) (d : RegN) (a : RegN)
  /-- ASHL (R116). -/
  | ashl (c : CoreId) (d : RegN) (a : RegN) (b : RegN)
  /-- ASHR (R116). -/
  | ashr (c : CoreId) (d : RegN) (a : RegN) (b : RegN)
  /-- ADDWI (R127). -/
  | addwi (c : CoreId) (d : RegN) (a : RegN) (imm : BitVec 13)
  /-- ANDWI (R127). -/
  | andwi (c : CoreId) (d : RegN) (a : RegN) (imm : BitVec 13)
  /-- ORWI (R127). -/
  | orwi (c : CoreId) (d : RegN) (a : RegN) (imm : BitVec 13)
  /-- XORWI (R127). -/
  | xorwi (c : CoreId) (d : RegN) (a : RegN) (imm : BitVec 13)
  /-- SHLWI (R128). -/
  | shlwi (c : CoreId) (d : RegN) (a : RegN) (imm : BitVec 13)
  /-- SHRWI (R128). -/
  | shrwi (c : CoreId) (d : RegN) (a : RegN) (imm : BitVec 13)
  /-- SARWI (R128). -/
  | sarwi (c : CoreId) (d : RegN) (a : RegN) (imm : BitVec 13)
  /-- FIXFLO (R126). -/
  | fixflo (c : CoreId) (d : RegN) (a : RegN)
  /-- FLOFIX (R126). -/
  | flofix (c : CoreId) (d : RegN) (a : RegN)
  /-- QTYMK (R126). -/
  | qtymk (c : CoreId) (d : RegN) (a : RegN) (b : RegN)
  /-- QTYVAL (R126). -/
  | qtyval (c : CoreId) (d : RegN) (a : RegN)
  /-- QTYDIM (R126). -/
  | qtydim (c : CoreId) (d : RegN) (a : RegN)
  /-- FSQRT (R126). -/
  | fsqrt (c : CoreId) (d : RegN) (a : RegN)
  /-- FMA (R123). -/
  | fma (c : CoreId) (d : RegN) (a : RegN) (b : RegN)
  /-- MOV (R135). -/
  | mov (c : CoreId) (d : RegN) (a : RegN)
  /-- TAGOF (R135). -/
  | tagof (c : CoreId) (d : RegN) (a : RegN)
  /-- TAGSET (R136). -/
  | tagset (c : CoreId) (d : RegN) (a : RegN) (b : RegN)
  /-- RAWOF (R136). -/
  | rawof (c : CoreId) (d : RegN) (a : RegN)
  /-- NOT (R135). -/
  | notI (c : CoreId) (d : RegN) (a : RegN)
  /-- NULL (R135). -/
  | null (c : CoreId) (d : RegN) (a : RegN)
  /-- TAGP (R135). -/
  | tagp (c : CoreId) (d : RegN) (a : RegN) (x : BitVec 8)
  /-- MOVI (R135). -/
  | movi (c : CoreId) (d : RegN) (imm : BitVec 18)
  /-- IMMI (R137). -/
  | immi (c : CoreId) (d : RegN) (imm : BitVec 18)
  /-- CHRI (R137). -/
  | chri (c : CoreId) (d : RegN) (imm : BitVec 18)
  /-- LDK (R137). -/
  | ldk (c : CoreId) (d : RegN) (imm : BitVec 18)
  /-- PAIR_WORD (R98). -/
  | pairWord (c : CoreId) (opA : ShortOp) (opB : ShortOp)
  /-- CAR (R142). -/
  | car (c : CoreId) (d : RegN) (a : RegN)
  /-- CDR (R142). -/
  | cdr (c : CoreId) (d : RegN) (a : RegN)
  /-- CONS (R149). -/
  | cons (c : CoreId) (d : RegN) (a : RegN) (b : RegN)
  /-- SETCAR (R142). -/
  | setcar (c : CoreId) (d : RegN) (a : RegN)
  /-- SETCDR (R142). -/
  | setcdr (c : CoreId) (d : RegN) (a : RegN)
  /-- LEN (R144). -/
  | len (c : CoreId) (d : RegN) (a : RegN) (b : RegN)
  /-- NTHCDR (R144). -/
  | nthcdr (c : CoreId) (d : RegN) (a : RegN) (b : RegN)
  /-- MEMQ (R144). -/
  | memq (c : CoreId) (d : RegN) (a : RegN) (b : RegN)
  /-- ASSQ (R144). -/
  | assq (c : CoreId) (d : RegN) (a : RegN) (b : RegN)
  /-- LAST (R144). -/
  | last (c : CoreId) (d : RegN) (a : RegN)
  /-- REVX (R144). -/
  | revx (c : CoreId) (d : RegN) (a : RegN)
  /-- WALK_STEP (R143). -/
  | walkStep (c : CoreId)
  /-- LDS (R146). -/
  | lds (c : CoreId) (d : RegN) (a : RegN) (sg : SgN) (imm : BitVec 9)
  /-- STS (R146). -/
  | sts (c : CoreId) (d : RegN) (a : RegN) (sg : SgN) (imm : BitVec 9)
  /-- LDP (R146). -/
  | ldp (c : CoreId) (d : RegN) (a : RegN) (imm : BitVec 9)
  /-- STP (R146). -/
  | stp (c : CoreId) (d : RegN) (a : RegN) (imm : BitVec 9)
  /-- LDE (R146). -/
  | lde (c : CoreId) (d : RegN) (a : RegN) (b : RegN)
  /-- STE (R146). -/
  | ste (c : CoreId) (d : RegN) (a : RegN) (b : RegN)
  /-- LDB (R146). -/
  | ldb (c : CoreId) (d : RegN) (a : RegN) (b : RegN)
  /-- STB (R146). -/
  | stb (c : CoreId) (d : RegN) (a : RegN) (b : RegN)
  /-- MOVS (R148). -/
  | movs (c : CoreId) (d : RegN) (a : RegN) (sgs : SgN) (sgd : SgN)
  /-- MOVSB (R148). -/
  | movsb (c : CoreId) (d : RegN) (a : RegN) (sgs : SgN) (sgd : SgN)
  /-- ADDS (R148). -/
  | adds (c : CoreId) (d : RegN) (a : RegN) (sg : SgN) (imm : BitVec 9)
  /-- MAXS (R148). -/
  | maxs (c : CoreId) (d : RegN) (a : RegN) (sg : SgN) (imm : BitVec 9)
  /-- MINS (R148). -/
  | mins (c : CoreId) (d : RegN) (a : RegN) (sg : SgN) (imm : BitVec 9)
  /-- DEVRD (R159). -/
  | devrd (c : CoreId) (d : RegN) (a : RegN) (b : RegN)
  /-- DEVWR (R159). -/
  | devwr (c : CoreId) (d : RegN) (a : RegN) (b : RegN)
  /-- ALLOC (R150). -/
  | alloc (c : CoreId) (d : RegN) (a : RegN) (b : RegN)
  /-- ALLOCB (R149). -/
  | allocb (c : CoreId) (d : RegN) (a : RegN)
  /-- CLOSE (R149). -/
  | close (c : CoreId) (d : RegN) (a : RegN) (b : RegN)
  /-- SIZEOF (R149). -/
  | sizeof (c : CoreId) (d : RegN) (a : RegN)
  /-- RESERVE (R151). -/
  | reserve (c : CoreId) (d : RegN) (a : RegN) (b : RegN) (x : BitVec 5)
  /-- COMMIT (R151). -/
  | commit (c : CoreId) (d : RegN) (a : RegN) (b : RegN) (x : BitVec 5)
  /-- CAS2 (R154). -/
  | cas2 (c : CoreId) (d : RegN) (a : RegN) (b : RegN) (x : BitVec 5)
  /-- SWAP (R153). -/
  | swap (c : CoreId) (d : RegN) (a : RegN) (b : RegN) (x : BitVec 5)
  /-- FADD (R153). -/
  | fadd (c : CoreId) (d : RegN) (a : RegN) (b : RegN) (x : BitVec 5)
  /-- QPUSH (R284). -/
  | qpush (c : CoreId) (d : RegN) (a : RegN)
  /-- QPOP (R285). -/
  | qpop (c : CoreId) (d : RegN) (a : RegN)
  /-- QWAIT (R156). -/
  | qwait (c : CoreId) (d : RegN) (a : RegN)
  /-- QWAIT_ITEM_COMMIT (R285). -/
  | qwaitItemCommit (c : CoreId)
  /-- QTRY (R155). -/
  | qtry (c : CoreId) (d : RegN) (a : RegN)
  /-- QNEW (R286). -/
  | qnew (c : CoreId) (d : RegN) (a : RegN) (b : RegN)
  /-- QFREE (R287). -/
  | qfree (c : CoreId) (a : RegN)
  /-- QDEAL (R284). -/
  | qdeal (c : CoreId) (d : RegN) (a : RegN) (b : RegN)
  /-- TSET_ARM (R295). -/
  | tsetArm (c : CoreId) (d : RegN) (a : RegN) (b : RegN)
  /-- TSET_CANCEL (R295). -/
  | tsetCancel (c : CoreId) (d : RegN) (a : RegN) (b : RegN)
  /-- RLD (R157). -/
  | rld (c : CoreId) (d : RegN) (a : RegN) (b : RegN)
  /-- RST (R157). -/
  | rst (c : CoreId) (d : RegN) (a : RegN) (b : RegN)
  /-- RPUSH (R158). -/
  | rpush (c : CoreId) (d : RegN) (a : RegN) (b : RegN)
  /-- EXPORT (R353). -/
  | exportI (c : CoreId) (d : RegN) (a : RegN)
  /-- UNEXPORT (R353). -/
  | unexport (c : CoreId) (a : RegN)
  /-- BT (R139). -/
  | bt (c : CoreId) (a : RegN) (disp : BitVec 18)
  /-- BF (R139). -/
  | bf (c : CoreId) (a : RegN) (disp : BitVec 18)
  /-- BNIL (R139). -/
  | bnil (c : CoreId) (a : RegN) (disp : BitVec 18)
  /-- BNNIL (R139). -/
  | bnnil (c : CoreId) (a : RegN) (disp : BitVec 18)
  /-- BZW (R139). -/
  | bzw (c : CoreId) (a : RegN) (disp : BitVec 18)
  /-- BNZW (R139). -/
  | bnzw (c : CoreId) (a : RegN) (disp : BitVec 18)
  /-- JMP (R139). -/
  | jmp (c : CoreId) (disp : BitVec 23)
  /-- CALL (R89). -/
  | call (c : CoreId) (a : RegN) (n : BitVec 3)
  /-- TCALL (R141). -/
  | tcall (c : CoreId) (a : RegN) (n : BitVec 3)
  /-- RET (R90). -/
  | ret (c : CoreId)
  /-- REP_I (R101). -/
  | repI (c : CoreId) (src : RepSrc)
  /-- REP_N (R101). -/
  | repN (c : CoreId) (src : RepSrc)
  /-- REPEAT_ITERATION (R102). -/
  | repeatIteration (c : CoreId)
  /-- CUSTOM_INSTRUCTION (R100). -/
  | customInstruction (c : CoreId) (slot : Fin 48) (d : RegN) (a : RegN) (b : RegN) (x : BitVec 8)
  /-- MICRO_COMMIT (R196). -/
  | microCommit (c : CoreId)
  /-- MICRO_RESTART_POINT (R196). -/
  | microRestartPoint (c : CoreId)
  /-- TRAP (R161). -/
  | trap (c : CoreId) (k : BitVec 13)
  /-- RETX (R176). -/
  | retx (c : CoreId)
  /-- RDCR (R72). -/
  | rdcr (c : CoreId) (d : RegN) (k : BitVec 13)
  /-- WRCR (R72). -/
  | wrcr (c : CoreId) (a : RegN) (k : BitVec 13)
  /-- WAIT (R162). -/
  | waitI (c : CoreId)
  /-- FENCE (R163). -/
  | fence (c : CoreId) (k : BitVec 13)
  /-- HSPILL (R65). -/
  | hspill (c : CoreId)
  /-- HFILL (R66). -/
  | hfill (c : CoreId)
  /-- CTXSW (R83). -/
  | ctxsw (c : CoreId) (a : RegN)
  /-- GFILL (R84). -/
  | gfill (c : CoreId) (k : BitVec 13)
  /-- LDBW (R86). -/
  | ldbw (c : CoreId) (d : RegN) (k : BitVec 13)
  /-- STBW (R86). -/
  | stbw (c : CoreId) (a : RegN) (k : BitVec 13)
  /-- SEGSET (R78). -/
  | segset (c : CoreId) (d : RegN) (a : RegN) (k : BitVec 13)
  /-- CCLEAN (R220). -/
  | cclean (c : CoreId) (a : RegN) (k : BitVec 13)
  /-- CINV (R220). -/
  | cinv (c : CoreId) (a : RegN) (k : BitVec 13)
  /-- CCINV (R220). -/
  | ccinv (c : CoreId) (a : RegN) (k : BitVec 13)
  /-- IINV (R220). -/
  | iinv (c : CoreId) (a : RegN) (k : BitVec 13)
  /-- PREF (R165). -/
  | pref (c : CoreId) (a : RegN) (k : BitVec 13)
  /-- CCLEANSW (R221). -/
  | ccleansw (c : CoreId) (a : RegN) (k : BitVec 13)
  /-- CINVSW (R221). -/
  | cinvsw (c : CoreId) (a : RegN) (k : BitVec 13)
  /-- CCINVSW (R221). -/
  | ccinvsw (c : CoreId) (a : RegN) (k : BitVec 13)
  /-- LEVEL_EVENT_ENTRY (R174). -/
  | levelEventEntry (c : CoreId) (lvl : Fin 8)
  /-- SNAP_ENTRY (R175). -/
  | snapEntry (c : CoreId)
  /-- BREAK_EVENT (R486). -/
  | breakEvent (c : CoreId)
  /-- WATCH_EVENT (R486). -/
  | watchEvent (c : CoreId)
  /-- STEP_EVENT (R486). -/
  | stepEvent (c : CoreId)
  /-- HALT_REQUEST_ENTRY (R489). -/
  | haltRequestEntry (c : CoreId)
  /-- DBGCTL_HALT (R489). -/
  | dbgctlHalt (r : Req) (c : CoreId)
  /-- RDAT_READ (R492). -/
  | rdatRead (r : Req) (c : CoreId)
  /-- REGISTER_WRITE (R24). -/
  | registerWrite (r : Req) (pa : BitVec 40) (v : W64)
  /-- DCINV_WRITE (R80). -/
  | dcinvWrite (r : Req) (c : CoreId) (v : W64)
  /-- RAISE_WRITE (R179). -/
  | raiseWrite (r : Req) (v : W64)
  /-- CLAIM_READ (R181). -/
  | claimRead (r : Req) (c : CoreId) (lvl : Fin 8) (peek : Bool)
  /-- EOI_WRITE (R182). -/
  | eoiWrite (r : Req) (c : CoreId) (v : W64)
  /-- INTC_SOURCE_ASSERT (R182). -/
  | intcSourceAssert (src : SrcId)
  /-- INTC_OFFER (R181). -/
  | intcOffer (src : SrcId)
  /-- LINE_FILL (R215). -/
  | lineFill (n : Nat)
  /-- WRITEBACK_ACK (R219). -/
  | writebackAck (n : Nat)
  /-- CACHE_DISABLE (R223). -/
  | cacheDisable (r : Req) (k : CacheEn)
  /-- SCRATCHPAD_REQUEST (R226). -/
  | scratchpadRequest (r : Req) (pa : BitVec 40) (v : W64)
  /-- WAY_POWER_REQUEST (R229). -/
  | wayPowerRequest (r : Req) (pa : BitVec 40) (v : W64)
  /-- WMASK_WRITE (R228). -/
  | wmaskWrite (r : Req) (slice : Fin 32) (k : Fin 5) (v : W64)
  /-- MODE_TRANSITION_COMPLETE (R19). -/
  | modeTransitionComplete (m : ModeSel)
  /-- CACHE_ARRAY_SCRUB (R235). -/
  | cacheArrayScrub (arr : ArrayId) (f : ArrayFinding)
  /-- PATROL_SCRUB (R240). -/
  | patrolScrub (ch : Fin 4)
  /-- MINJ_WRITE (R241). -/
  | minjWrite (r : Req) (ch : Fin 4) (v : W64)
  /-- MICROWORD_SCRUB (R207). -/
  | microwordScrub (cl : Fin 8) (f : MicroFinding)
  /-- DRAM_BACKGROUND_INIT (R427). -/
  | dramBackgroundInit (ch : Fin 4)
  /-- SWEEP_CYCLE_START (R252). -/
  | sweepCycleStart
  /-- HCMD_START (R252). -/
  | hcmdStart (r : Req) (h : Fin 16) (v : W64)
  /-- SWEEP_PHASE_END (R253). -/
  | sweepPhaseEnd
  /-- HANDSHAKE (R258). -/
  | handshake (c : CoreId)
  /-- MARK_TRACE (R254). -/
  | markTrace
  /-- SNAPSHOT_DRAIN (R255). -/
  | snapshotDrain (buf : Fin 80)
  /-- MEND_ROUND (R257). -/
  | mendRound
  /-- REF_PHASE (R260). -/
  | refPhase
  /-- OBJECT_COPY (R262). -/
  | objectCopy
  /-- REMAP_SCAN (R266). -/
  | remapScan
  /-- PACER_THRESHOLD (R273). -/
  | pacerThreshold (c : CoreId) (ns : Nat)
  /-- FINREG_WRITE (R268). -/
  | finregWrite (r : Req) (h : Fin 16) (v : W64)
  /-- AREA_REFILL_WRITE (R249). -/
  | areaRefillWrite (r : Req) (c : CoreId) (v : W64)
  /-- AREA_HEAP_WRITE (R279). -/
  | areaHeapWrite (r : Req) (c : CoreId) (v : W64)
  /-- SWEEP_MODE_REQUEST (R274). -/
  | sweepModeRequest (r : Req) (h : Fin 16) (v : W64)
  /-- TIMER_TICK (R295). -/
  | timerTick
  /-- TIMER_FIRE (R295). -/
  | timerFire
  /-- ASH_EXPIRY (R289). -/
  | ashExpiry
  /-- PRESET_QUEUE_RECREATE (R294). -/
  | presetQueueRecreate (p : PartId)
  /-- CCMD_START (R300). -/
  | ccmdStart (r : Req) (ch : Fin 64)
  /-- CCMD_STOP (R311). -/
  | ccmdStop (r : Req) (ch : Fin 64)
  /-- CCMD_CLEAR (R310). -/
  | ccmdClear (r : Req) (ch : Fin 64)
  /-- DMA_DESCRIPTOR_START (R302). -/
  | dmaDescriptorStart (ch : Fin 64)
  /-- DMA_WORD_TRANSFER (R303). -/
  | dmaWordTransfer (ch : Fin 64)
  /-- DMA_BYTE_TRANSFER (R305). -/
  | dmaByteTransfer (ch : Fin 64)
  /-- DMA_FILL_TRANSFER (R304). -/
  | dmaFillTransfer (ch : Fin 64)
  /-- DMA_BLOCK_BOUNDARY (R306). -/
  | dmaBlockBoundary (e : Fin 4)
  /-- DMA_RECORD_PUSH (R307). -/
  | dmaRecordPush (ch : Fin 64)
  /-- CQWAIT_RETRY (R310). -/
  | cqwaitRetry (ch : Fin 64)
  /-- MELD_ASSERT (R326). -/
  | meldAssert (n : Fin 8)
  /-- MELD_RETRACT (R326). -/
  | meldRetract (n : Fin 8)
  /-- MELD_MODIFY1 (R326). -/
  | meldModify1 (n : Fin 8)
  /-- MELD_MODIFYV (R326). -/
  | meldModifyv (n : Fin 8)
  /-- MELD_PUSH_RETRY (R327). -/
  | meldPushRetry (n : Fin 8)
  /-- NCMD_LOAD (R318). -/
  | ncmdLoad (r : Req) (n : Fin 8)
  /-- MELD_LOAD_COMPLETE (R318). -/
  | meldLoadComplete (n : Fin 8)
  /-- NCMD_UNLOAD (R338). -/
  | ncmdUnload (r : Req) (n : Fin 8)
  /-- MELD_UNLOAD_COMPLETE (R338). -/
  | meldUnloadComplete (n : Fin 8)
  /-- NCMD_PAUSE (R316). -/
  | ncmdPause (r : Req) (n : Fin 8)
  /-- NCMD_RESUME (R316). -/
  | ncmdResume (r : Req) (n : Fin 8)
  /-- NCMD_PRELOAD (R335). -/
  | ncmdPreload (r : Req) (n : Fin 8)
  /-- NCMD_CLEAR (R327). -/
  | ncmdClear (r : Req) (n : Fin 8)
  /-- MLANES_WRITE (R334). -/
  | mlanesWrite (r : Req) (v : W64)
  /-- DATA_FRAME_RECEIVE (R345). -/
  | dataFrameReceive (p : Fin 4) (crcOk : Bool) (seq : BitVec 12) (ack : BitVec 12) (msgs : List CMsg)
  /-- NAK_FRAME (R345). -/
  | nakFrame (p : Fin 4) (ack : BitVec 12)
  /-- ACK_FRAME (R345). -/
  | ackFrame (p : Fin 4) (ack : BitVec 12)
  /-- IDLE_FRAME (R363). -/
  | idleFrame (p : Fin 4) (ack : BitVec 12)
  /-- HEARTBEAT_SEND (R363). -/
  | heartbeatSend (p : Fin 4)
  /-- REPLAY_TIMEOUT (R345). -/
  | replayTimeout (p : Fin 4)
  /-- PARTNER_DETECT (R342). -/
  | partnerDetect (p : Fin 4)
  /-- TRAINING_END (R343). -/
  | trainingEnd (p : Fin 4) (t : TrainRes)
  /-- LINK_LOSS (R364). -/
  | linkLoss (p : Fin 4)
  /-- LANE_WAKE (R344). -/
  | laneWake (p : Fin 4)
  /-- LANE_SLEEP (R344). -/
  | laneSleep (p : Fin 4)
  /-- PCFG_MODE_WRITE (R342). -/
  | pcfgModeWrite (r : Req) (p : Fin 4) (v : W64)
  /-- RESIDENCE_LIMIT (R351). -/
  | residenceLimit (p : Fin 4)
  /-- RD (R354). -/
  | rd
  /-- WR (R354). -/
  | wr
  /-- PUSH (R357). -/
  | push
  /-- RDACK (R157). -/
  | rdack
  /-- WRACK (R157). -/
  | wrack
  /-- PUSHACK (R358). -/
  | pushack
  /-- NAK (R157). -/
  | nak
  /-- REFINC (R360). -/
  | refinc
  /-- REFDEC (R359). -/
  | refdec
  /-- REFACK (R360). -/
  | refack
  /-- TRANSACTION_TIMEOUT (R356). -/
  | transactionTimeout (t : BitVec 16)
  /-- RPUSH_RESEND (R357). -/
  | rpushResend (t : BitVec 16)
  /-- RPUSH_GIVE_UP (R358). -/
  | rpushGiveUp (t : BitVec 16)
  /-- PUSH_FILTER_EXPIRY (R357). -/
  | pushFilterExpiry
  /-- IMPORT_RELEASE (R361). -/
  | importRelease
  /-- TIME_MESSAGE (R362). -/
  | timeMessage
  /-- TIME_SEND (R362). -/
  | timeSend
  /-- TIME_LOSS (R362). -/
  | timeLoss
  /-- BGRANT (R365). -/
  | bgrant
  /-- BREQ (R376). -/
  | breq
  /-- BREQ_SEND (R375). -/
  | breqSend
  /-- GRANT_PASS (R376). -/
  | grantPass
  /-- GRANT_SEQ_RESTART (R377). -/
  | grantSeqRestart
  /-- GRANT_EXPIRY (R374). -/
  | grantExpiry
  /-- RTENT_WRITE (R348). -/
  | rtentWrite (r : Req) (v : W64)
  /-- ZERO_CROSS_EDGE (R369). -/
  | zeroCrossEdge (ph : Fin 3) (ns : W64) (rising : Bool)
  /-- ZC_LOCK_LOSS (R369). -/
  | zcLockLoss (ph : Fin 3)
  /-- ZCCFG_WRITE (R369). -/
  | zccfgWrite (r : Req) (ph : Fin 3) (v : W64)
  /-- HALF_CYCLE_PLAN (R372). -/
  | halfCyclePlan (ph : Fin 3)
  /-- OUTPUT_SWITCH (R370). -/
  | outputSwitch (ph : Fin 3)
  /-- DEM_WRITE (R371). -/
  | demWrite (r : Req) (ch : Fin 256) (v : W64)
  /-- STOKER_SCTL_WRITE (R370). -/
  | stokerSctlWrite (r : Req) (v : W64)
  /-- GCTL_ARM (R379). -/
  | gctlArm (r : Req) (g : Fin 8) (key : BitVec 16)
  /-- GCTL_DISARM (R380). -/
  | gctlDisarm (r : Req) (g : Fin 8)
  /-- READBACK_SAMPLE (R381). -/
  | readbackSample (ho : BitVec 256) (hen : BitVec 8)
  /-- PWM_PERIOD_START (R382). -/
  | pwmPeriodStart (k : Fin 32)
  /-- PWM_WRITE (R382). -/
  | pwmWrite (r : Req) (k : Fin 32) (duty : Bool) (v : W64)
  /-- ENCODER_TRANSITION (R383). -/
  | encoderTransition (e : Fin 8) (a : Bool) (b : Bool)
  /-- ENCODER_INDEX (R383). -/
  | encoderIndex (e : Fin 8)
  /-- SENSE_CHANNEL_DUE (R384). -/
  | senseChannelDue (ch : Fin 512)
  /-- SENSE_FRAME_START (R385). -/
  | senseFrameStart (port : Fin 8)
  /-- SENSE_FRAME_END (R386). -/
  | senseFrameEnd (port : Fin 8) (reply : BitVec 32)
  /-- SENSE_FAULT_CLEAR (R387). -/
  | senseFaultClear (r : Req) (ch : Fin 512)
  /-- CRING_WRITE (R388). -/
  | cringWrite (r : Req) (ch : Fin 512) (v : W64)
  /-- HKA_CONVERSION (R391). -/
  | hkaConversion (k : Fin 16) (code : BitVec 12)
  /-- PCTL_SRST (R401). -/
  | pctlSrst (r : Req) (p : PerId) (v : W64)
  /-- DATA_WRITE (R398). -/
  | dataWrite (r : Req) (p : PerId) (n : Fin 8) (v : W64)
  /-- DATA_READ (R398). -/
  | dataRead (r : Req) (p : PerId) (peek : Bool)
  /-- EOF_WRITE (R398). -/
  | eofWrite (r : Req) (p : PerId)
  /-- FRAME_RECEIVE (R399). -/
  | frameReceive (p : PerId) (f : FrameIn)
  /-- FRAME_TRANSMIT (R402). -/
  | frameTransmit (p : PerId) (fail : Bool)
  /-- OCTET_RECEIVE (R400). -/
  | octetReceive (p : PerId) (x : Octet) (ok : Bool)
  /-- GCL_SWAP (R402). -/
  | gclSwap (r : Req) (e : Fin 4) (v : W64)
  /-- GCL_ACTIVATE (R402). -/
  | gclActivate (e : Fin 4)
  /-- PTP_TIME_EVENT (R402). -/
  | ptpTimeEvent (e : Fin 4)
  /-- PTPSTEP_WRITE (R402). -/
  | ptpstepWrite (r : Req) (e : Fin 4) (v : W64)
  /-- CAN_BUS_OFF_RECOVERY (R397). -/
  | canBusOffRecovery (n : Fin 4)
  /-- USB_LINK_CHANGE (R401). -/
  | usbLinkChange (vbus : Bool) (config : Bool) (hs : Bool)
  /-- I2C_TRANSACTION (R397). -/
  | i2cTransaction (r : Req) (n : Fin 4) (v : W64) (res : BusRes)
  /-- PMBUS_TRANSACTION (R403). -/
  | pmbusTransaction (r : Req) (v : W64) (res : BusRes)
  /-- XSPI_TRANSFER (R397). -/
  | xspiTransfer (r : Req) (v : W64) (res : BusRes)
  /-- GPSET_WRITE (R404). -/
  | gpsetWrite (r : Req) (w : Fin 3) (v : W64)
  /-- GPCLR_WRITE (R404). -/
  | gpclrWrite (r : Req) (w : Fin 3) (v : W64)
  /-- SUPPLY_WARN (R410). -/
  | supplyWarn (m : Fin 10)
  /-- SUPPLY_RECOVERED (R410). -/
  | supplyRecovered
  /-- SUPPLY_TRIP (R410). -/
  | supplyTrip (m : Fin 10)
  /-- DREEN_ALL (R412). -/
  | dreenAll (r : Req) (v : W64)
  /-- DCORE_WRITE (R414). -/
  | dcoreWrite (r : Req) (v : W64)
  /-- DOMAIN_POWER_UP (R413). -/
  | domainPowerUp (d : Fin 273) (wcsOk : Bool)
  /-- OPP_WRITE (R416). -/
  | oppWrite (r : Req) (v : W64)
  /-- OPP_TRANSITION (R416). -/
  | oppTransition
  /-- THERMAL_READING (R417). -/
  | thermalReading (tj : BitVec 14)
  /-- THERMAL_RESET (R417). -/
  | thermalReset
  /-- HPWR_EMBER (R418). -/
  | hpwrEmber (r : Req) (v : W64)
  /-- EMBER_ENTRY (R419). -/
  | emberEntry
  /-- HPWR_COLD (R420). -/
  | hpwrCold (r : Req) (v : W64)
  /-- COLD_ENTRY (R420). -/
  | coldEntry
  /-- WAKE_SOURCE (R421). -/
  | wakeSource (src : Fin 11)
  /-- VIO_RETURN (R421). -/
  | vioReturn
  /-- EMBER_EXIT (R422). -/
  | emberExit (ticks : BitVec 64) (digestOk : Bool)
  /-- RTC_CALIBRATION (R422). -/
  | rtcCalibration
  /-- POWER_ON_RESET (R425). -/
  | powerOnReset
  /-- RESET_N_PIN (R423). -/
  | resetNPin
  /-- CHIP_RESET (R423). -/
  | chipReset (cause : BitVec 8)
  /-- HRESET_CHIP (R424). -/
  | hresetChip (r : Req) (v : W64)
  /-- HRESET_PARTITION (R424). -/
  | hresetPartition (r : Req) (v : W64)
  /-- PARTITION_RESET (R424). -/
  | partitionReset (p : PartId)
  /-- PARTITION_RELEASE (R424). -/
  | partitionRelease (p : PartId)
  /-- COLD_BOOT (R425). -/
  | coldBoot (a : SlotRead) (b : SlotRead) (trained : Bool)
  /-- ANTI_ROLLBACK_ADVANCE (R445). -/
  | antiRollbackAdvance
  /-- FAULT_INPUT_LATCH (R458). -/
  | faultInputLatch (k : Fin 256)
  /-- LOCKSTEP_MISMATCH (R455). -/
  | lockstepMismatch (pair : Fin 32) (what : Fin 4) (index : BitVec 24)
  /-- COMPARATOR_SELF_TEST (R456). -/
  | comparatorSelfTest (cl : Fin 8) (ok : Bool)
  /-- RC_CHECK (R457). -/
  | rcCheck (ok : Bool)
  /-- PLL_LOCK_LOSS (R457). -/
  | pllLockLoss (k : Fin 4)
  /-- FCFG_WRITE (R459). -/
  | fcfgWrite (r : Req) (k : Fin 256) (v : W64)
  /-- FPEND_CLEAR (R460). -/
  | fpendClear (r : Req) (w : Fin 4) (v : W64)
  /-- SWFLT_WRITE (R463). -/
  | swfltWrite (r : Req) (v : W64)
  /-- SWDCFG_WRITE (R464). -/
  | swdcfgWrite (r : Req) (v : W64)
  /-- SWDKICK (R464). -/
  | swdkick (r : Req) (v : W64)
  /-- SAFETY_WATCHDOG_EXPIRY (R464). -/
  | safetyWatchdogExpiry
  /-- TWKICK (R467). -/
  | twkick (r : Req) (p : PartId)
  /-- TASK_WATCHDOG_EXPIRY (R467). -/
  | taskWatchdogExpiry (p : PartId)
  /-- SESSION_HELLO (R475). -/
  | sessionHello (carried : List Octet)
  /-- SESSION_PASSWORD_HELLO (R476). -/
  | sessionPasswordHello (carried : List Octet)
  /-- SESSION_RESPONSE (R475). -/
  | sessionResponse (carried : List Octet)
  /-- SESSION_PASSWORD_RESPONSE (R476). -/
  | sessionPasswordResponse (carried : List Octet)
  /-- SESSION_CLOSE_FRAME (R478). -/
  | sessionCloseFrame (carried : List Octet)
  /-- SESSION_TIMEOUT (R478). -/
  | sessionTimeout
  /-- SCTL_CLOSE (R478). -/
  | sctlClose (r : Req) (v : W64)
  /-- SIN_WRITE (R474). -/
  | sinWrite (r : Req) (v : W64)
  /-- SOUT_READ (R474). -/
  | soutRead (r : Req)
  /-- CMD_STATUS (R479). -/
  | cmdStatus (carried : List Octet)
  /-- CMD_READLOG (R479). -/
  | cmdReadlog (carried : List Octet)
  /-- CMD_TUNE (R447). -/
  | cmdTune (carried : List Octet)
  /-- TUNING_APPLY (R448). -/
  | tuningApply
  /-- CMD_VERIFY (R479). -/
  | cmdVerify (carried : List Octet)
  /-- CMD_PRESET (R479). -/
  | cmdPreset (carried : List Octet)
  /-- CMD_FLASH (R479). -/
  | cmdFlash (carried : List Octet)
  /-- CMD_SETPWD (R479). -/
  | cmdSetpwd (carried : List Octet)
  /-- CMD_UNLOCK (R479). -/
  | cmdUnlock (carried : List Octet)
  /-- CMD_OTPWRITE (R480). -/
  | cmdOtpwrite (carried : List Octet)
  /-- CMD_REVOKE (R480). -/
  | cmdRevoke (carried : List Octet)
  /-- CMD_PROVLOCK (R479). -/
  | cmdProvlock (carried : List Octet)
  /-- CMD_DEBUG (R479). -/
  | cmdDebug (carried : List Octet)
  /-- CMD_JTAGOFF (R479). -/
  | cmdJtagoff (carried : List Octet)
  /-- CMD_PROVISION (R481). -/
  | cmdProvision (carried : List Octet)
  /-- JTAG_EXTEST (R493). -/
  | jtagExtest
  /-- JTAG_SAMPLE_PRELOAD (R493). -/
  | jtagSamplePreload (cells : List (Nat × Bool))
  /-- JTAG_CLAMP (R493). -/
  | jtagClamp
  /-- JTAG_HIGHZ (R493). -/
  | jtagHighz
  /-- JTAG_DBGACC (R494). -/
  | jtagDbgacc (acc : BitVec 116)
  /-- JTAG_DBGRST (R493). -/
  | jtagDbgrst
  /-- JTAG_BYPASS (R493). -/
  | jtagBypass
  /-- TRCCTL_WRITE (R495). -/
  | trcctlWrite (r : Req) (v : W64)
  /-- TRCMARK_WRITE (R495). -/
  | trcmarkWrite (r : Req) (v : W64)
  /-- RETRAIN_END (R342). -/
  | retrainEnd (p : Fin 4) (ok : Bool)
  /-- RPUSH_RECORD_RETRY (R358). -/
  | rpushRecordRetry (t : BitVec 16)
  /-- VHEARTH_LOSS (R406). -/
  | vhearthLoss
  /-- THERMAL_COLD_RELEASE (R417). -/
  | thermalColdRelease
  /-- RESET_N_RELEASE (R423). -/
  | resetNRelease
  /-- ETH_LINK_CHANGE (R397). -/
  | ethLinkChange (e : Fin 4) (up : Bool) (rate : BitVec 12)
  /-- OCTET_TRANSMIT (R400). -/
  | octetTransmit (p : PerId)
  deriving DecidableEq, Repr

end Sys2Proof
end

