-- ==== Sys2Proof/Decode.lean ====
section
/-!
DEFINITION. The commands that a word spells. The table of operations and events gives no row any bits, so no word spells a command of the
block there. An instruction word of a core spells the command that executes it, by the encodings of spec 04 (R91–R96, R100).
-/
namespace Sys2Proof

/-- The command that a word spells by the table's bits: none, for the table gives bits to no row. -/
def decodeTableWord (_nbits _w : Nat) : Option Instr := none

/-! Instruction words (spec 04). -/

/-- The fields of a long operation (Table 4-2): bits 22:0 and the parts that the formats name. -/
structure LongFields where
  body  : BitVec 23
  deriving DecidableEq, Repr

namespace LongFields

/-- Bits 22:18, which hold d, and in BR the tested register. -/
def d (f : LongFields) : RegN := (f.body.extractLsb' 18 5).toFin
/-- Bits 17:13. -/
def a (f : LongFields) : RegN := (f.body.extractLsb' 13 5).toFin
/-- Bits 12:8. -/
def b (f : LongFields) : RegN := (f.body.extractLsb' 8 5).toFin
/-- Bits 7:0, the modifier. -/
def x (f : LongFields) : BitVec 8 := f.body.extractLsb' 0 8
/-- Bits 12:0: the immediate of RRI, k of SYS, and b and x of RRR together. -/
def low (f : LongFields) : BitVec 13 := f.body.extractLsb' 0 13
/-- Bits 17:0: the immediate of RI and the displacement of BR. -/
def imm18 (f : LongFields) : BitVec 18 := f.body.extractLsb' 0 18
/-- The segment register of MEM, and the source's of MEM2. -/
def sg (f : LongFields) : SgN := (f.body.extractLsb' 9 4).toFin
/-- The destination's segment register of MEM2. -/
def sg2 (f : LongFields) : SgN := (f.body.extractLsb' 5 4).toFin
/-- The immediate of MEM. -/
def imm9 (f : LongFields) : BitVec 9 := f.body.extractLsb' 0 9
/-- The index register that bits 8:4 name in LDE, STE, LDB and STB. -/
def idx (f : LongFields) : RegN := (f.body.extractLsb' 4 5).toFin

end LongFields

/-- A word whose must-be-zero fields are zero spells an instruction; any other faults ILLEGAL (R94, R99). -/
def onlyIf (zero : Bool) (i : Instr) : Option Instr := if zero then some i else none

/-- Long opcodes 0x00 to 0x47 (Table 4-3): arithmetic, raw and move instructions. -/
def decodeArith (c : CoreId) (op : Nat) (f : LongFields) : Option Instr :=
  match op with
  | 0x01 => onlyIf (f.x == 0#8) (.add c f.d f.a f.b)
  | 0x02 => onlyIf (f.x == 0#8) (.sub c f.d f.a f.b)
  | 0x03 => onlyIf (f.x == 0#8) (.mul c f.d f.a f.b)
  | 0x04 => onlyIf (f.x == 0#8) (.div c f.d f.a f.b)
  | 0x05 => onlyIf (f.x == 0#8) (.quo c f.d f.a f.b)
  | 0x06 => onlyIf (f.x == 0#8) (.mod c f.d f.a f.b)
  | 0x07 => onlyIf (f.low == 0#13) (.neg c f.d f.a)
  | 0x08 => onlyIf (f.x == 0#8) (.cmp c f.d f.a f.b)
  | 0x09 => onlyIf (f.x == 0#8) (.lt c f.d f.a f.b)
  | 0x0A => onlyIf (f.x == 0#8) (.le c f.d f.a f.b)
  | 0x0B => onlyIf (f.x == 0#8) (.numeq c f.d f.a f.b)
  | 0x0C => onlyIf (f.x == 0#8) (.eq c f.d f.a f.b)
  | 0x0D => onlyIf (f.x == 0#8) (.min c f.d f.a f.b)
  | 0x0E => onlyIf (f.x == 0#8) (.max c f.d f.a f.b)
  | 0x0F => onlyIf (f.low == 0#13) (.abs c f.d f.a)
  | 0x10 => some (.addi c f.d f.a f.low)
  | 0x11 => some (.subi c f.d f.a f.low)
  | 0x12 => some (.muli c f.d f.a f.low)
  | 0x13 => some (.cmpi c f.d f.a f.low)
  | 0x14 => some (.lti c f.d f.a f.low)
  | 0x15 => some (.lei c f.d f.a f.low)
  | 0x16 => some (.eqi c f.d f.a f.low)
  | 0x18 => onlyIf (f.x == 0#8) (.addw c f.d f.a f.b)
  | 0x19 => onlyIf (f.x == 0#8) (.subw c f.d f.a f.b)
  | 0x1A => onlyIf (f.x == 0#8) (.mulw c f.d f.a f.b)
  | 0x1B => onlyIf (f.x == 0#8) (.divw c f.d f.a f.b)
  | 0x1C => onlyIf (f.x == 0#8) (.modw c f.d f.a f.b)
  | 0x1D => onlyIf (f.low == 0#13) (.negw c f.d f.a)
  | 0x1E => onlyIf (f.x == 0#8) (.andw c f.d f.a f.b)
  | 0x1F => onlyIf (f.x == 0#8) (.orw c f.d f.a f.b)
  | 0x20 => onlyIf (f.x == 0#8) (.xorw c f.d f.a f.b)
  | 0x21 => onlyIf (f.low == 0#13) (.notw c f.d f.a)
  | 0x22 => if f.x == 0#8 then some (.shlw c f.d f.a f.b) else onlyIf (f.x == 1#8) (.ashl c f.d f.a f.b)
  | 0x23 => onlyIf (f.x == 0#8) (.shrw c f.d f.a f.b)
  | 0x24 => if f.x == 0#8 then some (.sarw c f.d f.a f.b) else onlyIf (f.x == 1#8) (.ashr c f.d f.a f.b)
  | 0x25 => onlyIf (f.x == 0#8) (.rolw c f.d f.a f.b)
  | 0x26 => onlyIf (f.low == 0#13) (.clzw c f.d f.a)
  | 0x27 => onlyIf (f.low == 0#13) (.popw c f.d f.a)
  | 0x28 => some (.addwi c f.d f.a f.low)
  | 0x29 => some (.andwi c f.d f.a f.low)
  | 0x2A => some (.orwi c f.d f.a f.low)
  | 0x2B => some (.xorwi c f.d f.a f.low)
  | 0x2C => some (.shlwi c f.d f.a f.low)
  | 0x2D => some (.shrwi c f.d f.a f.low)
  | 0x2E => some (.sarwi c f.d f.a f.low)
  | 0x30 => onlyIf (f.low == 0#13) (.fixflo c f.d f.a)
  | 0x31 => onlyIf (f.low == 0#13) (.flofix c f.d f.a)
  | 0x32 => onlyIf (f.x == 0#8) (.qtymk c f.d f.a f.b)
  | 0x33 => onlyIf (f.low == 0#13) (.qtyval c f.d f.a)
  | 0x34 => onlyIf (f.low == 0#13) (.qtydim c f.d f.a)
  | 0x35 => onlyIf (f.low == 0#13) (.fsqrt c f.d f.a)
  | 0x36 => onlyIf (f.x == 0#8) (.fma c f.d f.a f.b)
  | 0x38 => onlyIf (f.low == 0#13) (.mov c f.d f.a)
  | 0x39 => onlyIf (f.low == 0#13) (.tagof c f.d f.a)
  | 0x3A => onlyIf (f.x == 0#8) (.tagset c f.d f.a f.b)
  | 0x3B => onlyIf (f.low == 0#13) (.rawof c f.d f.a)
  | 0x3C => onlyIf (f.low == 0#13) (.notI c f.d f.a)
  | 0x3D => onlyIf (f.low == 0#13) (.null c f.d f.a)
  | 0x3E => onlyIf (f.b == 0) (.tagp c f.d f.a f.x)
  | 0x40 => some (.movi c f.d f.imm18)
  | 0x41 => some (.immi c f.d f.imm18)
  | 0x42 => some (.chri c f.d f.imm18)
  | 0x43 => some (.ldk c f.d f.imm18)
  | _ => none

/-- Long opcodes 0x48 to 0x87 (Table 4-3): list, memory, allocation, atomic, queue and remote instructions. -/
def decodeMem (c : CoreId) (op : Nat) (f : LongFields) : Option Instr :=
  match op with
  | 0x48 => onlyIf (f.low == 0#13) (.car c f.d f.a)
  | 0x49 => onlyIf (f.low == 0#13) (.cdr c f.d f.a)
  | 0x4A => onlyIf (f.x == 0#8) (.cons c f.d f.a f.b)
  | 0x4B => onlyIf (f.low == 0#13) (.setcar c f.d f.a)
  | 0x4C => onlyIf (f.low == 0#13) (.setcdr c f.d f.a)
  | 0x50 => onlyIf (f.x == 0#8) (.len c f.d f.a f.b)
  | 0x51 => onlyIf (f.x == 0#8) (.nthcdr c f.d f.a f.b)
  | 0x52 => onlyIf (f.x == 0#8) (.memq c f.d f.a f.b)
  | 0x53 => onlyIf (f.x == 0#8) (.assq c f.d f.a f.b)
  | 0x54 => onlyIf (f.low == 0#13) (.last c f.d f.a)
  | 0x55 => onlyIf (f.low == 0#13) (.revx c f.d f.a)
  | 0x58 => some (.lds c f.d f.a f.sg f.imm9)
  | 0x59 => some (.sts c f.d f.a f.sg f.imm9)
  | 0x5A => onlyIf (f.sg == 0) (.ldp c f.d f.a f.imm9)
  | 0x5B => onlyIf (f.sg == 0) (.stp c f.d f.a f.imm9)
  | 0x5C => onlyIf (f.sg == 0 && f.imm9.extractLsb' 0 4 == 0#4) (.lde c f.d f.a f.idx)
  | 0x5D => onlyIf (f.sg == 0 && f.imm9.extractLsb' 0 4 == 0#4) (.ste c f.d f.a f.idx)
  | 0x5E => onlyIf (f.sg == 0 && f.imm9.extractLsb' 0 4 == 0#4) (.ldb c f.d f.a f.idx)
  | 0x5F => onlyIf (f.sg == 0 && f.imm9.extractLsb' 0 4 == 0#4) (.stb c f.d f.a f.idx)
  | 0x60 => onlyIf (f.low.extractLsb' 0 5 == 0#5) (.movs c f.d f.a f.sg f.sg2)
  | 0x61 => onlyIf (f.low.extractLsb' 0 5 == 0#5) (.movsb c f.d f.a f.sg f.sg2)
  | 0x62 => some (.adds c f.d f.a f.sg f.imm9)
  | 0x63 => some (.maxs c f.d f.a f.sg f.imm9)
  | 0x64 => some (.mins c f.d f.a f.sg f.imm9)
  | 0x65 => onlyIf (f.x == 0#8) (.devrd c f.d f.a f.b)
  | 0x66 => onlyIf (f.x == 0#8) (.devwr c f.d f.a f.b)
  | 0x68 => onlyIf (f.x == 0#8) (.alloc c f.d f.a f.b)
  | 0x69 => onlyIf (f.low == 0#13) (.allocb c f.d f.a)
  | 0x6A => onlyIf (f.x == 0#8) (.close c f.d f.a f.b)
  | 0x6B => onlyIf (f.low == 0#13) (.sizeof c f.d f.a)
  | 0x70 => onlyIf (f.x.extractLsb' 5 3 == 0#3) (.reserve c f.d f.a f.b (f.x.extractLsb' 0 5))
  | 0x71 => onlyIf (f.x.extractLsb' 5 3 == 0#3) (.commit c f.d f.a f.b (f.x.extractLsb' 0 5))
  | 0x72 => onlyIf (f.x.extractLsb' 5 3 == 0#3) (.cas2 c f.d f.a f.b (f.x.extractLsb' 0 5))
  | 0x73 => onlyIf (f.x.extractLsb' 5 3 == 0#3) (.swap c f.d f.a f.b (f.x.extractLsb' 0 5))
  | 0x74 => onlyIf (f.x.extractLsb' 5 3 == 0#3) (.fadd c f.d f.a f.b (f.x.extractLsb' 0 5))
  | 0x78 => onlyIf (f.low == 0#13) (.qpush c f.d f.a)
  | 0x79 => onlyIf (f.low == 0#13) (.qpop c f.d f.a)
  | 0x7A => onlyIf (f.low == 0#13) (.qwait c f.d f.a)
  | 0x7B => onlyIf (f.low == 0#13) (.qtry c f.d f.a)
  | 0x7C => onlyIf (f.x == 0#8) (.qnew c f.d f.a f.b)
  | 0x7D => onlyIf (f.d == 0 && f.low == 0#13) (.qfree c f.a)
  | 0x7E => onlyIf (f.x == 0#8) (.qdeal c f.d f.a f.b)
  | 0x7F => onlyIf (f.x == 0#8) (.tsetArm c f.d f.a f.b)
  | 0x80 => onlyIf (f.x == 0#8) (.rld c f.d f.a f.b)
  | 0x81 => onlyIf (f.x == 0#8) (.rst c f.d f.a f.b)
  | 0x82 => onlyIf (f.x == 0#8) (.rpush c f.d f.a f.b)
  | 0x83 => onlyIf (f.low == 0#13) (.exportI c f.d f.a)
  | 0x84 => onlyIf (f.d == 0 && f.low == 0#13) (.unexport c f.a)
  | _ => none

/-- Long opcodes 0x88 to 0xCF (Table 4-3): control, repeat and system instructions. -/
def decodeCtl (c : CoreId) (op : Nat) (f : LongFields) : Option Instr :=
  match op with
  | 0x88 => some (.bt c f.d f.imm18)
  | 0x89 => some (.bf c f.d f.imm18)
  | 0x8A => some (.bnil c f.d f.imm18)
  | 0x8B => some (.bnnil c f.d f.imm18)
  | 0x8C => some (.bzw c f.d f.imm18)
  | 0x8D => some (.bnzw c f.d f.imm18)
  | 0x90 => some (.jmp c f.body)
  | 0x98 => onlyIf (f.d == 0 && f.low.extractLsb' 3 10 == 0#10) (.call c f.a (f.x.extractLsb' 0 3))
  | 0x99 => onlyIf (f.d == 0 && f.low.extractLsb' 3 10 == 0#10) (.tcall c f.a (f.x.extractLsb' 0 3))
  | 0x9A => onlyIf (f.body == 0#23) (.ret c)
  | 0xA0 => onlyIf (f.d == 0 && f.low == 0#13) (.repI c (.reg f.a))
  | 0xA1 => some (.repI c (.imm f.body))
  | 0xA2 => onlyIf (f.d == 0 && f.low == 0#13) (.repN c (.reg f.a))
  | 0xA3 => onlyIf (f.body.extractLsb' 6 17 == 0#17) (.repN c (.imm f.body))
  | 0xA8 => onlyIf (f.d == 0 && f.a == 0) (.trap c f.low)
  | 0xA9 => onlyIf (f.body == 0#23) (.retx c)
  | 0xAA => onlyIf (f.a == 0) (.rdcr c f.d f.low)
  | 0xAB => onlyIf (f.d == 0) (.wrcr c f.a f.low)
  | 0xAC => onlyIf (f.body == 0#23) (.waitI c)
  | 0xAD => onlyIf (f.d == 0 && f.a == 0) (.fence c f.low)
  | 0xB0 => onlyIf (f.body == 0#23) (.hspill c)
  | 0xB1 => onlyIf (f.body == 0#23) (.hfill c)
  | 0xB2 => onlyIf (f.d == 0 && f.low == 0#13) (.ctxsw c f.a)
  | 0xB3 => onlyIf (f.d == 0 && f.a == 0) (.gfill c f.low)
  | 0xB4 => onlyIf (f.a == 0) (.ldbw c f.d f.low)
  | 0xB5 => onlyIf (f.d == 0) (.stbw c f.a f.low)
  | 0xB6 => some (.segset c f.d f.a f.low)
  | 0xB8 => onlyIf (f.d == 0) (.cclean c f.a f.low)
  | 0xB9 => onlyIf (f.d == 0) (.cinv c f.a f.low)
  | 0xBA => onlyIf (f.d == 0) (.ccinv c f.a f.low)
  | 0xBB => onlyIf (f.d == 0) (.ccleansw c f.a f.low)
  | 0xBC => onlyIf (f.d == 0) (.cinvsw c f.a f.low)
  | 0xBD => onlyIf (f.d == 0) (.ccinvsw c f.a f.low)
  | 0xBE => onlyIf (f.d == 0) (.iinv c f.a f.low)
  | 0xBF => onlyIf (f.d == 0) (.pref c f.a f.low)
  | _ => none

/-- A long operation (Table 4-3). TSET with IMM NIL in b is the command TSET_CANCEL, which has the same word. -/
def decodeLong (c : CoreId) (op : Nat) (f : LongFields) : Option Instr :=
  if op < 0x48 then decodeArith c op f
  else if op < 0x88 then decodeMem c op f
  else if op < 0xD0 then decodeCtl c op f
  else some (.customInstruction c (Fin.ofNat 48 (op - 0xD0)) f.d f.a f.b f.x)

/-- A short operation: opcode, d and s (R96). -/
def decodeShort (h : BitVec 15) : ShortOp := { op := h.extractLsb' 10 5, d := (h.extractLsb' 5 5).toFin, s := h.extractLsb' 0 5 }

/-- The command by which a core executes an instruction word (R91–R96, R100); none for a reserved long opcode or a nonzero must-be-zero
field or bit, which fault ILLEGAL (R99 step 2). What a command's own fields still make illegal, its meaning faults. -/
def decodeInstr (c : CoreId) (w : BitVec 32) : Option Instr :=
  if w.getLsbD 31 then onlyIf (!w.getLsbD 0) (.pairWord c (decodeShort (w.extractLsb' 16 15)) (decodeShort (w.extractLsb' 1 15)))
  else decodeLong c (w.extractLsb' 23 8).toNat { body := w.extractLsb' 0 23 }

/-- Long opcodes of the base instruction set that Table 4-3 assigns. -/
def longAssigned (op : Nat) : Bool :=
  decide (op < 0xD0) && !([0x00, 0x17, 0x2F, 0x37, 0x3F, 0x44, 0x45, 0x46, 0x47, 0x4D, 0x4E, 0x4F, 0x56, 0x57, 0x67, 0x6C, 0x6D, 0x6E,
    0x6F, 0x75, 0x76, 0x77, 0x85, 0x86, 0x87, 0x8E, 0x8F, 0x91, 0x92, 0x93, 0x94, 0x95, 0x96, 0x97, 0x9B, 0x9C,
    0x9D, 0x9E, 0x9F, 0xA4, 0xA5, 0xA6, 0xA7, 0xAE, 0xAF, 0xB7] : List Nat).contains op && !decide (0xC0 ≤ op)

/-- Long opcodes of instructions that only a supervisor may execute (R99 step 4, spec 06). -/
def longSup (op : Nat) : Bool :=
  ([0x7C, 0x7D, 0x84, 0xA9, 0xAC, 0xB0, 0xB1, 0xB2, 0xB3, 0xB4, 0xB5, 0xB6, 0xB9, 0xBB, 0xBC, 0xBD] : List Nat).contains op

/-- Long opcodes that Table 4-3 marks repeatable. -/
def longRep (op : Nat) : Bool := ([0x49, 0x59, 0x60, 0x61, 0x62, 0x63, 0x64] : List Nat).contains op

end Sys2Proof
end

