-- ==== Sys2Proof/Machine/Bits.lean ====
section
/-!
DEFINITION. Bit-field helpers (bit ranges are written high:low, spec 00): reading and replacing a field of a 64-bit
value, sign extension of a field, and the small constructors of words that many rules use.
-/
namespace Sys2Proof.Machine

open Sys2Proof

/-- Bits hi:lo of x, as a number. -/
def fld (x : W64) (hi lo : Nat) : Nat := (x.toNat >>> lo) % 2 ^ (hi + 1 - lo)

/-- Bit i of x. -/
def bitAt (x : W64) (i : Nat) : Bool := x.getLsbD i

/-- The mask of bits hi:lo. -/
def fmask (hi lo : Nat) : W64 := BitVec.ofNat 64 ((2 ^ (hi + 1 - lo) - 1) <<< lo)

/-- x with bits hi:lo replaced by the low bits of v. -/
def setFld (x : W64) (hi lo v : Nat) : W64 :=
  (x &&& ~~~ fmask hi lo) ||| (BitVec.ofNat 64 ((v % 2 ^ (hi + 1 - lo)) <<< lo))

/-- x with bit i set to b. -/
def setBit (x : W64) (i : Nat) (b : Bool) : W64 := setFld x i i b.toNat

/-- A field value placed at bits hi:lo, the rest zero. -/
def putFld (hi lo v : Nat) : W64 := setFld 0#64 hi lo v

/-- Bits hi:lo of x read as a two's-complement number. -/
def sfld (x : W64) (hi lo : Nat) : Int :=
  let w := hi + 1 - lo
  let v := fld x hi lo
  if v < 2 ^ (w - 1) then (v : Int) else (v : Int) - (2 ^ w : Nat)

/-- The 64-bit two's-complement pattern of an integer, modulo 2^64. -/
def w64 (i : Int) : W64 := BitVec.ofInt 64 i

/-- The 64-bit pattern of a natural number, modulo 2^64. -/
def n64 (n : Nat) : W64 := BitVec.ofNat 64 n

/-- A FIX word of a natural number. -/
def fixN (n : Nat) : Word := ⟨Tag.fix, n64 n⟩

/-- A FIX word of an integer. -/
def fixI (i : Int) : Word := ⟨Tag.fix, w64 i⟩

/-- A FIX word of a payload. -/
def fixW (p : W64) : Word := ⟨Tag.fix, p⟩

/-- The IMM constants of Table 2-3. -/
def immW (sub : Nat) : Word := ⟨Tag.imm, n64 sub⟩
def nilW : Word := immW 0
def trueW : Word := immW 1
def falseW : Word := immW 2
def eofW : Word := immW 3
def unboundW : Word := immW 4

/-- IMM TRUE or IMM FALSE. -/
def boolW (b : Bool) : Word := if b then trueW else falseW

/-- Sum of the bits of a payload. -/
def popCount : Nat → Nat → Nat
  | 0, _ => 0
  | k + 1, n => n % 2 + popCount k (n / 2)

/-- The index of the lowest set bit among the k lowest bits of n. -/
def lowestBit : Nat → Nat → Option Nat
  | 0, _ => none
  | k + 1, n => if n % 2 = 1 then some 0 else (lowestBit k (n / 2)).map (· + 1)

/-- Fold a function over 0 … n−1. -/
def forN {σ : Type} (n : Nat) (f : Nat → σ → σ) (s : σ) : σ := (List.range n).foldl (fun s i => f i s) s

/-- The first of the k numbers from i on that satisfies p. -/
def findGo (p : Nat → Bool) : Nat → Nat → Option Nat
  | 0, _ => none
  | k + 1, i => if p i then some i else findGo p k (i + 1)

/-- The first number below n that satisfies p. -/
def findN (n : Nat) (p : Nat → Bool) : Option Nat := findGo p n 0

end Sys2Proof.Machine
end

