-- ==== Sys2Proof/Machine/Float.lean ====
section
/-!
DEFINITION. IEEE 754 binary64 arithmetic by exact rationals and one rounding (spec 05 R107, R123–R126): classification,
rounding in the four modes of FSR.RM, tininess after rounding, the NaN rules of R123, and the operations built on them.
The result of an operation is its 64-bit pattern with the five exception flags in the places of FSR bits 4:0.
-/
namespace Sys2Proof.Machine

open Sys2Proof

/-- An exact rational: n / d with d > 0 (not reduced). -/
structure Q where
  n : Int
  d : Nat
  deriving DecidableEq, Repr

def Q.ofInt (i : Int) : Q := ⟨i, 1⟩
def Q.add (a b : Q) : Q := ⟨a.n * b.d + b.n * a.d, a.d * b.d⟩
def Q.neg (a : Q) : Q := ⟨-a.n, a.d⟩
def Q.mul (a b : Q) : Q := ⟨a.n * b.n, a.d * b.d⟩
/-- a / b for b ≠ 0. -/
def Q.div (a b : Q) : Q :=
  if b.n < 0 then ⟨-(a.n * b.d), a.d * b.n.natAbs⟩ else ⟨a.n * b.d, a.d * b.n.natAbs⟩
/-- Order of two rationals: −1, 0 or 1. -/
def Q.cmp (a b : Q) : Int := let x := a.n * b.d; let y := b.n * a.d; if x < y then -1 else if x = y then 0 else 1
/-- ⌊a⌋. -/
def Q.floor (a : Q) : Int := a.n.fdiv a.d
/-- a truncated toward zero. -/
def Q.trunc (a : Q) : Int := a.n.tdiv a.d

/-- 2^e as a rational. -/
def Q.pow2 (e : Int) : Q := if 0 ≤ e then ⟨(2 ^ e.toNat : Nat), 1⟩ else ⟨1, 2 ^ (-e).toNat⟩

/-- The exception flags of FSR bits 4:0 (R107). -/
abbrev FFlags := BitVec 5
abbrev FFlags.nv : FFlags := 16#5
abbrev FFlags.dz : FFlags := 8#5
abbrev FFlags.of : FFlags := 4#5
abbrev FFlags.uf : FFlags := 2#5
abbrev FFlags.nx : FFlags := 1#5

namespace Flo

/-- The default NaN of R123. -/
def defNaN : W64 := 0x7FF8000000000000#64
def posInf : W64 := 0x7FF0000000000000#64
def sgn (x : W64) : Bool := bitAt x 63
def expo (x : W64) : Nat := fld x 62 52
def frac (x : W64) : Nat := fld x 51 0
def isNaN (x : W64) : Bool := expo x == 2047 && frac x != 0
def isSNaN (x : W64) : Bool := isNaN x && !bitAt x 51
def isInf (x : W64) : Bool := expo x == 2047 && frac x == 0
def isZero (x : W64) : Bool := expo x == 0 && frac x == 0
def isFin (x : W64) : Bool := expo x != 2047
/-- A NaN quietened. -/
def quiet (x : W64) : W64 := x ||| 0x0008000000000000#64
def signBit (s : Bool) : W64 := if s then 0x8000000000000000#64 else 0#64
def inf (s : Bool) : W64 := posInf ||| signBit s
def zero (s : Bool) : W64 := signBit s

/-- The exact value of a finite FLO (R39). -/
def toQ (x : W64) : Q :=
  let m : Int := if expo x = 0 then frac x else frac x + 2 ^ 52
  let m := if sgn x then -m else m
  let e : Int := if expo x = 0 then -1074 else (expo x : Int) - 1075
  Q.mul ⟨m, 1⟩ (Q.pow2 e)

/-- Rounding an exact quotient n/d (n, d naturals) to an integer in mode rm for a value of sign s, with exactness. -/
def roundNat (s : Bool) (n d rm : Nat) : Nat × Bool :=
  let q := n / d
  let r := n % d
  if r = 0 then (q, true)
  else
    let up : Bool :=
      match rm with
      | 0 => if 2 * r > d then true else if 2 * r = d then q % 2 == 1 else false
      | 1 => false
      | 2 => !s
      | _ => s
    ((if up then q + 1 else q), false)

/-- ⌊log2 (n/d)⌋ for positive n and d. -/
def log2Q (n d : Nat) : Int :=
  let l : Int := (Nat.log2 n : Int) - (Nat.log2 d : Int)
  let p := Q.pow2 l
  if (n : Int) * p.d < p.n * d then l - 1 else l

/-- |n|/d · 2^(−q) rounded to an integer. -/
def scaleRound (s : Bool) (n d rm : Nat) (q : Int) : Nat × Bool :=
  if 0 ≤ q then roundNat s n (d * 2 ^ q.toNat) rm else roundNat s (n * 2 ^ (-q).toNat) d rm

/-- The result of overflow in mode rm (R123): infinity or the largest finite value. -/
def overflow (s : Bool) (rm : Nat) : W64 :=
  let toInf : Bool := match rm with | 0 => true | 1 => false | 2 => !s | _ => s
  if toInf then inf s else 0x7FEFFFFFFFFFFFFF#64 ||| signBit s

/-- Round a nonzero exact value to binary64 in mode rm (R123): tininess is found after rounding, and UF is raised only
with an inexact result. -/
def roundQ (x : Q) (rm : Nat) : W64 × FFlags :=
  let s := decide (x.n < 0)
  let n := x.n.natAbs
  if n = 0 then (0#64, 0#5)
  else
    let E := log2Q n x.d
    let qU := E - 52
    let q := if qU < -1074 then -1074 else qU
    let (m, ex) := scaleRound s n x.d rm q
    let (m, q) := if m = 2 ^ 53 then (2 ^ 52, q + 1) else (m, q)
    let mU := (scaleRound s n x.d rm qU).1
    let EU := if mU = 2 ^ 53 then E + 1 else E
    let nx : FFlags := if ex then 0#5 else FFlags.nx
    if q > 971 then (overflow s rm, FFlags.of ||| FFlags.nx)
    else
      let uf : FFlags := if decide (EU < -1022) && !ex then FFlags.uf else 0#5
      let bits : Nat := if m < 2 ^ 52 then m else (q + 1075).toNat * 2 ^ 52 + (m - 2 ^ 52)
      (n64 bits ||| signBit s, nx ||| uf)

/-- Round an exact value whose zero takes the sign z. -/
def roundQz (x : Q) (z : Bool) (rm : Nat) : W64 × FFlags := if x.n = 0 then (zero z, 0#5) else roundQ x rm

/-- An integer converted to FLO under RM (R124, R126); OF is set for one beyond the largest finite value, even where it rounds to that value. -/
def ofInt (i : Int) (rm : Nat) : W64 × FFlags :=
  let r := roundQ (Q.ofInt i) rm
  if (2 ^ 53 - 1) * 2 ^ 971 < i.natAbs then (r.1, r.2 ||| FFlags.of) else r

/-- The first NaN of a list of operands, quietened; NV if any operand signals (R123). -/
def nanOf (xs : List W64) : Option (W64 × FFlags) :=
  match xs.find? isNaN with
  | none => none
  | some x => some (quiet x, if xs.any isSNaN then FFlags.nv else 0#5)

def add (a b : W64) (rm : Nat) : W64 × FFlags :=
  match nanOf [a, b] with
  | some r => r
  | none =>
    if isInf a then (if isInf b && sgn a != sgn b then (defNaN, FFlags.nv) else (a, 0#5))
    else if isInf b then (b, 0#5)
    else
      let z := if isZero a && isZero b && sgn a == sgn b then sgn a else rm == 3
      roundQz (Q.add (toQ a) (toQ b)) z rm

/-- The sign bit changed; no flag is set (R123). -/
def neg (a : W64) : W64 := a ^^^ 0x8000000000000000#64
def abs (a : W64) : W64 := a &&& 0x7FFFFFFFFFFFFFFF#64

/-- a − b; a NaN b propagates itself, so its sign is not changed (R123). -/
def sub (a b : W64) (rm : Nat) : W64 × FFlags := if isNaN b then add a b rm else add a (neg b) rm

def mul (a b : W64) (rm : Nat) : W64 × FFlags :=
  match nanOf [a, b] with
  | some r => r
  | none =>
    let s := sgn a != sgn b
    if isInf a || isInf b then (if isZero a || isZero b then (defNaN, FFlags.nv) else (inf s, 0#5))
    else roundQz (Q.mul (toQ a) (toQ b)) s rm

/-- IEEE division (R125): a finite nonzero value by zero gives the signed infinity and raises DZ. -/
def div (a b : W64) (rm : Nat) : W64 × FFlags :=
  match nanOf [a, b] with
  | some r => r
  | none =>
    let s := sgn a != sgn b
    if isInf a then (if isInf b then (defNaN, FFlags.nv) else (inf s, 0#5))
    else if isInf b then (zero s, 0#5)
    else if isZero b then (if isZero a then (defNaN, FFlags.nv) else (inf s, FFlags.dz))
    else roundQz (Q.div (toQ a) (toQ b)) s rm

/-- Integer square root by bits: the largest r with r·r ≤ n, for r below 2^k. -/
def isqrtAux (n : Nat) : Nat → Nat → Nat
  | 0, r => r
  | k + 1, r => let t := r + 2 ^ k; isqrtAux n k (if t * t ≤ n then t else r)

def isqrt (n : Nat) : Nat := isqrtAux n (Nat.log2 n / 2 + 1) 0

/-- A rational that rounds as the square root of the nonnegative x does, with at least 2^bits steps to the unit:
the root itself where it is exact at that precision, else a value strictly between its two neighbours. -/
def sqrtQ (x : Q) (bits : Nat) : Q :=
  let n := x.n.natAbs * x.d * 4 ^ bits
  let r := isqrt n
  if r * r = n then ⟨r, x.d * 2 ^ bits⟩ else ⟨2 * r + 1, x.d * 2 ^ (bits + 1)⟩

/-- IEEE square root (R126). -/
def sqrt (a : W64) (rm : Nat) : W64 × FFlags :=
  match nanOf [a] with
  | some r => r
  | none =>
    if isZero a then (a, 0#5)
    else if sgn a then (defNaN, FFlags.nv)
    else if isInf a then (a, 0#5)
    else roundQ (sqrtQ (toQ a) 64) rm

/-- Fused multiply-add a × b + d with one rounding (R123, R126): NaN order a, b, d; a zero times an infinity raises
NV even beside a quiet NaN d. -/
def fma (a b d : W64) (rm : Nat) : W64 × FFlags :=
  let inv := (isZero a && isInf b) || (isInf a && isZero b)
  match nanOf [a, b, d] with
  | some (r, f) => (r, if inv then f ||| FFlags.nv else f)
  | none =>
    if inv then (defNaN, FFlags.nv)
    else
      let s := sgn a != sgn b
      if isInf a || isInf b then (if isInf d && sgn d != s then (defNaN, FFlags.nv) else (inf s, 0#5))
      else if isInf d then (d, 0#5)
      else
        let p := Q.mul (toQ a) (toQ b)
        let z := if p.n = 0 && isZero d && sgn d == s then s else rm == 3
        roundQz (Q.add p (toQ d)) z rm

/-- A finite FLO rounded to an integer by RM (R126), with exactness. -/
def toInt (a : W64) (rm : Nat) : Int × Bool :=
  let x := toQ a
  let s := decide (x.n < 0)
  let (m, ex) := roundNat s x.n.natAbs x.d rm
  ((if s then -(m : Int) else m), ex)

end Flo

end Sys2Proof.Machine
end

