-- ==== Sys2Proof/Machine/Types.lean ====
section
/-!
DEFINITION. The causes of Table 7-2 and the description of a synchronous fault (spec 07 R172, R174): what the save set of
the delivery level records about it.
-/
namespace Sys2Proof.Machine

open Sys2Proof

/-- The synchronous causes of Table 7-2 (R172). -/
inductive Cause where
  | tag | unit | qtyRange | div0 | segInvalid | segRights | segLimit | alloc | illegal | illegalPair | illegalRepeat
  | priv | groupAbsent | handSpill | handFill | memUncorr | remoteFail | stale | queue | microRunaway
  | xstack | escalated | watch | brk | step | trap
  deriving DecidableEq, Repr

/-- The cause codes of Table 7-2. -/
def Cause.code : Cause → Nat
  | .tag => 0x01 | .unit => 0x02 | .qtyRange => 0x03 | .div0 => 0x04 | .segInvalid => 0x05 | .segRights => 0x06
  | .segLimit => 0x07 | .alloc => 0x08 | .illegal => 0x09 | .illegalPair => 0x0A | .illegalRepeat => 0x0B
  | .priv => 0x0C | .groupAbsent => 0x0D | .handSpill => 0x0E | .handFill => 0x0F | .memUncorr => 0x10
  | .remoteFail => 0x11 | .stale => 0x12 | .queue => 0x13 | .microRunaway => 0x14 | .xstack => 0x15
  | .escalated => 0x16 | .watch => 0x17 | .brk => 0x18 | .step => 0x19 | .trap => 0x40

/-- The cause a code of Table 7-2 names. -/
def Cause.ofCode : Nat → Cause
  | 0x01 => .tag | 0x02 => .unit | 0x03 => .qtyRange | 0x04 => .div0 | 0x05 => .segInvalid | 0x06 => .segRights
  | 0x07 => .segLimit | 0x08 => .alloc | 0x09 => .illegal | 0x0A => .illegalPair | 0x0B => .illegalRepeat
  | 0x0C => .priv | 0x0D => .groupAbsent | 0x0E => .handSpill | 0x0F => .handFill | 0x10 => .memUncorr
  | 0x11 => .remoteFail | 0x12 => .stale | 0x13 => .queue | 0x14 => .microRunaway | 0x15 => .xstack
  | 0x16 => .escalated | 0x17 => .watch | 0x18 => .brk | 0x19 => .step | _ => .trap

/-- The vector of a cause (Table 7-2): the debug causes share vector 0x48, every other uses its own code. -/
def Cause.vector : Cause → Nat
  | .watch => 0x48 | .brk => 0x48 | .step => 0x48 | c => c.code

/-- A synchronous fault: its cause and what XCA, XAD and XOP record of it (spec 07, the save set of level n). -/
structure Exn where
  cause : Cause
  /-- XCA.OPND: 0 none, 1 a, 2 b, 3 d, 4 the memory word in XAD. -/
  opnd : Nat := 0
  /-- XCA.GROUP, for GROUP_ABSENT. -/
  group : Nat := 0
  /-- XAD as it is saved (V in bit 48), or zero. -/
  xad : W64 := 0#64
  /-- Tag of the memory word, for OPND 4. -/
  mtag : Tag := 0#8
  /-- XCA.HALF. -/
  half : Bool := false
  /-- XCA.TRAPN. -/
  trapn : Nat := 0
  /-- XCA.XSUB. -/
  xsub : Nat := 0
  deriving DecidableEq, Repr

/-- A fault of a cause about an operand. -/
def Exn.of (c : Cause) (opnd : Nat := 0) : Exn := { cause := c, opnd := opnd }

/-- The XAD word of a segment word (spec 07, XADn). -/
def xadWord (sel off : Nat) : W64 := putFld 63 52 sel ||| putFld 48 48 1 ||| putFld 47 0 off

/-- The causes by which R76 refuses an access: no memory word has been read, so OPND names none. -/
def Cause.refusesAccess : Cause → Bool
  | .segInvalid => true
  | .segRights => true
  | .segLimit => true
  | _ => false

/-- A fault about the word at an offset of a segment: XAD names the word; OPND is 4 where the word itself is at fault, 0 where the access
is refused. DEDUCED: notes/assumptions/13.md. -/
def Exn.at (c : Cause) (sel off : Nat) : Exn :=
  { cause := c, opnd := if c.refusesAccess then 0 else 4, xad := xadWord sel off }

/-- A fault that an operand causes at an object, whose header (or first cell word) XAD names (R54, R132 step 5). DEDUCED:
notes/assumptions/13.md. -/
def Exn.obj (c : Cause) (opnd sel off : Nat) : Exn := { cause := c, opnd := opnd, xad := xadWord sel off }

end Sys2Proof.Machine
end

