-- ==== Sys2Proof/Machine/Arith.lean ====
section
/-!
DEFINITION. Generic and quantity arithmetic on the values of words (spec 05 R108–R126, Table 5-1): the result or the
fault of each operation for each pair of operand kinds. A FIX and a BIG are both an integer here; the words, the
allocation of a BIG and the status registers are the business of Machine/Exec.lean.
-/
namespace Sys2Proof.Machine

open Sys2Proof

/-- The value of a numeric word, or of a CHR (R109). A quantity is its value field and its dimension field (R43). -/
inductive Num where
  | int (i : Int)
  | flo (w : W64)
  | qty (v : Int) (dim : Nat)
  | chr (c : Nat)
  deriving DecidableEq, Repr

/-- A result with what it adds to the sticky bits: the FSR flags and ASR.QNX. -/
structure NRes where
  val : Num
  ff  : FFlags := 0#5
  qnx : Bool := false
  deriving DecidableEq, Repr

/-- The exact value of a QTY value field. -/
def qtyQ (v : Int) : Q := ⟨v, 65536⟩

/-- The exact value of a finite operand. -/
def Num.toQ : Num → Q
  | .int i => Q.ofInt i
  | .flo w => Flo.toQ w
  | .qty v _ => qtyQ v
  | .chr c => Q.ofInt c

/-- The dimension field of an operand; a plain number is dimensionless (R118). -/
def Num.dim : Num → Nat
  | .qty _ d => d
  | _ => 0

def Num.isNaN : Num → Bool
  | .flo w => Flo.isNaN w
  | _ => false
def Num.isSNaN : Num → Bool
  | .flo w => Flo.isSNaN w
  | _ => false

namespace Arith

/-- Exponent k (0 the amount, 5 the mass) of a dimension field, two's complement in 3 bits (R43). -/
def dimExp (d k : Nat) : Int := let e := (d >>> (3 * k)) % 8; if e < 4 then (e : Int) else (e : Int) - 8

/-- Six exponents packed, or none where one lies outside −4 to +3 (R117). -/
def packDim (f : Nat → Int) : Option Nat :=
  (List.range 6).foldl (fun acc k =>
    match acc with
    | none => none
    | some d => if -4 ≤ f k ∧ f k ≤ 3 then some (d + ((f k) % 8).toNat * 8 ^ k) else none) (some 0)

def dimAdd (x y : Nat) : Option Nat := packDim (fun k => dimExp x k + dimExp y k)
def dimSub (x y : Nat) : Option Nat := packDim (fun k => dimExp x k - dimExp y k)
/-- Every exponent halved; none where one is odd (R126, FSQRT of a QTY). -/
def dimHalf (x : Nat) : Option Nat :=
  if (List.range 6).all (fun k => dimExp x k % 2 == 0) then packDim (fun k => dimExp x k / 2) else none

/-- A QTY value: the exact value rounded once to a multiple of 2^−16, ties to even, or QTY_RANGE (R119). -/
def mkQty (x : Q) (dim : Nat) : Except Exn NRes :=
  let s := decide (x.n < 0)
  let (m, ex) := Flo.roundNat s (x.n.natAbs * 65536) x.d 0
  let v : Int := if s then -(m : Int) else m
  if -(2 ^ 45 : Int) ≤ v ∧ v < 2 ^ 45 then .ok { val := .qty v dim, qnx := !ex } else .error (.of .qtyRange)

/-- The operand that is a QTY with dimensions, for a UNIT fault: a before b (R118, R130). -/
def unitOpnd (a b : Num) : Nat := if a.dim ≠ 0 then 1 else if b.dim ≠ 0 then 2 else 1

/-- A FLO operand that is a NaN or an infinity makes a QTY result fault QTY_RANGE (R118). -/
def finChk (n : Num) : Except Exn Unit :=
  match n with
  | .flo w => if Flo.isFin w then .ok () else .error (.of .qtyRange)
  | _ => .ok ()

/-- The FLO of an operand of a FLO operation: an integer is converted under RM (R124). -/
def toFlo (n : Num) (rm : Nat) : W64 × FFlags :=
  match n with
  | .int i => Flo.ofInt i rm
  | .flo w => (w, 0#5)
  | .qty v _ => Flo.roundQ (qtyQ v) rm
  | .chr c => Flo.ofInt c rm

/-- The two-operand generic operations of R109. -/
inductive Op2 where
  | add | sub | mul | div | quo | mod
  deriving DecidableEq, Repr

/-- A zero value, for DIV0 (R114, R120): an integer or QTY zero, or a FLO zero beside a QTY. -/
def isZeroNum : Num → Bool
  | .int i => i == 0
  | .qty v _ => v == 0
  | .flo w => Flo.isZero w
  | .chr _ => false

/-- Integer results (R109, R114). -/
def intOp (op : Op2) (x y : Int) : Except Exn NRes :=
  match op with
  | .add => .ok { val := .int (x + y) }
  | .sub => .ok { val := .int (x - y) }
  | .mul => .ok { val := .int (x * y) }
  | .div => if y = 0 then .error (.of .div0 2) else .ok { val := .int (x.fdiv y) }
  | .quo => if y = 0 then .error (.of .div0 2) else .ok { val := .int (x.tdiv y) }
  | .mod => if y = 0 then .error (.of .div0 2) else .ok { val := .int (x.fmod y) }

/-- The operand that holds the FLO which QUO and MOD do not accept: a before b (R130). -/
def floOpnd (a : Num) : Nat := match a with | .flo _ => 1 | _ => 2

/-- FLO results (R123–R125); QUO and MOD of a FLO fault TAG (Table 5-1). -/
def floOp (op : Op2) (a b : Num) (rm : Nat) (tdz : Bool) : Except Exn NRes :=
  let (x, fx) := toFlo a rm
  let (y, fy) := toFlo b rm
  let ret (r : W64 × FFlags) : Except Exn NRes := .ok { val := .flo r.1, ff := r.2 ||| fx ||| fy }
  match op with
  | .add => ret (Flo.add x y rm)
  | .sub => ret (Flo.sub x y rm)
  | .mul => ret (Flo.mul x y rm)
  | .div =>
    let r := Flo.div x y rm
    if tdz && (r.2 &&& FFlags.dz) != 0#5 then .error (.of .div0 2) else ret r
  | .quo => .error (.of .tag (floOpnd a))
  | .mod => .error (.of .tag (floOpnd a))

/-- Results with at least one QTY operand (R117–R120, Table 5-1). -/
def qtyOp (op : Op2) (a b : Num) : Except Exn NRes :=
  let same (k : Except Exn NRes) : Except Exn NRes :=
    if a.dim = b.dim then k else .error (.of .unit (unitOpnd a b))
  let fin (k : Except Exn NRes) : Except Exn NRes :=
    match finChk a with
    | .error e => .error e
    | .ok _ => match finChk b with | .error e => .error e | .ok _ => k
  let nz (k : Except Exn NRes) : Except Exn NRes := if isZeroNum b then .error (.of .div0 2) else k
  match op with
  | .add => same (fin (mkQty (Q.add a.toQ b.toQ) a.dim))
  | .sub => same (fin (mkQty (Q.add a.toQ (Q.neg b.toQ)) a.dim))
  | .mul =>
    match dimAdd a.dim b.dim with
    | none => .error (.of .unit 1)
    | some d => fin (mkQty (Q.mul a.toQ b.toQ) d)
  | .div =>
    match dimSub a.dim b.dim with
    | none => .error (.of .unit (unitOpnd a b))
    | some d => nz (fin (mkQty (Q.div a.toQ b.toQ) d))
  | .quo =>
    match a, b with
    | .flo _, _ => .error (.of .tag 1)
    | _, .flo _ => .error (.of .tag 2)
    | _, _ => same (nz (.ok { val := .int (Q.trunc (Q.div a.toQ b.toQ)) }))
  | .mod =>
    match a, b with
    | .flo _, _ => .error (.of .tag 1)
    | _, .flo _ => .error (.of .tag 2)
    | _, _ => same (nz (
        let q := Q.floor (Q.div a.toQ b.toQ)
        mkQty (Q.add a.toQ (Q.neg (Q.mul b.toQ (.ofInt q)))) a.dim))

/-- The generic two-operand instructions by Table 5-1 (R109); the pair CHR, CHR is in no arithmetic cell. -/
def op2 (op : Op2) (a b : Num) (rm : Nat) (tdz : Bool) : Except Exn NRes :=
  match a, b with
  | .chr _, _ => .error (.of .tag 1)
  | _, .chr _ => .error (.of .tag 2)
  | .int x, .int y => intOp op x y
  | .int _, .flo _ => floOp op a b rm tdz
  | .flo _, .int _ => floOp op a b rm tdz
  | .flo _, .flo _ => floOp op a b rm tdz
  | .qty _ _, _ => qtyOp op a b
  | _, .qty _ _ => qtyOp op a b

/-- NEG (R109, R115, R119, R123). -/
def neg (a : Num) : Except Exn NRes :=
  match a with
  | .int i => .ok { val := .int (-i) }
  | .flo w => .ok { val := .flo (Flo.neg w) }
  | .qty v d => mkQty (qtyQ (-v)) d
  | .chr _ => .error (.of .tag 1)

/-- ABS (R109, R115, R119, R123). -/
def abs (a : Num) : Except Exn NRes :=
  match a with
  | .int i => .ok { val := .int i.natAbs }
  | .flo w => .ok { val := .flo (Flo.abs w) }
  | .qty v d => mkQty (qtyQ v.natAbs) d
  | .chr _ => .error (.of .tag 1)

/-- The order of two non-NaN operands: −1, 0 or 1 (R121). -/
def cmpVal (a b : Num) : Int :=
  let inf : Num → Int := fun n => match n with | .flo w => if Flo.isInf w then (if Flo.sgn w then -1 else 1) else 0 | _ => 0
  let ia := inf a
  let ib := inf b
  if ia ≠ 0 ∨ ib ≠ 0 then (if ia < ib then -1 else if ia = ib then 0 else 1) else Q.cmp a.toQ b.toQ

/-- The order of two operands, 2 for unordered, with the operand checks of Table 5-1 (R121). -/
def cmp (a b : Num) : Except Exn Int :=
  let go : Except Exn Int := .ok (if a.isNaN || b.isNaN then 2 else cmpVal a b)
  match a, b with
  | .chr _, .chr _ => go
  | .chr _, _ => .error (.of .tag 1)
  | _, .chr _ => .error (.of .tag 1)
  | .qty _ _, _ => if a.dim = b.dim then go else .error (.of .unit (unitOpnd a b))
  | _, .qty _ _ => if a.dim = b.dim then go else .error (.of .unit (unitOpnd a b))
  | _, _ => go

/-- Which source MIN (or MAX) returns: the word of a, of b, or a signalling NaN quietened with NV (R122). -/
inductive Pick where
  | a | b | nan (w : W64) (nv : Bool)
  deriving DecidableEq, Repr

def minMax (isMax : Bool) (a b : Num) : Except Exn Pick :=
  match cmp a b with
  | .error e => .error e
  | .ok r =>
    match a, b with
    | .flo x, .flo y =>
      if Flo.isNaN x then .ok (if Flo.isSNaN x then .nan (Flo.quiet x) true else if Flo.isSNaN y then .nan x true else .a)
      else if Flo.isNaN y then .ok (if Flo.isSNaN y then .nan (Flo.quiet y) true else .b)
      else if r = 0 then .ok (if Flo.isZero x && Flo.sgn x != Flo.sgn y then (if Flo.sgn x != isMax then .a else .b) else .a)
      else .ok (if (r < 0) != isMax then .a else .b)
    | .flo x, _ =>
      if Flo.isNaN x then .ok (if Flo.isSNaN x then .nan (Flo.quiet x) true else .a)
      else if r = 0 then .ok .a else .ok (if (r < 0) != isMax then .a else .b)
    | _, .flo y =>
      if Flo.isNaN y then .ok (if Flo.isSNaN y then .nan (Flo.quiet y) true else .b)
      else if r = 0 then .ok .a else .ok (if (r < 0) != isMax then .a else .b)
    | _, _ => if r = 0 then .ok .a else .ok (if (r < 0) != isMax then .a else .b)

/-- The generic shifts (R116): a × 2^n, or ⌊a / 2^(−n)⌋. -/
def ashl (a n : Int) : Int := if 0 ≤ n then a * 2 ^ n.toNat else a.fdiv (2 ^ (-n).toNat)

/-- FIXFLO, FLOFIX, QTYMK, QTYVAL, FSQRT, FMA (R126). -/
def fixflo (a : Num) (rm : Nat) : Except Exn NRes :=
  match a with
  | .int i => let r := Flo.ofInt i rm; .ok { val := .flo r.1, ff := r.2 }
  | _ => .error (.of .tag 1)

def flofix (a : Num) (rm : Nat) : Except Exn NRes :=
  match a with
  | .flo w =>
    if Flo.isFin w then let r := Flo.toInt w rm; .ok { val := .int r.1, ff := if r.2 then 0#5 else FFlags.nx }
    else .error (.of .tag 1)
  | _ => .error (.of .tag 1)

def qtymk (a : Num) (dim : Nat) : Except Exn NRes :=
  match a with
  | .chr _ => .error (.of .tag 1)
  | .qty _ d => if d = 0 then mkQty a.toQ dim else .error (.of .unit 1)
  | .flo w => if Flo.isFin w then mkQty a.toQ dim else .error (.of .qtyRange)
  | .int _ => mkQty a.toQ dim

def qtyval (a : Num) : Except Exn NRes :=
  match a with
  | .qty v _ => .ok { val := .flo (Flo.roundQ (qtyQ v) 0).1 }
  | _ => .error (.of .tag 1)

def fsqrt (a : Num) (rm : Nat) : Except Exn NRes :=
  match a with
  | .chr _ => .error (.of .tag 1)
  | .qty v d =>
    match dimHalf d with
    | none => .error (.of .unit 1)
    | some d' =>
      if v < 0 then .error (.of .qtyRange)
      else mkQty (Flo.sqrtQ (qtyQ v) 64) d'
  | n =>
    let (x, fx) := toFlo n rm
    let r := Flo.sqrt x rm
    .ok { val := .flo r.1, ff := r.2 ||| fx }

def fma (a b d : Num) (rm : Nat) : Except Exn NRes :=
  let okN : Num → Bool := fun n => match n with | .int _ => true | .flo _ => true | _ => false
  if !okN a then .error (.of .tag 1) else if !okN b then .error (.of .tag 2) else if !okN d then .error (.of .tag 3)
  else
    let (x, fx) := toFlo a rm
    let (y, fy) := toFlo b rm
    let (z, fz) := toFlo d rm
    let r := Flo.fma x y z rm
    .ok { val := .flo r.1, ff := r.2 ||| fx ||| fy ||| fz }

end Arith

end Sys2Proof.Machine
end

