-- ==== Sys2Proof/Config.lean ====
section
/-!
DEFINITION. What the spec leaves open or takes from outside, as constants with no body: free values, numbered by the counter
`freeCtr` of the state, and the cryptographic functions of the standards the spec names (spec 19). No proof can see a value of
one of them.
-/
namespace Sys2Proof.Config

open Sys2Proof

/-- A free natural number (a choice the spec does not fix), numbered. -/
opaque freeNat : Nat → Nat

/-- A free 64-bit value, numbered. -/
opaque freeW64 : Nat → W64

/-- Entries of a Corgil import table (R361 gives no number). -/
opaque importCap : Nat

/-- The value, in units of 2^−16, that the housekeeping ADC gives a code of a channel (R391: by calibration constants held in OTP, which
the spec does not give). -/
opaque hkaValue : Nat → Nat → Int

/-- Octets a peripheral's receive buffer, and its transmit buffer, holds (spec 15 gives no size), by instance. -/
opaque rxRoom : Nat → Nat
opaque txRoom : Nat → Nat

/-- The octets of a result of n octets, the first octet in the highest bits. -/
def octetsBE (n : Nat) (b : BitVec (8 * n)) : List (BitVec 8) := (List.range n).map (fun i => b.extractLsb' (8 * (n - 1 - i)) 8)

/-- SHA-256 of a list of octets: 32 octets (FIPS 180-4; spec 08 R206, spec 17, spec 19). -/
opaque sha256Bits : List (BitVec 8) → BitVec 256
def sha256 (m : List (BitVec 8)) : List (BitVec 8) := octetsBE 32 (sha256Bits m)

/-- HMAC-SHA-256 of a key and a message: 32 octets (FIPS 198-1; spec 19). -/
opaque hmacBits : List (BitVec 8) → List (BitVec 8) → BitVec 256
def hmac (k m : List (BitVec 8)) : List (BitVec 8) := octetsBE 32 (hmacBits k m)

/-- PBKDF2-HMAC-SHA-256 of a password, a salt and an iteration count: 32 octets (RFC 8018; spec 19). -/
opaque pbkdf2Bits : List (BitVec 8) → List (BitVec 8) → Nat → BitVec 256
def pbkdf2 (pw salt : List (BitVec 8)) (n : Nat) : List (BitVec 8) := octetsBE 32 (pbkdf2Bits pw salt n)

/-- ECDSA P-256 verification: public key (64 octets), message digest, signature (64 octets) (FIPS 186-5; spec 17, spec 19). -/
opaque ecdsaVerify : List (BitVec 8) → List (BitVec 8) → List (BitVec 8) → Bool

/-- The public key of a P-256 private value, and the shared secret with a peer's public key (spec 19 R476). -/
opaque ecdhPublicBits : List (BitVec 8) → BitVec 512
opaque ecdhSharedBits : List (BitVec 8) → List (BitVec 8) → BitVec 256
def ecdhPublic (d : List (BitVec 8)) : List (BitVec 8) := octetsBE 64 (ecdhPublicBits d)
def ecdhShared (d q : List (BitVec 8)) : List (BitVec 8) := octetsBE 32 (ecdhSharedBits d q)

/-- DEVID, unique to the part (R471): 64 bits, 8 octets. -/
opaque devIdBits : BitVec 64
def devId : List (BitVec 8) := octetsBE 8 devIdBits

/-- What Table 8-1 leaves to manufacture in the decode entries of the base instruction set (R188), by long opcode: MICRO, YLD and ENTRY. -/
opaque romDecode : Nat → W64

/-- The microwords of the ROM, fixed at manufacture (R187), by micro-address. -/
opaque romWord : Nat → BitVec 128

/-- The device's random source: octets, numbered (spec 19). -/
opaque random : Nat → List (BitVec 8)

/-- Free value: the value a table of R386 gives whose XLO and XHI are equal, in units of 2^−16. -/
opaque senseFlat (n : Nat) : BitVec 46

end Sys2Proof.Config
end

