-- ==== Sys2Proof/Machine/RegMap.lean ====
section
/-!
DEFINITION. The register map: the blocks of Table 1-7 (spec 01 R21, R22) and, for each register the chapters describe, its word
offset, its count and the masks of its access codes (spec 00 R7, Table 0-3) with its reset value. Bits in no mask are
ro, hw or reserved: a write leaves them. A reset value the spec gives as image-dependent stands here as the value before an
image is applied (zero unless the spec's table states a default; notes/assumptions/6.md).
-/
namespace Sys2Proof.Machine

open Sys2Proof

/-- The register blocks of Table 1-7 (R22). -/
inductive Blk where
  | bSYS | bCORE | bMCS | bL2C | bL3C | bMEMC | bSWP | bDLR | bDMA | bMLD | bCGL | bCGLP
  | bINTC | bSTK | bSNS | bPWM | bHKA | bETH | bUSB | bCAN | bUART | bI2C | bPMB | bXSPI
  | bGPIO | bHRTH | bDMPR | bCLK | bSAFE | bSEC | bDBG | bTRC | bCNTC | bCNTU
  deriving DecidableEq, Repr

/-- Base address, instance count and stride of a block (Table 1-7). -/
def Blk.geom : Blk → Nat × Nat × Nat
  | .bSYS => (0xFF00000000, 1, 0x1000)
  | .bCORE => (0xFF00100000, 64, 0x1000)
  | .bMCS => (0xFF00200000, 8, 0x1000)
  | .bL2C => (0xFF00210000, 8, 0x1000)
  | .bL3C => (0xFF00300000, 32, 0x1000)
  | .bMEMC => (0xFF00400000, 4, 0x10000)
  | .bSWP => (0xFF00500000, 1, 0x10000)
  | .bDLR => (0xFF00600000, 1, 0x10000)
  | .bDMA => (0xFF00700000, 4, 0x10000)
  | .bMLD => (0xFF00800000, 1, 0x10000)
  | .bCGL => (0xFF00900000, 1, 0x1000)
  | .bCGLP => (0xFF00910000, 4, 0x1000)
  | .bINTC => (0xFF00A00000, 1, 0x10000)
  | .bSTK => (0xFF00B00000, 1, 0x10000)
  | .bSNS => (0xFF00B10000, 1, 0x10000)
  | .bPWM => (0xFF00B20000, 1, 0x1000)
  | .bHKA => (0xFF00B30000, 1, 0x1000)
  | .bETH => (0xFF00C00000, 4, 0x10000)
  | .bUSB => (0xFF00C40000, 1, 0x10000)
  | .bCAN => (0xFF00C50000, 4, 0x1000)
  | .bUART => (0xFF00C60000, 8, 0x1000)
  | .bI2C => (0xFF00C70000, 4, 0x1000)
  | .bPMB => (0xFF00C80000, 1, 0x1000)
  | .bXSPI => (0xFF00C90000, 1, 0x1000)
  | .bGPIO => (0xFF00CA0000, 1, 0x1000)
  | .bHRTH => (0xFF00D00000, 1, 0x10000)
  | .bDMPR => (0xFF00D10000, 1, 0x1000)
  | .bCLK => (0xFF00D20000, 1, 0x1000)
  | .bSAFE => (0xFF00E00000, 1, 0x10000)
  | .bSEC => (0xFF00E10000, 1, 0x1000)
  | .bDBG => (0xFF00F00000, 64, 0x1000)
  | .bTRC => (0xFF00F40000, 1, 0x10000)
  | .bCNTC => (0xFF00F50000, 8, 0x1000)
  | .bCNTU => (0xFF00F60000, 1, 0x1000)

/-- The blocks in address order. -/
def Blk.all : List Blk :=
  [.bSYS, .bCORE, .bMCS, .bL2C, .bL3C, .bMEMC, .bSWP, .bDLR, .bDMA, .bMLD, .bCGL, .bCGLP, .bINTC, .bSTK, .bSNS, .bPWM, .bHKA, .bETH, .bUSB, .bCAN, .bUART, .bI2C, .bPMB, .bXSPI, .bGPIO, .bHRTH, .bDMPR, .bCLK, .bSAFE, .bSEC, .bDBG, .bTRC, .bCNTC, .bCNTU]

/-- A register of a block: offset, stride and count of its copies, its access masks and its reset value. -/
structure RegSpec where
  off    : Nat
  stride : Nat
  count  : Nat
  rw     : W64
  w1c    : W64
  rc     : W64
  wo     : W64
  reset  : W64
  deriving DecidableEq, Repr

/-- The registers common to the peripheral blocks (spec 15). -/
def regsPER : List RegSpec := [
  ⟨0x0000, 1, 1, 0x7FF0F05, 0x0, 0x0, 0x2, 0x0⟩,
  ⟨0x0001, 1, 1, 0x0, 0xF, 0xFFFF000000000000, 0x0, 0x0⟩,
  ⟨0x0002, 1, 1, 0x3F, 0x0, 0x0, 0x0, 0x0⟩,
  ⟨0x0008, 1, 1, 0x0, 0x0, 0xFFFFFFFFFFFFFFFF, 0x0, 0x0⟩,
  ⟨0x0009, 1, 1, 0x0, 0x0, 0x0, 0xFFFFFFFFFFFFFFFF, 0x0⟩,
  ⟨0x0011, 1, 7, 0x0, 0x0, 0x0, 0xFFFFFFFFFFFFFFFF, 0x0⟩]

/-- The registers of SYS (01 R25, 01 R27, 01 R29, 01 R30): IDREV, SELF, STAT, OFFADDR. -/
def regsSYS : List RegSpec := [
  ⟨0x0000, 1, 1, 0x0, 0x0, 0x0, 0x0, 0xA57884001000000⟩,
  ⟨0x0001, 1, 1, 0x0, 0x0, 0x0, 0x0, 0x0⟩,
  ⟨0x0002, 1, 1, 0x0, 0x1, 0x0, 0x0, 0x0⟩,
  ⟨0x0003, 1, 1, 0x0, 0x0, 0x0, 0x0, 0x0⟩]

/-- The registers of CORE (03 R80): CINFO, DCINV. -/
def regsCORE : List RegSpec := [
  ⟨0x0000, 1, 1, 0x0, 0x0, 0x0, 0x0, 0x0⟩,
  ⟨0x0001, 1, 1, 0x0, 0x0, 0x0, 0x1, 0x0⟩]

/-- The registers of MCS (08 R188, 08 R201, 08 R205, 08 R206, 08 R207): MCSID, DIGEST, MCSERR, MRUN, DEC. -/
def regsMCS : List RegSpec := [
  ⟨0x0000, 1, 1, 0x0, 0x0, 0x0, 0x0, 0x0⟩,
  ⟨0x0001, 1, 4, 0x0, 0x0, 0x0, 0x0, 0x0⟩,
  ⟨0x0008, 1, 1, 0x0, 0x100000000, 0xFFFF000000000000, 0x0, 0x0⟩,
  ⟨0x0010, 1, 8, 0x0, 0x8000, 0x0, 0x0, 0x0⟩,
  ⟨0x0100, 1, 256, 0x0, 0x0, 0x0, 0x0, 0x0⟩]

/-- The registers of L2C (09 R223, 09 R233): L2CTL, L1CTL, L2ERR. -/
def regsL2C : List RegSpec := [
  ⟨0x0000, 1, 1, 0x30F01, 0x0, 0x0, 0x0, 0x0⟩,
  ⟨0x0008, 1, 8, 0x3, 0x0, 0x0, 0x0, 0x0⟩,
  ⟨0x0010, 1, 1, 0x0, 0xE00000000000, 0xFFFF000000000000, 0x0, 0x0⟩]

/-- The registers of L3C (09 R227, 09 R229, 09 R233): L3CTL, WMASK, L3ERR. -/
def regsL3C : List RegSpec := [
  ⟨0x0000, 1, 1, 0xE, 0x0, 0x0, 0x0, 0x11⟩,
  ⟨0x0008, 1, 5, 0xFFF0, 0x0, 0x0, 0x0, 0x0⟩,
  ⟨0x0010, 1, 1, 0x0, 0xE00000000000, 0xFFFF000000000000, 0x0, 0x0⟩]

/-- The registers of MEMC (09 R236, 09 R239, 09 R240, 09 R241): MCFG, SCRUB, MERR, MUEADDR, MINJ. -/
def regsMEMC : List RegSpec := [
  ⟨0x0000, 1, 1, 0x0, 0x0, 0x0, 0x0, 0x0⟩,
  ⟨0x0001, 1, 1, 0xFF01, 0x0, 0x0, 0x0, 0x0⟩,
  ⟨0x0002, 1, 1, 0x0, 0x800000000000, 0xFFFF0000FFFF0000, 0x0, 0x0⟩,
  ⟨0x0003, 1, 1, 0x0, 0x0, 0x0, 0x0, 0x0⟩,
  ⟨0x0004, 1, 1, 0x0, 0x0, 0x0, 0xFFFF00FFFFFFFFFF, 0x0⟩]

/-- The registers of SWP (10 R244, 10 R247, 10 R249, 10 R252, 10 R253, 10 R268, 10 R274, 10 R276, 10 R279): SWSTAT, SWERR, SWERRADDR, RQRY, RENT, HCFG, HTRIG, HSTAT, HCMD, HGEOM, FINQ, FINREG, FINSTAT, AREA. -/
def regsSWP : List RegSpec := [
  ⟨0x0000, 1, 1, 0x0, 0x0, 0x0, 0x0, 0x0⟩,
  ⟨0x0001, 1, 1, 0x0, 0x700000000, 0xFFFF000000000000, 0x0, 0x0⟩,
  ⟨0x0002, 1, 1, 0x0, 0x0, 0x0, 0x0, 0x0⟩,
  ⟨0x0008, 1, 1, 0x3FFFFF, 0x0, 0x0, 0x0, 0x0⟩,
  ⟨0x0009, 1, 1, 0x0, 0x0, 0x0, 0x0, 0x0⟩,
  ⟨0x0100, 16, 16, 0xF3, 0x0, 0x0, 0x0, 0x0⟩,
  ⟨0x0101, 16, 16, 0x3FFFFFFFFFFFF, 0x0, 0x0, 0x0, 0x0⟩,
  ⟨0x0102, 16, 16, 0x0, 0x0, 0x0, 0x0, 0x0⟩,
  ⟨0x0103, 16, 16, 0x0, 0x0, 0x0, 0x1, 0x0⟩,
  ⟨0x0104, 16, 16, 0x0, 0x0, 0x0, 0x0, 0x0⟩,
  ⟨0x0105, 16, 16, 0x1FFFFFFFF, 0x0, 0x0, 0x0, 0x0⟩,
  ⟨0x0106, 16, 16, 0x0, 0x0, 0x0, 0xFFFFFFFFFFFFFFFF, 0x0⟩,
  ⟨0x0107, 16, 16, 0x0, 0x7, 0x0, 0x0, 0x0⟩,
  ⟨0x0800, 1, 64, 0xF00000000000000, 0x0, 0x0, 0x1, 0x0⟩]

/-- The registers of DLR (11 R280, 11 R282, 11 R288, 11 R295, 11 R297): DSTAT, QRANGE, QPOOL, TUSE, QQRY, QINFO, QERR. -/
def regsDLR : List RegSpec := [
  ⟨0x0000, 1, 1, 0x0, 0x7, 0xFFFFFFFFFFFF0000, 0x0, 0x0⟩,
  ⟨0x0010, 1, 16, 0x0, 0x0, 0x0, 0x0, 0x0⟩,
  ⟨0x0020, 1, 16, 0x0, 0x0, 0x0, 0x0, 0x0⟩,
  ⟨0x0030, 1, 16, 0x0, 0x0, 0x0, 0x0, 0x0⟩,
  ⟨0x0040, 1, 1, 0xFFFF, 0x0, 0x0, 0x0, 0x0⟩,
  ⟨0x0041, 1, 1, 0x0, 0x0, 0x0, 0x0, 0x0⟩,
  ⟨0x0100, 1, 64, 0x0, 0x0, 0x0, 0x0, 0x0⟩]

/-- The registers of DMA (11 R299, 11 R300, 11 R301, 11 R310, 11 R311): ESTAT, CCFG, CHEAD, CCMD, CSTAT, CCUR, CRECS, CRECP, CRECA. -/
def regsDMA : List RegSpec := [
  ⟨0x0000, 1, 1, 0x0, 0x0, 0xFFFFFFFF00000000, 0x0, 0x0⟩,
  ⟨0x0100, 16, 16, 0x3FFFF0003FFFF, 0x0, 0x0, 0x0, 0x0⟩,
  ⟨0x0101, 16, 16, 0xFFF1FFFFFFFFFFFF, 0x0, 0x0, 0x0, 0x0⟩,
  ⟨0x0102, 16, 16, 0x0, 0x0, 0x0, 0x7, 0x0⟩,
  ⟨0x0103, 16, 16, 0x0, 0xC, 0x0, 0x0, 0x0⟩,
  ⟨0x0104, 16, 16, 0x0, 0x0, 0x0, 0x0, 0x0⟩,
  ⟨0x0108, 16, 16, 0x0, 0x0, 0x0, 0x0, 0x0⟩,
  ⟨0x0109, 16, 16, 0x0, 0x0, 0x0, 0x0, 0x0⟩,
  ⟨0x010A, 16, 16, 0x0, 0x0, 0x0, 0x0, 0x0⟩]

/-- The registers of MLD (12 R314, 12 R316, 12 R318, 12 R320, 12 R323, 12 R327, 12 R329, 12 R334, 12 R340): MLANES, MERR, NIQ, NCQ, NSRC, NCMD, NSTAT, NGEOM0, NGEOM1, NUSE, NCNT, NREC0, NREC1, NREC2, NREC3, NAGD. -/
def regsMLD : List RegSpec := [
  ⟨0x0000, 1, 1, 0x1F, 0x0, 0x0, 0x0, 0x0⟩,
  ⟨0x0001, 1, 1, 0x0, 0x5, 0xFFFFFFFF00000000, 0x0, 0x0⟩,
  ⟨0x0100, 16, 8, 0x1FFFFFFFF, 0x0, 0x0, 0x0, 0x0⟩,
  ⟨0x0101, 16, 8, 0x1FFFFFFFF, 0x0, 0x0, 0x0, 0x0⟩,
  ⟨0x0102, 16, 8, 0xFFF0FFFFFFFFFFFF, 0x0, 0x0, 0x0, 0x0⟩,
  ⟨0x0103, 16, 8, 0x0, 0x0, 0x0, 0x3F, 0x0⟩,
  ⟨0x0104, 16, 8, 0x0, 0x10, 0x0, 0x0, 0x0⟩,
  ⟨0x0105, 16, 8, 0x0, 0x0, 0x0, 0x0, 0x0⟩,
  ⟨0x0106, 16, 8, 0x0, 0x0, 0x0, 0x0, 0x0⟩,
  ⟨0x0107, 16, 8, 0x0, 0x0, 0x0, 0x0, 0x0⟩,
  ⟨0x0108, 16, 8, 0x0, 0x0, 0xFFFFFFFFFFFFFFFF, 0x0, 0x0⟩,
  ⟨0x0109, 16, 8, 0x0, 0x0, 0x0, 0x0, 0x0⟩,
  ⟨0x010A, 16, 8, 0x0, 0x0, 0x0, 0x0, 0x0⟩,
  ⟨0x010B, 16, 8, 0x0, 0x0, 0x0, 0x0, 0x0⟩,
  ⟨0x010C, 16, 8, 0x0, 0x0, 0x0, 0x0, 0x0⟩,
  ⟨0x0200, 1, 128, 0x1FFFFFFFF, 0x0, 0x0, 0x0, 0x0⟩]

/-- The registers of CGL (13 R347, 13 R348, 13 R353, 13 R356, 13 R362, 13 R365, 13 R367): NODECFG, CCTL, CSTAT, TIMENS, BGNT, BGSEQ, BGTIME, XRANGE, XQRY, XENT0, XENT1, RTQRY, RTENT. -/
def regsCGL : List RegSpec := [
  ⟨0x0000, 1, 1, 0x0, 0x0, 0x0, 0x0, 0x0⟩,
  ⟨0x0001, 1, 1, 0xFFFFF, 0x0, 0x0, 0x0, 0x64⟩,
  ⟨0x0002, 1, 1, 0x0, 0x1D, 0xFFFFFFFFFFFF0000, 0x0, 0x0⟩,
  ⟨0x0003, 1, 1, 0x0, 0x0, 0x0, 0x0, 0x0⟩,
  ⟨0x0008, 1, 3, 0x0, 0x0, 0x0, 0x0, 0x0⟩,
  ⟨0x000B, 1, 1, 0x0, 0x0, 0x0, 0x0, 0x0⟩,
  ⟨0x000C, 1, 1, 0x0, 0x0, 0x0, 0x0, 0x0⟩,
  ⟨0x0010, 1, 16, 0x0, 0x0, 0x0, 0x0, 0x0⟩,
  ⟨0x0020, 1, 1, 0xFFFFFF, 0x0, 0x0, 0x0, 0x0⟩,
  ⟨0x0021, 1, 1, 0x0, 0x0, 0x0, 0x0, 0x0⟩,
  ⟨0x0022, 1, 1, 0x0, 0x0, 0x0, 0x0, 0x0⟩,
  ⟨0x0030, 1, 1, 0x1FFF, 0x0, 0x0, 0x0, 0x0⟩,
  ⟨0x0031, 1, 1, 0x801FFFFFFFFFFFFF, 0x0, 0x0, 0x0, 0x0⟩]

/-- The registers of CGLP (13 R342, 13 R343, 13 R345): PCFG, PSTAT, PERR, PDELAY. -/
def regsCGLP : List RegSpec := [
  ⟨0x0000, 1, 1, 0x3, 0x0, 0x0, 0x0, 0x0⟩,
  ⟨0x0001, 1, 1, 0x0, 0x0, 0x0, 0x0, 0x0⟩,
  ⟨0x0002, 1, 1, 0x0, 0x1, 0xFFFFFFFFFFFF0000, 0x0, 0x0⟩,
  ⟨0x0003, 1, 1, 0x0, 0x0, 0x0, 0x0, 0x0⟩]

/-- The registers of INTC (07 R179, 07 R180, 07 R182): RAISE, SCFG, SMASK, SSTAT, CLAIM, EOI. -/
def regsINTC : List RegSpec := [
  ⟨0x0010, 1, 1, 0x0, 0x0, 0x0, 0x1FF, 0x0⟩,
  ⟨0x1000, 1, 512, 0xFC00FFFF0000FFFF, 0x0, 0x0, 0x0, 0x800000000000000⟩,
  ⟨0x1200, 1, 512, 0xFFFFFFFFFFFFFFFF, 0x0, 0x0, 0x0, 0x0⟩,
  ⟨0x1400, 1, 512, 0x0, 0xA00, 0xFFFF00000000, 0x0, 0x0⟩,
  ⟨0x4000, 1, 512, 0x0, 0x0, 0x81FF, 0x0, 0x0⟩,
  ⟨0x4200, 1, 64, 0x0, 0x0, 0x0, 0x1FF, 0x0⟩]

/-- The registers of STK (14 R368, 14 R369, 14 R370, 14 R371, 14 R372, 14 R373, 14 R374, 14 R375, 14 R376, 14 R379, 14 R381, 14 R393): SCTL, SSTAT, ZCCFG, ZCSTAT, FLOOR, MCAP, MFLOOR, ALLOW, USE, DEMP, MSTAT, MNODE, PLAN, RBERR, GCTL, CHCFG, PRATED, IRATED, DEM, CHSTAT. -/
def regsSTK : List RegSpec := [
  ⟨0x0000, 1, 1, 0x3FFFFFFFFFF, 0x0, 0x0, 0x0, 0x0⟩,
  ⟨0x0001, 1, 1, 0x0, 0xFF, 0xFFFFFFFF00000000, 0x0, 0x0⟩,
  ⟨0x0004, 1, 3, 0xFFFF0007, 0x0, 0x0, 0x0, 0x0⟩,
  ⟨0x0008, 1, 3, 0x0, 0x0, 0x0, 0x0, 0x0⟩,
  ⟨0x0010, 1, 3, 0xFFFFFFFFFFFFFFFF, 0x0, 0x0, 0x0, 0x0⟩,
  ⟨0x0014, 1, 3, 0xFFFFFFFFFFFFFFFF, 0x0, 0x0, 0x0, 0x0⟩,
  ⟨0x0018, 1, 3, 0xFFFFFFFFFFFFFFFF, 0x0, 0x0, 0x0, 0x0⟩,
  ⟨0x001C, 1, 3, 0x0, 0x0, 0x0, 0x0, 0x0⟩,
  ⟨0x0020, 1, 3, 0x0, 0x0, 0x0, 0x0, 0x0⟩,
  ⟨0x0024, 1, 3, 0x0, 0x0, 0x0, 0x0, 0x0⟩,
  ⟨0x0028, 1, 1, 0x0, 0x0, 0x0, 0x0, 0x0⟩,
  ⟨0x0040, 1, 64, 0x1FFF, 0x0, 0x0, 0x0, 0x0⟩,
  ⟨0x0080, 1, 4, 0x0, 0x0, 0x0, 0x0, 0x0⟩,
  ⟨0x0084, 1, 4, 0x0, 0xFFFFFFFFFFFFFFFF, 0x0, 0x0, 0x0⟩,
  ⟨0x0090, 1, 8, 0x0, 0x300, 0x0, 0xFFFF000000000003, 0x0⟩,
  ⟨0x1000, 8, 256, 0xFFFF0100, 0x0, 0x0, 0x0, 0x0⟩,
  ⟨0x1001, 8, 256, 0xFFFFFFFFFFFFFFFF, 0x0, 0x0, 0x0, 0x0⟩,
  ⟨0x1002, 8, 256, 0xFFFFFFFFFFFFFFFF, 0x0, 0x0, 0x0, 0x0⟩,
  ⟨0x1003, 8, 256, 0xFFFFFFFFFFFFFFFF, 0x0, 0x0, 0x0, 0x0⟩,
  ⟨0x1004, 8, 256, 0x0, 0x0, 0x0, 0x0, 0xFF000000000000⟩]

/-- The registers of SNS (14 R384, 14 R385, 14 R386, 14 R387, 14 R388, 14 R389, 14 R390): SPCFG, PSTAT, STAB, CFRAME, CCMD, CFAULT, CPLAUS, SCALE, OFFSET, LO, HI, RATE, DB, CRING, CMQ, CFACT, CSTAT, CVAL, CTIME. -/
def regsSNS : List RegSpec := [
  ⟨0x0000, 1, 8, 0xFFFF00, 0x0, 0x0, 0x0, 0x0⟩,
  ⟨0x0008, 1, 8, 0x0, 0x0, 0xFFFF000000000000, 0x0, 0x0⟩,
  ⟨0x0100, 1, 2048, 0xFFFFFFFFFFFFFFFF, 0x0, 0x0, 0x0, 0x0⟩,
  ⟨0x1000, 16, 512, 0xFFFFFFFFFFFFC000, 0x0, 0x0, 0x0, 0x0⟩,
  ⟨0x1001, 16, 512, 0xFFFFFFFF, 0x0, 0x0, 0x0, 0x0⟩,
  ⟨0x1002, 16, 512, 0xFFFFFFFFFFFFFFFF, 0x0, 0x0, 0x0, 0x0⟩,
  ⟨0x1003, 16, 512, 0xFF, 0x0, 0x0, 0x0, 0x0⟩,
  ⟨0x1004, 16, 512, 0xFFFFFFFFFFFFFFFF, 0x0, 0x0, 0x0, 0x0⟩,
  ⟨0x1005, 16, 512, 0xFFFFFFFFFFFFFFFF, 0x0, 0x0, 0x0, 0x0⟩,
  ⟨0x1006, 16, 512, 0xFFFFFFFFFFFFFFFF, 0x0, 0x0, 0x0, 0x0⟩,
  ⟨0x1007, 16, 512, 0xFFFFFFFFFFFFFFFF, 0x0, 0x0, 0x0, 0x0⟩,
  ⟨0x1008, 16, 512, 0xFFFFFFFFFFFFFFFF, 0x0, 0x0, 0x0, 0x0⟩,
  ⟨0x1009, 16, 512, 0xFFFFFFFFFFFFFFFF, 0x0, 0x0, 0x0, 0x0⟩,
  ⟨0x100A, 16, 512, 0xFFFFFFFFFFFFFFFF, 0x0, 0x0, 0x0, 0x0⟩,
  ⟨0x100B, 16, 512, 0x701FFFFFFFF, 0x0, 0x0, 0x0, 0x0⟩,
  ⟨0x100C, 16, 512, 0xFFFFFFFFFFFFFFFF, 0x0, 0x0, 0x0, 0x0⟩,
  ⟨0x100D, 16, 512, 0x0, 0xC, 0x0, 0x2, 0x0⟩,
  ⟨0x100E, 16, 512, 0x0, 0x0, 0x0, 0x0, 0x0⟩,
  ⟨0x100F, 16, 512, 0x0, 0x0, 0x0, 0x0, 0x0⟩]

/-- The registers of PWM (14 R382, 14 R383): PWCFG, PWPER, PWDUTY, ENCCFG, ENCPOS, ENCIDX, ENCCMP, ENCSTAT. -/
def regsPWM : List RegSpec := [
  ⟨0x0000, 4, 32, 0x77, 0x0, 0x0, 0x0, 0x0⟩,
  ⟨0x0001, 4, 32, 0xFFFFFFFF, 0x0, 0x0, 0x0, 0x0⟩,
  ⟨0x0002, 4, 32, 0xFFFFFFFF, 0x0, 0x0, 0x0, 0x0⟩,
  ⟨0x0100, 8, 8, 0xFF07, 0x0, 0x0, 0x0, 0x0⟩,
  ⟨0x0101, 8, 8, 0xFFFFFFFFFFFFFFFF, 0x0, 0x0, 0x0, 0x0⟩,
  ⟨0x0102, 8, 8, 0x0, 0x0, 0x0, 0x0, 0x0⟩,
  ⟨0x0103, 8, 8, 0xFFFFFFFFFFFFFFFF, 0x0, 0x0, 0x0, 0x0⟩,
  ⟨0x0104, 8, 8, 0x0, 0x3, 0xFFFF000000000000, 0x0, 0x0⟩]

/-- The registers of HKA (14 R391): HCTL, HRAW, HRES, HLIM. -/
def regsHKA : List RegSpec := [
  ⟨0x0000, 1, 1, 0x1FFFF, 0x0, 0x0, 0x0, 0x0⟩,
  ⟨0x0010, 1, 16, 0x0, 0x0, 0x0, 0x0, 0x0⟩,
  ⟨0x0020, 1, 16, 0x0, 0x0, 0x0, 0x0, 0x0⟩,
  ⟨0x0030, 1, 16, 0xFFF0FFF0010, 0x1, 0x0, 0x0, 0x0⟩]

/-- The registers of ETH (15 R402, 15 R405): MACADDR, RXCFG, MCF, PCPMAP, PTPNS, PTPADJ, PTPSTEP, TGT, TXTSQ, TXTS, QAVSLOPE, GCLCTL, GCLCYCLE, GCLBASE, GCLSH, GCLACT. -/
def regsETH : List RegSpec := regsPER ++ [
  ⟨0x0100, 1, 1, 0xFFFFFFFFFFFF, 0x0, 0x0, 0x0, 0x0⟩,
  ⟨0x0101, 1, 1, 0x7, 0x0, 0x0, 0x0, 0x0⟩,
  ⟨0x0108, 1, 16, 0x8000FFFFFFFFFFFF, 0x0, 0x0, 0x0, 0x0⟩,
  ⟨0x0118, 1, 1, 0xFFFFFF, 0x0, 0x0, 0x0, 0xFAC688⟩,
  ⟨0x0120, 1, 1, 0xFFFFFFFFFFFFFFFF, 0x0, 0x0, 0x0, 0x0⟩,
  ⟨0x0121, 1, 1, 0xFFFFFFFF, 0x0, 0x0, 0x0, 0x0⟩,
  ⟨0x0122, 1, 1, 0x0, 0x0, 0x0, 0xFFFFFFFFFFFFFFFF, 0x0⟩,
  ⟨0x0123, 1, 1, 0xFFFFFFFFFFFFFFFF, 0x0, 0x0, 0x0, 0x0⟩,
  ⟨0x0124, 1, 1, 0xFFFF, 0x0, 0x0, 0x0, 0x0⟩,
  ⟨0x0125, 1, 1, 0x0, 0x0, 0x0, 0x0, 0x0⟩,
  ⟨0x0128, 1, 2, 0xFFFFFFFF, 0x0, 0x0, 0x0, 0x0⟩,
  ⟨0x0130, 1, 1, 0xFF0000, 0x0, 0x0, 0x2, 0x0⟩,
  ⟨0x0131, 1, 1, 0xFFFFFFFF, 0x0, 0x0, 0x0, 0x0⟩,
  ⟨0x0132, 1, 1, 0xFFFFFFFFFFFFFFFF, 0x0, 0x0, 0x0, 0x0⟩,
  ⟨0x0200, 1, 128, 0xFFFFFFFF000000FF, 0x0, 0x0, 0x0, 0x0⟩,
  ⟨0x0300, 1, 128, 0x0, 0x0, 0x0, 0x0, 0x0⟩]

/-- The registers of USB (15 R405): USBMAC, USBID, USBFRM, USBSTAT. -/
def regsUSB : List RegSpec := regsPER ++ [
  ⟨0x0100, 1, 1, 0xFFFFFFFFFFFF, 0x0, 0x0, 0x0, 0x0⟩,
  ⟨0x0101, 1, 1, 0x0, 0x0, 0x0, 0x0, 0x0⟩,
  ⟨0x0102, 1, 1, 0x0, 0x0, 0x0, 0x0, 0x0⟩,
  ⟨0x0103, 1, 1, 0x0, 0x0, 0x0, 0x0, 0x0⟩]

/-- The registers of CAN (15 R405): CANNBT, CANDBT, CANERR, CANFLT. -/
def regsCAN : List RegSpec := regsPER ++ [
  ⟨0x0100, 1, 1, 0xFFFFFFFF, 0x0, 0x0, 0x0, 0x0⟩,
  ⟨0x0101, 1, 1, 0xFFFF1F1F, 0x0, 0x0, 0x0, 0x0⟩,
  ⟨0x0102, 1, 1, 0x0, 0x0, 0x0, 0x0, 0x0⟩,
  ⟨0x0140, 1, 64, 0xDFFFFFFF1FFFFFFF, 0x0, 0x0, 0x0, 0x0⟩]

/-- The registers of UART (15 R405): UDIV, UFMT. -/
def regsUART : List RegSpec := regsPER ++ [
  ⟨0x0100, 1, 1, 0xFFFF, 0x0, 0x0, 0x0, 0x1B20⟩,
  ⟨0x0101, 1, 1, 0x7F, 0x0, 0x0, 0x0, 0x8⟩]

/-- The registers of I2C (15 R405): I2CCFG, I2CCMD, I2CSTAT. -/
def regsI2C : List RegSpec := regsPER ++ [
  ⟨0x0100, 1, 1, 0x7FF0003, 0x0, 0x0, 0x0, 0x0⟩,
  ⟨0x0101, 1, 1, 0x0, 0x0, 0x0, 0x3FFF0FFF, 0x0⟩,
  ⟨0x0102, 1, 1, 0x0, 0x0, 0x0, 0x0, 0x0⟩]

/-- The registers of PMB (15 R403): PMBCREG, PMBCMD, PMBDATA, PMBSTAT. -/
def regsPMB : List RegSpec := regsPER ++ [
  ⟨0x0100, 1, 1, 0x0, 0x0, 0x0, 0x0, 0x0⟩,
  ⟨0x0101, 1, 1, 0x0, 0x0, 0x0, 0x87FFFF7F, 0x0⟩,
  ⟨0x0102, 1, 1, 0xFFFF, 0x0, 0x0, 0x0, 0x0⟩,
  ⟨0x0103, 1, 1, 0x0, 0x0, 0x0, 0x0, 0x0⟩]

/-- The registers of XSPI (15 R405): XOP, XADDR, XLEN, XFSTAT. -/
def regsXSPI : List RegSpec := regsPER ++ [
  ⟨0x0100, 1, 1, 0x9F07FFFF, 0x0, 0x0, 0x0, 0x0⟩,
  ⟨0x0101, 1, 1, 0xFFFFFFFF, 0x0, 0x0, 0x0, 0x0⟩,
  ⟨0x0102, 1, 1, 0xFFFFFFFF, 0x0, 0x0, 0x8000000000000000, 0x0⟩,
  ⟨0x0103, 1, 1, 0x0, 0x0, 0x0, 0x0, 0x0⟩]

/-- The registers of GPIO (15 R404): GPSET, GPCLR, GPCFG. -/
def regsGPIO : List RegSpec := [
  ⟨0x0000, 1, 3, 0x0, 0x0, 0x0, 0xFFFFFFFF, 0x0⟩,
  ⟨0x0004, 1, 3, 0x0, 0x0, 0x0, 0xFFFFFFFF, 0x0⟩,
  ⟨0x0100, 1, 96, 0xFF60, 0x0, 0x0, 0x0, 0x0⟩]

/-- The registers of HRTH (16 R409, 16 R410, 16 R418, 16 R421, 16 R422, 16 R423, 16 R424, 16 R426, 16 R428): HSTATE, HPWR, HWAKE, HWSRC, RTC, RTCALM, SMSTAT, SMLIM, HRSTC, HRESET, HBOOT, HLOGPTR. -/
def regsHRTH : List RegSpec := [
  ⟨0x0000, 1, 1, 0x0, 0x0, 0x0, 0x0, 0x0⟩,
  ⟨0x0001, 1, 1, 0x0, 0x0, 0x0, 0xFFFF000000000003, 0x0⟩,
  ⟨0x0002, 1, 1, 0x6FFFF, 0x0, 0x0, 0x0, 0x0⟩,
  ⟨0x0003, 1, 1, 0x0, 0x7FF, 0x0, 0x0, 0x0⟩,
  ⟨0x0008, 1, 1, 0xFFFFFFFFFFFFFFFF, 0x0, 0x0, 0x0, 0x0⟩,
  ⟨0x0009, 1, 1, 0xFFFFFFFFFFFFFFFF, 0x0, 0x0, 0x0, 0x0⟩,
  ⟨0x0010, 1, 1, 0x0, 0x3FF003, 0x0, 0x0, 0x0⟩,
  ⟨0x0028, 1, 10, 0x0, 0x0, 0x0, 0x0, 0x0⟩,
  ⟨0x0020, 1, 1, 0x0, 0x0, 0x0, 0x0, 0x1⟩,
  ⟨0x0021, 1, 1, 0x0, 0x0, 0x0, 0xFFFF00000000003F, 0x0⟩,
  ⟨0x0022, 1, 1, 0x1, 0x0, 0x0, 0x0, 0x0⟩,
  ⟨0x0023, 1, 1, 0x0, 0x0, 0x0, 0x0, 0x0⟩]

/-- The registers of DMPR (16 R411, 16 R412, 16 R413, 16 R414): DSTAT, DSHED, DSHOFF, DCORE, DIO, DREEN. -/
def regsDMPR : List RegSpec := [
  ⟨0x0000, 1, 5, 0x0, 0x0, 0x0, 0x0, 0x0⟩,
  ⟨0x0008, 1, 5, 0x0, 0x0, 0x0, 0x0, 0x0⟩,
  ⟨0x0010, 1, 5, 0x0, 0x0, 0x0, 0x0, 0x0⟩,
  ⟨0x0018, 1, 1, 0xFFFFFFFFFFFFFFFF, 0x0, 0x0, 0x0, 0x0⟩,
  ⟨0x0019, 1, 1, 0x7F, 0x0, 0x0, 0x0, 0x0⟩,
  ⟨0x001A, 1, 1, 0x0, 0x0, 0x0, 0x1, 0x0⟩]

/-- The registers of CLK (16 R415, 16 R416, 16 R417): OPP, PLLSTAT, TGCFG, TGSTAT. -/
def regsCLK : List RegSpec := [
  ⟨0x0000, 1, 1, 0x3, 0x0, 0x0, 0x0, 0x211⟩,
  ⟨0x0001, 1, 1, 0x0, 0x0, 0x0, 0x0, 0x0⟩,
  ⟨0x0002, 1, 1, 0xFFFFFFFFFFC000, 0x0, 0x0, 0x0, 0x7F8DD8B794C000⟩,
  ⟨0x0003, 1, 1, 0x0, 0x20000, 0xFFFF000000000000, 0x0, 0x0⟩]

/-- The registers of SAFE (18 R452, 18 R455, 18 R459, 18 R460, 18 R461, 18 R463, 18 R464, 18 R465, 18 R467, 18 R470): SLOCK, FREC0, FREC1, FPEND, LSREC, SWDCFG, SWDKICK, SWDSTAT, SWFLT, GPSAFE, GPSLVL, TWCFG, TWKICK, FCFG. -/
def regsSAFE : List RegSpec := [
  ⟨0x0000, 1, 1, 0x1, 0x0, 0x0, 0x0, 0x0⟩,
  ⟨0x0001, 1, 1, 0x0, 0x0, 0x0, 0x0, 0x0⟩,
  ⟨0x0002, 1, 1, 0x0, 0x0, 0x0, 0x0, 0x0⟩,
  ⟨0x0008, 1, 4, 0x0, 0xFFFFFFFFFFFFFFFF, 0x0, 0x0, 0x0⟩,
  ⟨0x0010, 1, 8, 0x0, 0x0, 0x0, 0x0, 0x0⟩,
  ⟨0x0020, 1, 1, 0x8F0000003FFF3FFF, 0x0, 0x0, 0x0, 0x0⟩,
  ⟨0x0021, 1, 1, 0x0, 0x0, 0x0, 0xFFFF, 0x0⟩,
  ⟨0x0022, 1, 1, 0x0, 0x0, 0x0, 0x0, 0x0⟩,
  ⟨0x0023, 1, 1, 0x0, 0x0, 0x0, 0xFF, 0x0⟩,
  ⟨0x0028, 1, 3, 0xFFFFFFFF, 0x0, 0x0, 0x0, 0x0⟩,
  ⟨0x002C, 1, 3, 0xFFFFFFFF, 0x0, 0x0, 0x0, 0x0⟩,
  ⟨0x0040, 1, 16, 0xC000000000FFFFFF, 0x2000000000000000, 0x0, 0x0, 0x0⟩,
  ⟨0x0050, 1, 16, 0x0, 0x0, 0x0, 0xFFFFFFFFFFFFFFFF, 0x0⟩,
  ⟨0x0100, 1, 256, 0xFF0F0007, 0x0, 0x0, 0x0, 0x0⟩]

/-- The registers of SEC (19 R471, 19 R474, 19 R477, 19 R478, 19 R483): SECSTAT, SIN, SINEND, SOUT, SOUTLEN, SCTL, OTPSTAT, LOCKF. -/
def regsSEC : List RegSpec := [
  ⟨0x0000, 1, 1, 0x0, 0x80, 0x0, 0x0, 0x0⟩,
  ⟨0x0008, 1, 1, 0x0, 0x0, 0x0, 0xFFFFFFFFFFFFFFFF, 0x0⟩,
  ⟨0x0009, 1, 1, 0x0, 0x0, 0x0, 0x1FFFFF, 0x0⟩,
  ⟨0x0010, 1, 1, 0x0, 0x0, 0xFFFFFFFFFFFFFFFF, 0x0, 0x0⟩,
  ⟨0x0011, 1, 1, 0x0, 0x0, 0x0, 0x0, 0x0⟩,
  ⟨0x0018, 1, 1, 0x0, 0x0, 0x0, 0x1, 0x0⟩,
  ⟨0x0020, 1, 1, 0x0, 0x0, 0x0, 0x0, 0x0⟩,
  ⟨0x0028, 1, 4, 0x0, 0x0, 0x0, 0x0, 0x0⟩]

/-- The registers of DBG (20 R485, 20 R488, 20 R489, 20 R492, 20 R496): DBGCTL, DBGSTAT, DHIT, RSEL, RDAT, CMPCTL, CMPADDR, CMPVAL, CMPVMSK, CNTSEL, CNTVAL. -/
def regsDBG : List RegSpec := [
  ⟨0x0000, 1, 1, 0x19, 0x0, 0x0, 0x2, 0x0⟩,
  ⟨0x0001, 1, 1, 0x0, 0x8, 0x0, 0x0, 0x0⟩,
  ⟨0x0002, 1, 1, 0x0, 0xFF00, 0x0, 0x0, 0x0⟩,
  ⟨0x0003, 1, 1, 0xFFF, 0x0, 0x0, 0x0, 0x0⟩,
  ⟨0x0004, 1, 1, 0x0, 0x0, 0x0, 0x0, 0x0⟩,
  ⟨0x0010, 4, 8, 0xC0FFBFC7, 0x0, 0x0, 0x0, 0x0⟩,
  ⟨0x0011, 4, 8, 0xFFFFFFFFFF, 0x0, 0x0, 0x0, 0x0⟩,
  ⟨0x0012, 4, 8, 0xFFFFFFFFFFFFFFFF, 0x0, 0x0, 0x0, 0x0⟩,
  ⟨0x0013, 4, 8, 0xFFFFFFFFFFFFFFFF, 0x0, 0x0, 0x0, 0x0⟩,
  ⟨0x0040, 2, 8, 0xC3FF00FF, 0x20000000, 0x0, 0x0, 0x0⟩,
  ⟨0x0041, 2, 8, 0xFFFFFFFFFFFF, 0x0, 0x0, 0x0, 0x0⟩]

/-- The registers of TRC (20 R495): TRCCTL, TRCSTAT, TRCMARK, TRCBUF. -/
def regsTRC : List RegSpec := [
  ⟨0x0000, 1, 1, 0xFCFE0007, 0x0, 0x0, 0x0, 0x0⟩,
  ⟨0x0001, 1, 1, 0x0, 0x4, 0xFFFF000000000000, 0x0, 0x0⟩,
  ⟨0x0002, 1, 1, 0x0, 0x0, 0x0, 0xFFFFFFFFFFFFFFFF, 0x0⟩,
  ⟨0x8000, 1, 32768, 0x0, 0x0, 0x0, 0x0, 0x0⟩]

/-- The registers of CNTC (20 R496): CNTSEL, CNTVAL. -/
def regsCNTC : List RegSpec := [
  ⟨0x0000, 2, 8, 0xC0003FFF, 0x20000000, 0x0, 0x0, 0x0⟩,
  ⟨0x0001, 2, 8, 0xFFFFFFFFFFFF, 0x0, 0x0, 0x0, 0x0⟩]

/-- The registers of CNTU (20 R496): CNTSEL, CNTVAL. -/
def regsCNTU : List RegSpec := [
  ⟨0x0000, 2, 32, 0xC0003FFF, 0x20000000, 0x0, 0x0, 0x0⟩,
  ⟨0x0001, 2, 32, 0xFFFFFFFFFFFF, 0x0, 0x0, 0x0, 0x0⟩]

/-- The registers of a block. -/
def Blk.regs : Blk → List RegSpec
  | .bSYS => regsSYS
  | .bCORE => regsCORE
  | .bMCS => regsMCS
  | .bL2C => regsL2C
  | .bL3C => regsL3C
  | .bMEMC => regsMEMC
  | .bSWP => regsSWP
  | .bDLR => regsDLR
  | .bDMA => regsDMA
  | .bMLD => regsMLD
  | .bCGL => regsCGL
  | .bCGLP => regsCGLP
  | .bINTC => regsINTC
  | .bSTK => regsSTK
  | .bSNS => regsSNS
  | .bPWM => regsPWM
  | .bHKA => regsHKA
  | .bETH => regsETH
  | .bUSB => regsUSB
  | .bCAN => regsCAN
  | .bUART => regsUART
  | .bI2C => regsI2C
  | .bPMB => regsPMB
  | .bXSPI => regsXSPI
  | .bGPIO => regsGPIO
  | .bHRTH => regsHRTH
  | .bDMPR => regsDMPR
  | .bCLK => regsCLK
  | .bSAFE => regsSAFE
  | .bSEC => regsSEC
  | .bDBG => regsDBG
  | .bTRC => regsTRC
  | .bCNTC => regsCNTC
  | .bCNTU => regsCNTU

/-- The register that an offset of a block names, with the copy's number. -/
def findReg : List RegSpec → Nat → Option (RegSpec × Nat)
  | [], _ => none
  | r :: t, off =>
    if r.off ≤ off ∧ (off - r.off) % r.stride = 0 ∧ (off - r.off) / r.stride < r.count then some (r, (off - r.off) / r.stride)
    else findReg t off

/-- The block, instance and offset of an I/O address (R21, R22); none outside every instance (R20). -/
def findBlk (pa : Nat) : Option (Blk × Nat × Nat) :=
  match Blk.all.find? (fun b => let (base, n, st) := b.geom; decide (base ≤ pa) && decide (pa < base + n * st)) with
  | none => none
  | some b => let (base, _, st) := b.geom; some (b, (pa - base) / st, (pa - base) % st)

/-- The register at an address, with block, instance and copy number. -/
def regAt (pa : Nat) : Option (Blk × Nat × RegSpec × Nat) :=
  match findBlk pa with
  | none => none
  | some (b, i, off) => match findReg b.regs off with | none => none | some (r, k) => some (b, i, r, k)

/-- FCFG of fault input i by Table 18-1: ACT in 2:0, FLOOR in 10:8, PART in 19:16, GMASK in 31:24. The groups that a partition owns are
added when the image gives them. -/
def fcfgReset (i : Nat) : W64 :=
  let f := fun (act floor part mask : Nat) => putFld 2 0 act ||| putFld 10 8 floor ||| putFld 19 16 part ||| putFld 31 24 mask
  if i < 8 then f 4 3 0 0
  else if i < 16 then f 4 0 0 0
  else if i < 78 then f 1 0 0 0
  else if i = 78 then f 3 0 0 0xFF
  else if i < 80 then 0#64
  else if i < 88 then f 3 3 0 (2 ^ (i - 80))
  else if i < 112 then f 1 0 0 0
  else if i < 144 then f 3 3 (i % 16) 0
  else if i < 160 then f 1 0 (i % 16) 0
  else if i < 165 then f 5 3 0 0xFF
  else if i < 168 then 0#64
  else if i < 176 then f 1 1 0 0
  else if i < 224 then 0#64
  else f 1 0 ((i - 224) / 2) 0

/-- The reset value of the register at an address; zero at an undefined offset (R21). The identity fields CINFO.CORE, CHCFG.CH and
CFRAME.CH hold the number of their copy. -/
def regReset (pa : Nat) : W64 :=
  match regAt pa with
  | none => 0#64
  | some (.bCORE, i, ⟨0, _, _, _, _, _, _, _⟩, _) => n64 i
  | some (.bSTK, _, ⟨0x1000, _, _, _, _, _, _, r⟩, k) => r ||| n64 k
  | some (.bSNS, _, ⟨0x1000, _, _, _, _, _, _, r⟩, k) => r ||| n64 k
  | some (.bSAFE, _, ⟨0x0100, _, _, _, _, _, _, _⟩, k) => fcfgReset k
  | some (_, _, r, _) => r.reset

/-! Addresses of the registers, by block and name. -/
namespace Reg

def SYS_IDREV : Nat := 0xFF00000000
def SYS_SELF : Nat := 0xFF00000001
def SYS_STAT : Nat := 0xFF00000002
def SYS_OFFADDR : Nat := 0xFF00000003
def CORE_CINFO (i : Nat) : Nat := 0xFF00100000 + 0x1000 * i
def CORE_DCINV (i : Nat) : Nat := 0xFF00100001 + 0x1000 * i
def MCS_MCSID (i : Nat) : Nat := 0xFF00200000 + 0x1000 * i
def MCS_DIGEST (i k : Nat) : Nat := 0xFF00200001 + 0x1000 * i + 1 * k
def MCS_MCSERR (i : Nat) : Nat := 0xFF00200008 + 0x1000 * i
def MCS_MRUN (i k : Nat) : Nat := 0xFF00200010 + 0x1000 * i + 1 * k
def MCS_DEC (i k : Nat) : Nat := 0xFF00200100 + 0x1000 * i + 1 * k
def L2C_L2CTL (i : Nat) : Nat := 0xFF00210000 + 0x1000 * i
def L2C_L1CTL (i k : Nat) : Nat := 0xFF00210008 + 0x1000 * i + 1 * k
def L2C_L2ERR (i : Nat) : Nat := 0xFF00210010 + 0x1000 * i
def L3C_L3CTL (i : Nat) : Nat := 0xFF00300000 + 0x1000 * i
def L3C_WMASK (i k : Nat) : Nat := 0xFF00300008 + 0x1000 * i + 1 * k
def L3C_L3ERR (i : Nat) : Nat := 0xFF00300010 + 0x1000 * i
def MEMC_MCFG (i : Nat) : Nat := 0xFF00400000 + 0x10000 * i
def MEMC_SCRUB (i : Nat) : Nat := 0xFF00400001 + 0x10000 * i
def MEMC_MERR (i : Nat) : Nat := 0xFF00400002 + 0x10000 * i
def MEMC_MUEADDR (i : Nat) : Nat := 0xFF00400003 + 0x10000 * i
def MEMC_MINJ (i : Nat) : Nat := 0xFF00400004 + 0x10000 * i
def SWP_SWSTAT : Nat := 0xFF00500000
def SWP_SWERR : Nat := 0xFF00500001
def SWP_SWERRADDR : Nat := 0xFF00500002
def SWP_RQRY : Nat := 0xFF00500008
def SWP_RENT : Nat := 0xFF00500009
def SWP_HCFG (k : Nat) : Nat := 0xFF00500100 + 16 * k
def SWP_HTRIG (k : Nat) : Nat := 0xFF00500101 + 16 * k
def SWP_HSTAT (k : Nat) : Nat := 0xFF00500102 + 16 * k
def SWP_HCMD (k : Nat) : Nat := 0xFF00500103 + 16 * k
def SWP_HGEOM (k : Nat) : Nat := 0xFF00500104 + 16 * k
def SWP_FINQ (k : Nat) : Nat := 0xFF00500105 + 16 * k
def SWP_FINREG (k : Nat) : Nat := 0xFF00500106 + 16 * k
def SWP_FINSTAT (k : Nat) : Nat := 0xFF00500107 + 16 * k
def SWP_AREA (k : Nat) : Nat := 0xFF00500800 + 1 * k
def DLR_DSTAT : Nat := 0xFF00600000
def DLR_QRANGE (k : Nat) : Nat := 0xFF00600010 + 1 * k
def DLR_QPOOL (k : Nat) : Nat := 0xFF00600020 + 1 * k
def DLR_TUSE (k : Nat) : Nat := 0xFF00600030 + 1 * k
def DLR_QQRY : Nat := 0xFF00600040
def DLR_QINFO : Nat := 0xFF00600041
def DLR_QERR (k : Nat) : Nat := 0xFF00600100 + 1 * k
def DMA_ESTAT (i : Nat) : Nat := 0xFF00700000 + 0x10000 * i
def DMA_CCFG (i k : Nat) : Nat := 0xFF00700100 + 0x10000 * i + 16 * k
def DMA_CHEAD (i k : Nat) : Nat := 0xFF00700101 + 0x10000 * i + 16 * k
def DMA_CCMD (i k : Nat) : Nat := 0xFF00700102 + 0x10000 * i + 16 * k
def DMA_CSTAT (i k : Nat) : Nat := 0xFF00700103 + 0x10000 * i + 16 * k
def DMA_CCUR (i k : Nat) : Nat := 0xFF00700104 + 0x10000 * i + 16 * k
def DMA_CRECS (i k : Nat) : Nat := 0xFF00700108 + 0x10000 * i + 16 * k
def DMA_CRECP (i k : Nat) : Nat := 0xFF00700109 + 0x10000 * i + 16 * k
def DMA_CRECA (i k : Nat) : Nat := 0xFF0070010A + 0x10000 * i + 16 * k
def MLD_MLANES : Nat := 0xFF00800000
def MLD_MERR : Nat := 0xFF00800001
def MLD_NIQ (k : Nat) : Nat := 0xFF00800100 + 16 * k
def MLD_NCQ (k : Nat) : Nat := 0xFF00800101 + 16 * k
def MLD_NSRC (k : Nat) : Nat := 0xFF00800102 + 16 * k
def MLD_NCMD (k : Nat) : Nat := 0xFF00800103 + 16 * k
def MLD_NSTAT (k : Nat) : Nat := 0xFF00800104 + 16 * k
def MLD_NGEOM0 (k : Nat) : Nat := 0xFF00800105 + 16 * k
def MLD_NGEOM1 (k : Nat) : Nat := 0xFF00800106 + 16 * k
def MLD_NUSE (k : Nat) : Nat := 0xFF00800107 + 16 * k
def MLD_NCNT (k : Nat) : Nat := 0xFF00800108 + 16 * k
def MLD_NREC0 (k : Nat) : Nat := 0xFF00800109 + 16 * k
def MLD_NREC1 (k : Nat) : Nat := 0xFF0080010A + 16 * k
def MLD_NREC2 (k : Nat) : Nat := 0xFF0080010B + 16 * k
def MLD_NREC3 (k : Nat) : Nat := 0xFF0080010C + 16 * k
def MLD_NAGD (k : Nat) : Nat := 0xFF00800200 + 1 * k
def CGL_NODECFG : Nat := 0xFF00900000
def CGL_CCTL : Nat := 0xFF00900001
def CGL_CSTAT : Nat := 0xFF00900002
def CGL_TIMENS : Nat := 0xFF00900003
def CGL_BGNT (k : Nat) : Nat := 0xFF00900008 + 1 * k
def CGL_BGSEQ : Nat := 0xFF0090000B
def CGL_BGTIME : Nat := 0xFF0090000C
def CGL_XRANGE (k : Nat) : Nat := 0xFF00900010 + 1 * k
def CGL_XQRY : Nat := 0xFF00900020
def CGL_XENT0 : Nat := 0xFF00900021
def CGL_XENT1 : Nat := 0xFF00900022
def CGL_RTQRY : Nat := 0xFF00900030
def CGL_RTENT : Nat := 0xFF00900031
def CGLP_PCFG (i : Nat) : Nat := 0xFF00910000 + 0x1000 * i
def CGLP_PSTAT (i : Nat) : Nat := 0xFF00910001 + 0x1000 * i
def CGLP_PERR (i : Nat) : Nat := 0xFF00910002 + 0x1000 * i
def CGLP_PDELAY (i : Nat) : Nat := 0xFF00910003 + 0x1000 * i
def INTC_RAISE : Nat := 0xFF00A00010
def INTC_SCFG (k : Nat) : Nat := 0xFF00A01000 + 1 * k
def INTC_SMASK (k : Nat) : Nat := 0xFF00A01200 + 1 * k
def INTC_SSTAT (k : Nat) : Nat := 0xFF00A01400 + 1 * k
def INTC_CLAIM (k : Nat) : Nat := 0xFF00A04000 + 1 * k
def INTC_EOI (k : Nat) : Nat := 0xFF00A04200 + 1 * k
def STK_SCTL : Nat := 0xFF00B00000
def STK_SSTAT : Nat := 0xFF00B00001
def STK_ZCCFG (k : Nat) : Nat := 0xFF00B00004 + 1 * k
def STK_ZCSTAT (k : Nat) : Nat := 0xFF00B00008 + 1 * k
def STK_FLOOR (k : Nat) : Nat := 0xFF00B00010 + 1 * k
def STK_MCAP (k : Nat) : Nat := 0xFF00B00014 + 1 * k
def STK_MFLOOR (k : Nat) : Nat := 0xFF00B00018 + 1 * k
def STK_ALLOW (k : Nat) : Nat := 0xFF00B0001C + 1 * k
def STK_USE (k : Nat) : Nat := 0xFF00B00020 + 1 * k
def STK_DEMP (k : Nat) : Nat := 0xFF00B00024 + 1 * k
def STK_MSTAT : Nat := 0xFF00B00028
def STK_MNODE (k : Nat) : Nat := 0xFF00B00040 + 1 * k
def STK_PLAN (k : Nat) : Nat := 0xFF00B00080 + 1 * k
def STK_RBERR (k : Nat) : Nat := 0xFF00B00084 + 1 * k
def STK_GCTL (k : Nat) : Nat := 0xFF00B00090 + 1 * k
def STK_CHCFG (k : Nat) : Nat := 0xFF00B01000 + 8 * k
def STK_PRATED (k : Nat) : Nat := 0xFF00B01001 + 8 * k
def STK_IRATED (k : Nat) : Nat := 0xFF00B01002 + 8 * k
def STK_DEM (k : Nat) : Nat := 0xFF00B01003 + 8 * k
def STK_CHSTAT (k : Nat) : Nat := 0xFF00B01004 + 8 * k
def SNS_SPCFG (k : Nat) : Nat := 0xFF00B10000 + 1 * k
def SNS_PSTAT (k : Nat) : Nat := 0xFF00B10008 + 1 * k
def SNS_STAB (k : Nat) : Nat := 0xFF00B10100 + 1 * k
def SNS_CFRAME (k : Nat) : Nat := 0xFF00B11000 + 16 * k
def SNS_CCMD (k : Nat) : Nat := 0xFF00B11001 + 16 * k
def SNS_CFAULT (k : Nat) : Nat := 0xFF00B11002 + 16 * k
def SNS_CPLAUS (k : Nat) : Nat := 0xFF00B11003 + 16 * k
def SNS_SCALE (k : Nat) : Nat := 0xFF00B11004 + 16 * k
def SNS_OFFSET (k : Nat) : Nat := 0xFF00B11005 + 16 * k
def SNS_LO (k : Nat) : Nat := 0xFF00B11006 + 16 * k
def SNS_HI (k : Nat) : Nat := 0xFF00B11007 + 16 * k
def SNS_RATE (k : Nat) : Nat := 0xFF00B11008 + 16 * k
def SNS_DB (k : Nat) : Nat := 0xFF00B11009 + 16 * k
def SNS_CRING (k : Nat) : Nat := 0xFF00B1100A + 16 * k
def SNS_CMQ (k : Nat) : Nat := 0xFF00B1100B + 16 * k
def SNS_CFACT (k : Nat) : Nat := 0xFF00B1100C + 16 * k
def SNS_CSTAT (k : Nat) : Nat := 0xFF00B1100D + 16 * k
def SNS_CVAL (k : Nat) : Nat := 0xFF00B1100E + 16 * k
def SNS_CTIME (k : Nat) : Nat := 0xFF00B1100F + 16 * k
def PWM_PWCFG (k : Nat) : Nat := 0xFF00B20000 + 4 * k
def PWM_PWPER (k : Nat) : Nat := 0xFF00B20001 + 4 * k
def PWM_PWDUTY (k : Nat) : Nat := 0xFF00B20002 + 4 * k
def PWM_ENCCFG (k : Nat) : Nat := 0xFF00B20100 + 8 * k
def PWM_ENCPOS (k : Nat) : Nat := 0xFF00B20101 + 8 * k
def PWM_ENCIDX (k : Nat) : Nat := 0xFF00B20102 + 8 * k
def PWM_ENCCMP (k : Nat) : Nat := 0xFF00B20103 + 8 * k
def PWM_ENCSTAT (k : Nat) : Nat := 0xFF00B20104 + 8 * k
def HKA_HCTL : Nat := 0xFF00B30000
def HKA_HRAW (k : Nat) : Nat := 0xFF00B30010 + 1 * k
def HKA_HRES (k : Nat) : Nat := 0xFF00B30020 + 1 * k
def HKA_HLIM (k : Nat) : Nat := 0xFF00B30030 + 1 * k
def ETH_MACADDR (i : Nat) : Nat := 0xFF00C00100 + 0x10000 * i
def ETH_RXCFG (i : Nat) : Nat := 0xFF00C00101 + 0x10000 * i
def ETH_MCF (i k : Nat) : Nat := 0xFF00C00108 + 0x10000 * i + 1 * k
def ETH_PCPMAP (i : Nat) : Nat := 0xFF00C00118 + 0x10000 * i
def ETH_PTPNS (i : Nat) : Nat := 0xFF00C00120 + 0x10000 * i
def ETH_PTPADJ (i : Nat) : Nat := 0xFF00C00121 + 0x10000 * i
def ETH_PTPSTEP (i : Nat) : Nat := 0xFF00C00122 + 0x10000 * i
def ETH_TGT (i : Nat) : Nat := 0xFF00C00123 + 0x10000 * i
def ETH_TXTSQ (i : Nat) : Nat := 0xFF00C00124 + 0x10000 * i
def ETH_TXTS (i : Nat) : Nat := 0xFF00C00125 + 0x10000 * i
def ETH_QAVSLOPE (i k : Nat) : Nat := 0xFF00C00128 + 0x10000 * i + 1 * k
def ETH_GCLCTL (i : Nat) : Nat := 0xFF00C00130 + 0x10000 * i
def ETH_GCLCYCLE (i : Nat) : Nat := 0xFF00C00131 + 0x10000 * i
def ETH_GCLBASE (i : Nat) : Nat := 0xFF00C00132 + 0x10000 * i
def ETH_GCLSH (i k : Nat) : Nat := 0xFF00C00200 + 0x10000 * i + 1 * k
def ETH_GCLACT (i k : Nat) : Nat := 0xFF00C00300 + 0x10000 * i + 1 * k
def USB_USBMAC : Nat := 0xFF00C40100
def USB_USBID : Nat := 0xFF00C40101
def USB_USBFRM : Nat := 0xFF00C40102
def USB_USBSTAT : Nat := 0xFF00C40103
def CAN_CANNBT (i : Nat) : Nat := 0xFF00C50100 + 0x1000 * i
def CAN_CANDBT (i : Nat) : Nat := 0xFF00C50101 + 0x1000 * i
def CAN_CANERR (i : Nat) : Nat := 0xFF00C50102 + 0x1000 * i
def CAN_CANFLT (i k : Nat) : Nat := 0xFF00C50140 + 0x1000 * i + 1 * k
def UART_UDIV (i : Nat) : Nat := 0xFF00C60100 + 0x1000 * i
def UART_UFMT (i : Nat) : Nat := 0xFF00C60101 + 0x1000 * i
def I2C_I2CCFG (i : Nat) : Nat := 0xFF00C70100 + 0x1000 * i
def I2C_I2CCMD (i : Nat) : Nat := 0xFF00C70101 + 0x1000 * i
def I2C_I2CSTAT (i : Nat) : Nat := 0xFF00C70102 + 0x1000 * i
def PMB_PMBCREG : Nat := 0xFF00C80100
def PMB_PMBCMD : Nat := 0xFF00C80101
def PMB_PMBDATA : Nat := 0xFF00C80102
def PMB_PMBSTAT : Nat := 0xFF00C80103
def XSPI_XOP : Nat := 0xFF00C90100
def XSPI_XADDR : Nat := 0xFF00C90101
def XSPI_XLEN : Nat := 0xFF00C90102
def XSPI_XFSTAT : Nat := 0xFF00C90103
def GPIO_GPSET (k : Nat) : Nat := 0xFF00CA0000 + 1 * k
def GPIO_GPCLR (k : Nat) : Nat := 0xFF00CA0004 + 1 * k
def GPIO_GPCFG (k : Nat) : Nat := 0xFF00CA0100 + 1 * k
def HRTH_HSTATE : Nat := 0xFF00D00000
def HRTH_HPWR : Nat := 0xFF00D00001
def HRTH_HWAKE : Nat := 0xFF00D00002
def HRTH_HWSRC : Nat := 0xFF00D00003
def HRTH_RTC : Nat := 0xFF00D00008
def HRTH_RTCALM : Nat := 0xFF00D00009
def HRTH_SMSTAT : Nat := 0xFF00D00010
def HRTH_SMLIM (k : Nat) : Nat := 0xFF00D00028 + 1 * k
def HRTH_HRSTC : Nat := 0xFF00D00020
def HRTH_HRESET : Nat := 0xFF00D00021
def HRTH_HBOOT : Nat := 0xFF00D00022
def HRTH_HLOGPTR : Nat := 0xFF00D00023
def DMPR_DSTAT (k : Nat) : Nat := 0xFF00D10000 + 1 * k
def DMPR_DSHED (k : Nat) : Nat := 0xFF00D10008 + 1 * k
def DMPR_DSHOFF (k : Nat) : Nat := 0xFF00D10010 + 1 * k
def DMPR_DCORE : Nat := 0xFF00D10018
def DMPR_DIO : Nat := 0xFF00D10019
def DMPR_DREEN : Nat := 0xFF00D1001A
def CLK_OPP : Nat := 0xFF00D20000
def CLK_PLLSTAT : Nat := 0xFF00D20001
def CLK_TGCFG : Nat := 0xFF00D20002
def CLK_TGSTAT : Nat := 0xFF00D20003
def SAFE_SLOCK : Nat := 0xFF00E00000
def SAFE_FREC0 : Nat := 0xFF00E00001
def SAFE_FREC1 : Nat := 0xFF00E00002
def SAFE_FPEND (k : Nat) : Nat := 0xFF00E00008 + 1 * k
def SAFE_LSREC (k : Nat) : Nat := 0xFF00E00010 + 1 * k
def SAFE_SWDCFG : Nat := 0xFF00E00020
def SAFE_SWDKICK : Nat := 0xFF00E00021
def SAFE_SWDSTAT : Nat := 0xFF00E00022
def SAFE_SWFLT : Nat := 0xFF00E00023
def SAFE_GPSAFE (k : Nat) : Nat := 0xFF00E00028 + 1 * k
def SAFE_GPSLVL (k : Nat) : Nat := 0xFF00E0002C + 1 * k
def SAFE_TWCFG (k : Nat) : Nat := 0xFF00E00040 + 1 * k
def SAFE_TWKICK (k : Nat) : Nat := 0xFF00E00050 + 1 * k
def SAFE_FCFG (k : Nat) : Nat := 0xFF00E00100 + 1 * k
def SEC_SECSTAT : Nat := 0xFF00E10000
def SEC_SIN : Nat := 0xFF00E10008
def SEC_SINEND : Nat := 0xFF00E10009
def SEC_SOUT : Nat := 0xFF00E10010
def SEC_SOUTLEN : Nat := 0xFF00E10011
def SEC_SCTL : Nat := 0xFF00E10018
def SEC_OTPSTAT : Nat := 0xFF00E10020
def SEC_LOCKF (k : Nat) : Nat := 0xFF00E10028 + 1 * k
def DBG_DBGCTL (i : Nat) : Nat := 0xFF00F00000 + 0x1000 * i
def DBG_DBGSTAT (i : Nat) : Nat := 0xFF00F00001 + 0x1000 * i
def DBG_DHIT (i : Nat) : Nat := 0xFF00F00002 + 0x1000 * i
def DBG_RSEL (i : Nat) : Nat := 0xFF00F00003 + 0x1000 * i
def DBG_RDAT (i : Nat) : Nat := 0xFF00F00004 + 0x1000 * i
def DBG_CMPCTL (i k : Nat) : Nat := 0xFF00F00010 + 0x1000 * i + 4 * k
def DBG_CMPADDR (i k : Nat) : Nat := 0xFF00F00011 + 0x1000 * i + 4 * k
def DBG_CMPVAL (i k : Nat) : Nat := 0xFF00F00012 + 0x1000 * i + 4 * k
def DBG_CMPVMSK (i k : Nat) : Nat := 0xFF00F00013 + 0x1000 * i + 4 * k
def DBG_CNTSEL (i k : Nat) : Nat := 0xFF00F00040 + 0x1000 * i + 2 * k
def DBG_CNTVAL (i k : Nat) : Nat := 0xFF00F00041 + 0x1000 * i + 2 * k
def TRC_TRCCTL : Nat := 0xFF00F40000
def TRC_TRCSTAT : Nat := 0xFF00F40001
def TRC_TRCMARK : Nat := 0xFF00F40002
def TRC_TRCBUF (k : Nat) : Nat := 0xFF00F48000 + 1 * k
def CNTC_CNTSEL (i k : Nat) : Nat := 0xFF00F50000 + 0x1000 * i + 2 * k
def CNTC_CNTVAL (i k : Nat) : Nat := 0xFF00F50001 + 0x1000 * i + 2 * k
def CNTU_CNTSEL (k : Nat) : Nat := 0xFF00F60000 + 2 * k
def CNTU_CNTVAL (k : Nat) : Nat := 0xFF00F60001 + 2 * k
/-- PCTL of the peripheral instance with this base address. -/
def PER_PCTL (base : Nat) : Nat := base + 0x0
/-- PSTAT of the peripheral instance with this base address. -/
def PER_PSTAT (base : Nat) : Nat := base + 0x1
/-- PINT of the peripheral instance with this base address. -/
def PER_PINT (base : Nat) : Nat := base + 0x2
/-- DATA of the peripheral instance with this base address. -/
def PER_DATA (base : Nat) : Nat := base + 0x8
/-- EOF of the peripheral instance with this base address. -/
def PER_EOF (base : Nat) : Nat := base + 0x9
/-- DATAn of the peripheral instance with this base address. -/
def PER_DATAn (base : Nat) (k : Nat) : Nat := base + 0x11 + 1 * k

end Reg

/-- Base address of an instance of a block (R21). -/
def Blk.at (b : Blk) (i : Nat) : Nat := let (base, _, st) := b.geom; base + i * st

/-- A control register of a core (Table 3-3): its CRN, stride and count, its writable bits and its reset value. -/
structure CrSpec where
  crn : Nat
  stride : Nat
  count : Nat
  rw : W64
  reset : W64
  deriving DecidableEq, Repr

/-- Table 3-3 with the field tables of the chapters it names: CST, CHP, SHP, SPP, RPT, GDS, BKW, CCX, XTB, XSP, ASR, FSR, XPC, XST, XRP, XCA, XAD, XOP. -/
def crSpecs : List CrSpec := [
  ⟨0x00, 1, 1, 0x138, 0xA8⟩,
  ⟨0x01, 1, 1, 0xF, 0x0⟩,
  ⟨0x02, 1, 1, 0xF, 0x0⟩,
  ⟨0x03, 1, 1, 0xFFF0FFFFFFFFFFFF, 0x0⟩,
  ⟨0x04, 1, 1, 0x3FFFFFFFF, 0x0⟩,
  ⟨0x05, 1, 1, 0x1B1F, 0x0⟩,
  ⟨0x06, 1, 1, 0xFFF8FFFFFFFFFFFF, 0x0⟩,
  ⟨0x07, 1, 1, 0x0, 0x0⟩,
  ⟨0x08, 1, 1, 0xFFF8FFFFFFFFFFFF, 0x0⟩,
  ⟨0x09, 1, 5, 0xFFF8FFFFFFFFFFFF, 0x0⟩,
  ⟨0x0E, 1, 1, 0x30F, 0x0⟩,
  ⟨0x0F, 1, 1, 0x71F, 0x0⟩,
  ⟨0x10, 6, 7, 0xFFFFFFFFFFFFFFFF, 0x0⟩,
  ⟨0x11, 6, 7, 0x7FF03FF07FF, 0x0⟩,
  ⟨0x12, 6, 7, 0x3FFFFFFFF, 0x0⟩,
  ⟨0x13, 6, 7, 0x3FFFFFFFFF, 0x0⟩,
  ⟨0x14, 6, 7, 0xFFF1FFFFFFFFFFFF, 0x0⟩,
  ⟨0x15, 6, 7, 0xFFFFFFFF, 0x0⟩]

/-- The specification of a CRN; none for a reserved one (R72). -/
def findCr (crn : Nat) : Option CrSpec :=
  crSpecs.find? (fun r => decide (r.crn ≤ crn) && (crn - r.crn) % r.stride == 0 && decide ((crn - r.crn) / r.stride < r.count))

/-- The reset value of a control register. -/
def crReset (crn : Nat) : W64 := match findCr crn with | some r => r.reset | none => 0#64

end Sys2Proof.Machine
end

