-- ==== Sys2Proof/Machine/Tab.lean ====
section
/-!
DEFINITION. Sparse tables: a sorted list of (key, value) pairs that lists no key whose value is the default (what an
unlisted key reads as). Memory, register files, queues and every other indexed store of the state is one of these,
so that equal stores are equal data.
-/
namespace Sys2Proof.Machine

/-- A sparse table from numbers to values. -/
abbrev Tab (α : Type) := List (Nat × α)

/-- The value at key k; d where nothing is listed. -/
def Tab.get {α : Type} : Tab α → Nat → α → α
  | [], _, d => d
  | (k', v) :: t, k, d => if k = k' then v else if k < k' then d else Tab.get t k d

/-- Drop the leading entries up to key k; of a canonical table whose keys lie above k, none. -/
def Tab.dropTo {α : Type} : Tab α → Nat → Tab α
  | [], _ => []
  | (k', v) :: t, k => if k' ≤ k then Tab.dropTo t k else (k', v) :: t

/-- Write v at key k, keeping the canonical form for the default d. -/
def Tab.set {α : Type} [DecidableEq α] : Tab α → Nat → α → α → Tab α
  | [], k, v, d => if v = d then [] else [(k, v)]
  | (k', v') :: t, k, v, d =>
    if k < k' then (if v = d then (k', v') :: t else (k, v) :: (k', v') :: t)
    else if k = k' then (if v = d then Tab.dropTo t k else (k, v) :: t)
    else (k', v') :: Tab.set t k v d

/-- Every key of the table is above the bound. -/
def Tab.above {α : Type} (t : Tab α) (n : Nat) : Bool := t.all (fun e => n < e.1)

/-- The canonical form: keys strictly rising, no listed value equal to the default. -/
def Tab.wf {α : Type} [DecidableEq α] : Tab α → α → Bool
  | [], _ => true
  | (k, v) :: t, d => decide (v ≠ d) && Tab.above t k && Tab.wf t d

/-- The listed keys. -/
def Tab.keys {α : Type} (t : Tab α) : List Nat := t.map (·.1)

/-- Apply a function at a key. -/
def Tab.modify {α : Type} [DecidableEq α] (t : Tab α) (k : Nat) (d : α) (f : α → α) : Tab α :=
  Tab.set t k (f (Tab.get t k d)) d

/-- Drop every key that fails a test. -/
def Tab.keep {α : Type} (t : Tab α) (p : Nat → α → Bool) : Tab α := t.filter (fun e => p e.1 e.2)

end Sys2Proof.Machine
end

