-- ==== Sys2Proof/Machine/State.lean ====
section
/-!
DEFINITION. The state of the KS8840: the tagged memory and its caches, the I/O registers, the cores, the partitions, and the
engines, queues and lists that the chapters give the device, as plain data; the faults and refusals of a step; and the
state after a chip reset. INVENTORY.md lists every piece with the rule that names it and its reset value.
-/
namespace Sys2Proof.Machine

open Sys2Proof

/-- Why a step stops with a fault. No meaning raises one: the spec describes the outcome of every command, and an operand type
admits no ill-formed command. Safe. -/
inductive Fault where
  /-- Reserved for a command whose operands no device could receive. No command has such operands. Safe. -/
  | illFormed
  deriving DecidableEq, Repr

/-- Why a step refuses a command. -/
inductive Refusal where
  /-- The command has no meaning yet: raised by the arm of Machine/Dispatch.lean that names it. Safe. -/
  | notModelled (mnemonic : String)
  deriving DecidableEq, Repr

/-- The instruction pointer: a CODE object (selector and offset of its header) and an instruction index in it (spec 04). -/
structure Ip where
  sel : Nat := 0
  off : Nat := 0
  idx : Nat := 0
  deriving DecidableEq, Repr

/-- Whether a core executes: unpowered; held in reset until its partition is released; running; shed with its state retained (R411);
stopped by a Trump collapse (R178); stopped by a lockstep mismatch (R455). -/
inductive RunSt where
  | off | held | run | shed | collapsed | mismatch
  deriving DecidableEq, Repr

/-- What a core waits for: nothing; an event after WAIT, in Doze (R162); an item of a queue (R156, R285); the reply of a remote
transaction (R158); a FENCE (R163). -/
inductive WaitSt where
  | none
  | doze
  | qwait (queue d : Nat) (handle : W64)
  | remote (txn : Nat)
  | fence (k : Nat)
  deriving DecidableEq, Repr

/-- A 4-word work item (spec 11). -/
structure Item where
  w0 : Word := Word.void
  w1 : Word := Word.void
  w2 : Word := Word.void
  w3 : Word := Word.void
  deriving DecidableEq, Repr

/-- Sweep handshakes (Table 10-5). -/
inductive Hshake where
  | h1 | h2 | h3
  deriving DecidableEq, Repr

/-- One load or store of an instruction, as the comparators see it (R485): whether it stores, the word's segment address, its physical
address, and the word loaded or stored. -/
structure AccRec where
  store : Bool
  sel   : Nat
  off   : Nat
  pa    : Nat
  word  : Word
  deriving DecidableEq, Repr

/-- A store held in the micro-shadow (R195): its segment word, its physical address and the word. -/
structure MicroStore where
  sel  : Nat
  off  : Nat
  pa   : Nat
  word : Word
  deriving DecidableEq, Repr

/-- A micro-routine in progress (spec 08 R190–R201): the instruction's long opcode and operand fields, the next micro-address, the
temporaries, the micro-flags, the micro-call stack, the shadow, the micro-cycles since the last commit and the last boundary, and the
ACT of the microword whose commit or boundary is due (1 COMMIT, 2 YIELD, 3 RESTART, 4 END). -/
structure MicroSt where
  op     : Nat := 0
  d      : Nat := 0
  a      : Nat := 0
  b      : Nat := 0
  x      : Nat := 0
  upc    : Nat := 0
  temps  : Tab Word := []
  fz     : Bool := false
  fn     : Bool := false
  fc     : Bool := false
  fv     : Bool := false
  stack  : List Nat := []
  opd    : Option Word := none
  opa    : Option Word := none
  opb    : Option Word := none
  /-- OPB of an immediate form or of NEG and ABS: the word it reads. -/
  immB   : Option Word := none
  stores : List MicroStore := []
  sinceC : Nat := 0
  sinceB : Nat := 0
  act    : Nat := 0
  /-- SA and SB of the microword whose commit or boundary is due: it sequences after its ACT (R192). -/
  srcs   : Word × Word := (Word.void, Word.void)
  deriving DecidableEq, Repr

/-- The architectural state of one core (Table 3-1) with what the chapters add to it. -/
structure CoreSt where
  run      : RunSt := .off
  wait     : WaitSt := .none
  ip       : Ip := {}
  /-- g0–g7. -/
  g        : Tab Word := []
  /-- The 256 physical hand registers: 16·h + k is local k of hand h, 16·h + 8 + k its in k (R63). -/
  hands    : Tab Word := []
  /-- sg0–sg15, selectors. -/
  sg       : Tab Nat := []
  /-- The control registers of Table 3-3 by CRN. -/
  cr       : Tab W64 := []
  /-- The Snap bank (R69): its globals, its 24 hand registers (by register number − 8), its segment registers, RPT, ASR, FSR. -/
  snapG    : Tab Word := []
  snapHand : Tab Word := []
  snapSg   : Tab Nat := []
  snapRpt  : W64 := 0#64
  snapAsr  : W64 := 0#64
  snapFsr  : W64 := 0#64
  /-- The reserved line (R151). -/
  resv     : Option Nat := none
  /-- The forward-progress hold: the level and the index it is active for (R198). -/
  hold     : Option (Nat × Ip) := none
  /-- The descriptor cache: selector and the two descriptor words, by entry 0–63 (spec 03). -/
  dcache   : Tab (Nat × W64 × W64) := []
  /-- The handshake Sweep has requested and not yet received (R258). -/
  hshake   : Option Hshake := none
  /-- The handshake routine of H3 in Throughput mode waits until EVAC ends (Table 10-5). -/
  evacHold : Bool := false
  /-- The Sweep snapshot buffer, oldest first (R255). -/
  snapBuf  : List Word := []
  /-- Trailing-window total of handshake and barrier time, in ns, and whether it has stopped requests (R273). -/
  paceNs   : Nat := 0
  paceStop : Bool := false
  /-- The loads and stores of the instruction in progress, in order, for the comparators (R485). -/
  accs     : List AccRec := []
  /-- A WATCH hit waits for its boundary: the first hitting word and the hit bits (R486). -/
  watchAt  : Option (Nat × Nat × Nat) := none
  /-- A BREAK hit of the next instruction: the hit bits (R486). -/
  breakAt  : Nat := 0
  /-- STEP has arisen (R486). -/
  stepAt   : Bool := false
  /-- A latched hit enters the monitor at this boundary: the cause and the latched bits (R488). -/
  stopRet  : Option (Bool × Nat) := none
  /-- The micro-routine in progress, standing at a commit or a RESTART point (spec 08). -/
  micro    : Option MicroSt := none
  /-- The walk in progress, standing at the yield point after a cell step (R143). -/
  walk     : Option Instr := none
  deriving DecidableEq, Repr

/-- One partition as the Avset image configures it (R14, R74, R101, R86, R424). -/
structure PartSt where
  defined : Bool := false
  safety  : Bool := false
  /-- Segment table: number of descriptors and physical address of the first. -/
  tsize   : Nat := 0
  segBase : Nat := 0
  /-- Largest REP.N count. -/
  repLim  : Nat := 32
  bankWin : Bool := false
  /-- Physical grants: base and length in words (R78). -/
  grants  : List (Nat × Nat) := []
  /-- Entry CODE object (R414) and the words its registers start with. -/
  entrySel : Nat := 0
  entryOff : Nat := 0
  /-- Resume entry (R422, R437); zero selects the entry. -/
  resumeSel : Nat := 0
  resumeOff : Nat := 0
  /-- Boot core (R424). -/
  bootCore : Nat := 0
  /-- A reset of the partition is requested, runs, and when it was requested (R424). -/
  resetReq  : Bool := false
  resetting : Bool := false
  resetAt   : Nat := 0
  /-- Preset queues: number, configuration (R280). -/
  presets : List (Nat × Nat) := []
  presetAt : Option Nat := none
  deriving DecidableEq, Repr

/-- The traits of a customer tag (Table 2-15); undeclared where `declared` is false. -/
structure CTag where
  declared : Bool := false
  pointer  : Bool := false
  micro    : Bool := false
  slot     : Nat := 0
  userMake : Bool := false
  deriving DecidableEq, Repr

/-- A cache tag entry: the line it holds, whether it is valid, its dirty mark, and exclusive ownership (R212). -/
structure TagEnt where
  valid : Bool := false
  line  : Nat := 0
  dirty : Bool := false
  excl  : Bool := false
  deriving DecidableEq, Repr

/-- A heap segment's Sweep state beside its registers (R244, R247, R268). -/
structure HeapSt where
  /-- Selectors of the root list (Table 10-1). -/
  roots   : List Nat := []
  /-- Region entries of Table 10-2 by region index. -/
  regions : Tab W64 := []
  /-- DMA hold counts by region (R270). -/
  holds   : Tab Nat := []
  /-- The mark bitmap: even offsets that are marked. -/
  marks   : Tab Nat := []
  /-- The finalization table: pointers, in order of registration. -/
  fin     : List Word := []
  /-- Objects reserved and not yet copied: old offset, new offset, words (R262). -/
  transit : List (Nat × Nat × Nat) := []
  /-- COPY regions in order, the first being filled. -/
  copies  : List Nat := []
  deriving DecidableEq, Repr

/-- Sweep (spec 10). -/
structure SweepSt where
  /-- The heap segment of the running cycle. -/
  heap    : Option Nat := none
  /-- The mark queue: references still to be traced, with the word they came as. -/
  markQ   : List Word := []
  /-- Memory roots scanned in this cycle. -/
  scanned : Bool := false
  /-- Objects marked in the current MEND round. -/
  round   : Nat := 0
  /-- Handshakes still outstanding. -/
  waiting : List Nat := []
  /-- The steps of REF done (R260). -/
  refStep : Nat := 0
  /-- REMAP scan done. -/
  remapped : Bool := false
  /-- Objects of the relocation set have all been copied or left. -/
  evacDone : Bool := false
  /-- The last MEND round marked no object (R257). -/
  mended : Bool := false
  /-- Offsets of objects whose reservation was declined in this cycle (R262, R269, R270). -/
  declined : List Nat := []
  /-- Snapshot buffers of the DMA engines (0–3) and of the other engines (4–15). -/
  bufs    : Tab (List Word) := []
  deriving DecidableEq, Repr

/-- The state of a Dealer queue number (R280, R285). -/
inductive QPhase where
  | free | live | ash
  deriving DecidableEq, Repr

structure QueueSt where
  phase   : QPhase := .free
  /-- Current or next generation; zero where never created. -/
  gen     : Nat := 0
  cfg     : Nat := 0
  /-- The items of the queue in the order of their acceptance, with their deal class: in the ring, or dealt to a core and not yet committed
  (R284, R285). -/
  held    : List (Option Nat × Nat × Item) := []
  /-- Waiting cores in order of arrival (R285). -/
  waiters : List Nat := []
  /-- When the number last left the ASH state, in ns, plus one; zero where it was never used (R286). -/
  freedAt : Nat := 0
  preset  : Bool := false
  deriving DecidableEq, Repr

/-- A timer slot (R295). -/
structure TimerSt where
  armed : Bool := false
  gen   : Nat := 1
  part  : Nat := 0
  queue : Nat := 0
  qgen  : Nat := 0
  /-- Arming time in ns. -/
  armAt : Nat := 0
  /-- Due time in units of 2^−16 ns. -/
  due   : Int := 0
  item  : Item := {}
  deriving DecidableEq, Repr

/-- The kinds of identifier the Ash list holds (R289). -/
inductive AshKind where
  | queue | timer | xport | fact (n : Nat) | token (n : Nat) | txn
  deriving DecidableEq, Repr

/-- A retired identifier and the instant, in ns, before which it may not be reissued (R289). -/
structure AshEnt where
  kind  : AshKind
  ident : Nat
  expiry : Nat
  deriving DecidableEq, Repr

/-- A DMA channel beside its registers (spec 11): the descriptor in progress and the phase of its work. -/
inductive DmaPhase where
  | none | read | move | record | cqwait
  deriving DecidableEq, Repr

structure DmaSt where
  phase : DmaPhase := .none
  /-- Descriptor words 0–7 as read. -/
  desc  : List Word := []
  addr  : W64 := 0#64
  /-- Resolved object pointers of the two sides (R270). -/
  srcP  : Word := Word.void
  dstP  : Word := Word.void
  /-- Records waiting to be pushed, oldest first, and whether the push pulses the channel's source. -/
  recs  : List (Item × Bool) := []
  stop  : Bool := false
  /-- Held heap regions: heap, region. -/
  holds : List (Nat × Nat) := []
  /-- The next descriptor of the chain, in the CHEAD layout, and whether the channel goes on with it once the records are out. -/
  next  : Option W64 := none
  cont  : Bool := false
  /-- The channel waits for an object in transit (R262, R306). -/
  stall : Bool := false
  /-- A block of the channel has ended, and the engine has not yet chosen the channel it serves next (R306). -/
  bound : Bool := false
  /-- Records of a reset, refused as FULL: the record, whether its push pulses the source, the queue and its generation (R13, R311). -/
  late  : List (Item × Bool × Nat × Nat) := []
  deriving DecidableEq, Repr

/-- A fact slot of a network (R320, R321). -/
structure MFact where
  phase : QPhase := .free
  gen   : Nat := 1
  rel   : Nat := 0
  nf    : Nat := 0
  ver   : Nat := 0
  /-- When it left ASH since the load, in ns plus one; zero where never used since (R320). -/
  freedAt : Nat := 0
  /-- Used since the load. -/
  used  : Bool := false
  deriving DecidableEq, Repr

/-- A token slot of a network: the node that made it, the left token it extends, and its facts (R320, R321). -/
structure MTok where
  phase  : QPhase := .free
  gen    : Nat := 1
  node   : Nat := 0
  parent : Option Nat := none
  facts  : List Nat := []
  freedAt : Nat := 0
  used   : Bool := false
  deriving DecidableEq, Repr

/-- Where an item Meld pushes goes: agenda register k; the queue word 3 of the command names; NCQ (R327, R329). -/
inductive MDest where
  | agenda (k : Nat)
  | reply (q gen : Nat) (push : Bool)
  | ncq
  deriving DecidableEq, Repr

/-- The record of a command in progress (Table 12-11). -/
structure MRec where
  failed : Bool := false
  cause  : Nat := 0
  op     : Nat := 0
  redir  : Bool := false
  user   : Nat := 0
  ident  : Word := nilW
  acts   : Nat := 0
  drops  : Nat := 0
  tests  : Nat := 0
  dest   : MDest := .ncq
  deriving DecidableEq, Repr

/-- The undo log of the current command (R314, R326, R339): the slots, the alpha memories and NUSE before it, and the view words it has
written, last first, as they were; bad: one of these could not be read. -/
structure MUndo where
  facts : Tab MFact := []
  toks  : Tab MTok := []
  amem  : Tab (List Nat) := []
  nuse  : W64 := 0#64
  words : List (Nat × Stored) := []
  bad   : Bool := false
  deriving DecidableEq, Repr

/-- A network slot beside its registers (spec 12): its view, its preloaded image, the relations, nodes and constants loaded, the slots,
the alpha memories, and the items and the record it still has to push. -/
structure MeldNet where
  viewBase : Nat := 0
  preImage : List Word := []
  rels     : List W64 := []
  nodes    : Tab (W64 × W64 × W64 × W64) := []
  consts   : List Word := []
  nrule    : Nat := 0
  facts    : Tab MFact := []
  toks     : Tab MTok := []
  /-- Facts an AMEM holds, in order of entry, by node. -/
  amem     : Tab (List Nat) := []
  outs     : List (Item × MDest) := []
  rcd      : Option MRec := none
  undo     : Option MUndo := none
  /-- Node tests of the current command (Table 12-11). -/
  tests    : Nat := 0
  /-- The state to enter when the record is accepted: 0 none, else a code of Table 12-1. -/
  after    : Nat := 0
  /-- When a preloaded network is loaded again (R339). -/
  reloadAt : Option Nat := none
  deriving DecidableEq, Repr

/-- A message a port holds: when it arrived, and whether it has been transmitted (R351). -/
structure TxMsg where
  msg  : CMsg
  at_  : Nat
  sent : Bool := false
  deriving DecidableEq, Repr

/-- What a port last sent that carries no message: NAK, ACK only or IDLE, naming the next SEQ expected (Table 13-2). -/
inductive CtlFrame where
  | nak (ack : Nat) | ack (ack : Nat) | idle (ack : Nat)
  deriving DecidableEq, Repr

/-- A Corgil port beside its registers (R341–R346, R351, R363). -/
structure CPort where
  /-- Messages that wait for the port. -/
  txq    : List TxMsg := []
  /-- DATA frames sent and not acknowledged: SEQ, messages (spec 13: up to 64). -/
  retry  : List (Nat × List TxMsg) := []
  /-- SEQ of the next DATA frame, and the SEQ expected. -/
  txSeq  : Nat := 0
  rxSeq  : Nat := 0
  /-- Consecutive replays of the first unacknowledged frame, and when it was last sent. -/
  replays : Nat := 0
  sentAt : Nat := 0
  /-- When a frame last arrived. -/
  lastRx : Nat := 0
  /-- The trained width. -/
  width  : Nat := 0
  lastCtl : Option CtlFrame := none
  deriving DecidableEq, Repr

/-- An export entry (R353). -/
structure XEnt where
  phase  : QPhase := .free
  queue  : Bool := false
  auto   : Bool := false
  part   : Nat := 0
  gen    : Nat := 1
  count  : Nat := 0
  target : Word := Word.void
  freedAt : Nat := 0
  deriving DecidableEq, Repr

/-- The transactions of R356. -/
inductive TxKind where
  | rld | rst | rpush | refinc
  deriving DecidableEq, Repr

/-- A transaction identifier (R356–R360). -/
structure CTxn where
  phase  : QPhase := .free
  gen    : Nat := 1
  freedAt : Nat := 0
  kind   : TxKind := .rld
  part   : Nat := 0
  core   : Nat := 0
  /-- The registers a, b and d of the waiting instruction. -/
  a      : Nat := 0
  b      : Nat := 0
  d      : Nat := 0
  /-- The message of the transaction, not yet routed. -/
  msg    : Option CMsg := none
  /-- REM words of other nodes still to be counted by REFINC before the message is sent (R360). -/
  refs   : List Word := []
  sent   : Bool := false
  firstSend : Nat := 0
  lastSend : Nat := 0
  /-- A timeout or a NAK asks for a resend (R357). -/
  again  : Bool := false
  /-- RPUSH: the REM operand, item word 0, the record's queue handle, whether an answer was LOST or missing, the last NAK. -/
  remW   : Word := Word.void
  item0  : Word := Word.void
  que    : W64 := 0#64
  lost   : Bool := false
  nak    : Nat := 0
  qreason : Nat := 0
  /-- RPUSH: the record waiting to be pushed (R358). -/
  rcd    : Option Item := none
  /-- REFINC: the transaction whose message waits for the REFACK, or the response that waits. -/
  parent : Option Nat := none
  held   : Option CMsg := none
  deriving DecidableEq, Repr

/-- An import: the REM payload, and whether it was received or reported in this epoch (R361). -/
structure ImpEnt where
  pay  : W64
  seen : Bool
  deriving DecidableEq, Repr

/-- The Corgil node (spec 13). -/
structure CgSt where
  ports   : Tab CPort := []
  /-- Messages that have been delivered here and are not yet handled, oldest first. -/
  inbox   : List CMsg := []
  exports : Tab XEnt := []
  txns    : Tab CTxn := []
  /-- Route table: 2·DST + ALT to the fields of RTENT (R348). -/
  routes  : Tab W64 := []
  imports : List ImpEnt := []
  /-- Accepted PUSH identifiers: SRC, TXID, TXGEN and the end of their 12 ms (R357). -/
  filter  : List (Nat × Nat × Nat × Nat) := []
  /-- When a TIME was last accepted, and the correction still to be slewed (R362). -/
  lastTime : Nat := 0
  slew    : Int := 0
  /-- Heap segments whose cycle started, and completed, within this epoch (R361). -/
  epStart : List Nat := []
  epDone  : List Nat := []
  deriving DecidableEq, Repr

/-- Zero-cross tracking of a phase, and its plan (R369, R370). -/
structure ZcSt where
  /-- The last crossing, in ns. -/
  last   : Option Nat := none
  /-- Half-periods measured since tracking started, latest first, up to 8. -/
  halves : List Nat := []
  /-- The predicted crossing the last plan is for, and whether its switching point has passed. -/
  planFor : Nat := 0
  switched : Bool := true
  deriving DecidableEq, Repr

/-- A grant that was accepted: when, its validity in ns, and the allowances in units of 2^−16 A (R374). -/
structure GrantRec where
  at_   : Nat
  valid : Nat
  amps  : List Int
  deriving DecidableEq, Repr

/-- The last BREQ of a node (R376). -/
structure BreqRec where
  node : Nat
  at_  : Nat
  amps : List Int
  deriving DecidableEq, Repr

/-- A PWM channel: the period and duty in force, and whether a period runs (R382). -/
structure PwmSt where
  per  : Nat := 0
  duty : Nat := 0
  run  : Bool := false
  deriving DecidableEq, Repr

/-- A Sense channel beside its registers (R384–R389). -/
structure SenseSt where
  due    : Bool := false
  fails  : Nat := 0
  /-- The last raw reading, and how many consecutive samples have had it. -/
  lastR  : Option Int := none
  same   : Nat := 0
  /-- A plausible value has been taken; the last value pushed; the last sample was implausible; the last push was refused. -/
  hasVal : Bool := false
  pushed : Option W64 := none
  bad    : Bool := false
  refused : Bool := false
  ringOff : Bool := false
  deriving DecidableEq, Repr

/-- The Stoker and the field I/O (spec 14). -/
structure StkSt where
  zc     : Tab ZcSt := []
  /-- Commanded level of the outputs HO0–HO255. -/
  ho     : Tab Bool := []
  /-- When a pin's commanded level last changed, in ns plus one: HOc at c, HENg at 256 + g. -/
  chg    : Tab Nat := []
  /-- Consecutive samples in which a pin differed (R381). -/
  diff   : Tab Nat := []
  grants : List GrantRec := []
  breqs  : List BreqRec := []
  bseq   : Nat := 0
  seqPause : Option Nat := none
  pwm    : Tab PwmSt := []
  /-- Filtered levels of the encoder inputs A and B. -/
  encAB  : Tab (Bool × Bool) := []
  sense  : Tab SenseSt := []
  /-- The channel whose frame a Sense port runs, plus one. -/
  frame  : Tab Nat := []
  /-- DMA request line 0x48 is asserted before this instant (R392). -/
  hkaReq : Nat := 0
  deriving DecidableEq, Repr

/-- A peripheral instance beside its registers (spec 15). -/
structure PerSt where
  /-- Octets of the frame being written, or waiting to be sent. -/
  tx     : List Octet := []
  /-- Frames ready to be sent, oldest first. -/
  frames : List (List Octet) := []
  /-- Received records or octets that wait, oldest first. -/
  rx     : List (List Octet) := []
  /-- RS-485 driver enable. -/
  de     : Bool := false
  /-- A bus-off CAN controller may recover. -/
  recover : Bool := false
  /-- Link rate in Mb/s, and the last 64 transmit timestamps by sequence number. -/
  rate   : Nat := 0
  stamps : List (Nat × W64) := []
  /-- Length and cycle time of the active gate list, and the instant it took effect (R402). -/
  gclLen : Nat := 0
  gclCycle : Nat := 0
  gclStart : Nat := 0
  /-- The transaction in progress: the command register as written. -/
  cmd    : Option W64 := none
  deriving DecidableEq, Repr

/-- The states of the device (Table 16-1), with the two the boot passes through: the cold boot that follows a reset, and the boot ROM's
recovery service (R426). -/
inductive DevSt where
  | unpowered | cold | boot | run | ember | recovery
  deriving DecidableEq, Repr

/-- JTAG instructions that hold a state (Table 20-3). -/
inductive JtagIr where
  | bypass | sample | extest | clamp | highz | dbgacc
  deriving DecidableEq, Repr

/-- The enable outputs of Hearth (R408). -/
inductive Rail where
  | core | vddq | serdes
  deriving DecidableEq, Repr

/-- Hearth, beside its registers (spec 16), and the JTAG port (R493, R494). -/
structure HearthSt where
  dev      : DevSt := .boot
  /-- The enable outputs that are asserted, in the order in which they rose, and the core rail's voltage in mV (R408). -/
  rails    : List Rail := []
  coreMv   : Nat := 0
  /-- RESET_N is low (R423); the 150 °C sensor has not yet read below 125 °C (R417). -/
  resetN   : Bool := false
  hot      : Bool := false
  /-- An accepted HPWR command (1 EMBER, 2 COLD) and the core that wrote it. -/
  cmd      : Option (Nat × Nat) := none
  /-- Cold was entered by the loss of a VIO bank (R421); the resume record is valid (R422); an exit has been started by a wake source
  (its HWSRC bit plus one). -/
  vioLost  : Bool := false
  resumeOk : Bool := false
  wake     : Nat := 0
  /-- RTC when Ember was entered. -/
  emberRtc : Nat := 0
  /-- The target of the operating-point transition in progress. -/
  oppTo    : Option Nat := none
  /-- Consecutive thermal readings at or above STEP, at or below RELEASE, at or above TRIP, and the readings left of the hold of CEIL. -/
  stepCnt  : Nat := 0
  relCnt   : Nat := 0
  tripCnt  : Nat := 0
  ceilHold : Nat := 0
  /-- Domains shed now keep their contents: cores and shells (R411). -/
  jtag     : JtagIr := .bypass
  /-- Boundary-scan cells: 1000 · block + ordinal of Table 21-12 (1 host, 2 field A, 3 field B) to the cell. -/
  cells    : Tab Bool := []
  /-- DRAM channels that have finished their initialisation (R427). -/
  initDone : List Nat := []
  /-- STATUS, TAG and DATA of the last debug access (R494). -/
  dbgSt    : Nat := 0
  dbgWord  : Word := Word.void
  deriving DecidableEq, Repr

/-- The safety monitor beside its registers (spec 18). -/
structure SafeSt where
  /-- The partition concerned by a pending input, plus one (R457). -/
  concerned : Tab Nat := []
  /-- The group mask a pending input holds, with the groups added at the latch (R459). -/
  mask     : Tab Nat := []
  /-- When the safety watchdog was last kicked or restarted, in ns; a violation resets the chip (R464, R465). -/
  swdAt    : Nat := 0
  swdRuns  : Bool := false
  /-- Start of the count of each task watchdog, in ns, and when it was frozen, plus one (R467). -/
  tw       : Tab (Nat × Nat) := []
  /-- PLLs that have lost lock (bit k), and the 25 MHz reference found absent or off (R457). -/
  pllLost  : Nat := 0
  refBad   : Bool := false
  deriving DecidableEq, Repr

/-- The OTP fields of Table 19-1; a blank key is the empty list. -/
structure OtpSt where
  imgKey   : Tab (List Octet) := []
  imgRev   : Tab Bool := []
  ucKey    : List Octet := []
  rkey     : Tab (List Octet) := []
  rkeyRev  : Tab Bool := []
  imgSvn   : Nat := 0
  ucSvn    : Nat := 0
  provLock : Bool := false
  jtagOff  : Bool := false
  deriving DecidableEq, Repr

/-- A password record (R476). -/
structure PwdRec where
  salt   : List Octet := []
  iter   : Nat := 0
  result : List Octet := []
  deriving DecidableEq, Repr

/-- The opening exchange or the open session (R474–R478). -/
inductive SessPhase where
  | closed | challenged | opened
  deriving DecidableEq, Repr

structure SessSt where
  phase  : SessPhase := .closed
  role   : Nat := 0
  method : Nat := 0
  nh     : List Octet := []
  nd     : List Octet := []
  qh     : List Octet := []
  /-- The device's ephemeral private value, and its public key. -/
  dpriv  : List Octet := []
  qd     : List Octet := []
  ks     : List Octet := []
  ke     : List Octet := []
  seqIn  : Nat := 1
  seqOut : Nat := 1
  /-- When CHALLENGE was sent, and when a frame was last accepted. -/
  at_    : Nat := 0
  last   : Nat := 0
  /-- The session runs over the USB port (R478). -/
  usb    : Bool := false
  /-- A FLASH was done in this session (R481). -/
  flashed : Bool := false
  deriving DecidableEq, Repr

/-- The security block (spec 19). -/
structure SecSt where
  otp    : OtpSt := {}
  /-- The Hearth secure store: password records, failure counts and next-attempt times by role (R476, R477). -/
  pwds   : Tab PwdRec := []
  fails  : Tab Nat := []
  nexts  : Tab Nat := []
  sess   : SessSt := {}
  /-- Octets written to SIN, the frames that have ended, oldest first, each with whether its length agreed, and the octets of SOUT. -/
  sin    : List Octet := []
  frames : List (List Octet × Bool) := []
  sout   : List Octet := []
  /-- Digest of the booted image, and the SVNs that RBADV lets the block raise the counters to (R445, R447). -/
  digest : List Octet := []
  advance : Option (Nat × Nat) := none
  /-- An accepted tuning image, its sections still to be applied: type and fields (R448). -/
  tune   : List (Nat × List W64) := []
  deriving DecidableEq, Repr

/-- The state of the device. -/
structure State where
  /-- The commands waiting, first in first out. -/
  pending : List Instr := []
  /-- Counter that numbers the free values a run has taken (the model's own). -/
  freeCtr : Nat := 0
  /-- The value the last register read returned to its requester (the model's own bus latch). -/
  lastRead : W64 := 0#64
  /-- Stored words by physical address: DRAM, scratchpad windows and the Hearth log SRAM (Table 1-6). -/
  mem     : Tab Stored := []
  /-- Dirty words held above DRAM: in an L1D, in an L2, in L3 (victim buffers included), by physical address. -/
  l1d     : Tab (Option Stored) := []
  l2      : Tab (Option Stored) := []
  l3      : Tab (Option Stored) := []
  /-- Words held by the L1I of core c, at c·2^40 + pa (R211). -/
  l1i     : Tab (Option Stored) := []
  /-- Cache tag entries: cache·2^20 + set·2^5 + way (Table 9-1). -/
  tags    : Tab TagEnt := []
  /-- Targets of the transitions in progress, plus one (R19): L2 split of cluster k at k, its way power at 8 + k, quarter power of L3 slice n
  at 16 + n, WMASKr of slice n at 64 + 5·n + r, the modes of Corgil port p at 240 + p, Meld's lanes at 244. -/
  modeTo  : Tab Nat := []
  /-- Victim buffers: cache and line, oldest first (R219). -/
  vbuf    : List (Nat × Nat) := []
  /-- Shuffle registers by cache (R218); the core descriptor caches are caches 168 + c. -/
  shuf    : Tab (BitVec 16) := []
  /-- Safety fault inputs whose source asserts, not yet latched (R458), each with the partition and the core concerned. -/
  faultIn : List (Nat × Nat × Nat) := []
  /-- INTC sources that have pulsed and wait to be asserted (R182). -/
  pulses  : List Nat := []
  /-- Outstanding fills of prefetches: core, line, for writing (R165, R215). -/
  fills   : List (CoreId × Nat × Bool) := []
  /-- The I/O registers by physical address (Table 1-7). -/
  io      : Tab W64 := []
  /-- The reset values that the Avset image gives to image-dependent registers by physical address. -/
  img     : Tab W64 := []
  cores   : Tab CoreSt := []
  parts   : Tab PartSt := []
  /-- Customer tags by code (R59). -/
  ctags   : Tab CTag := []
  heaps   : Tab HeapSt := []
  sweep   : SweepSt := {}
  /-- Offers of the INTC: source to core + 1 (R181). -/
  offers  : Tab Nat := []
  /-- Assertions of a queue-mode source since its last accepted push (R183). -/
  srcCount : Tab Nat := []
  queues  : Tab QueueSt := []
  /-- Queue numbers whose descriptors are cached, most recently used first (R291). -/
  qcache  : List Nat := []
  timers  : Tab TimerSt := []
  /-- Instant of the last tick of the wheel, and the timers that may still fire in it (R295). -/
  lastTick : Nat := 0
  fireLeft : Nat := 0
  ash     : List AshEnt := []
  dma     : Tab DmaSt := []
  /-- Owners of the single resources of Table 1-4: kind·2^16 + index to partition + 1; unlisted where no partition owns it. -/
  owners  : Tab Nat := []
  meld    : Tab MeldNet := []
  cg      : CgSt := {}
  stk     : StkSt := {}
  pers    : Tab PerSt := []
  hs      : HearthSt := {}
  saf     : SafeSt := {}
  sec     : SecSt := {}
  /-- The WCS microwords by micro-address (R187, R205); and the microwords of a cluster that are not correctable: cluster · 2^14 + address. -/
  wcs     : Tab (BitVec 128) := []
  ucBad   : Tab Bool := []
  /-- The image slots of the flash device (R426): octets by slot. -/
  flash   : Tab (List Octet) := []
  deriving DecidableEq, Repr

/-- Failure counts and next-attempt times after a power-on reset with RTC 0: F 5, one second (R477). -/
def porFails : Tab Nat := [(0, 5), (1, 5), (2, 5), (3, 5)]
def porNexts (rtc : Nat) : Tab Nat := [(0, rtc + 32768), (1, rtc + 32768), (2, rtc + 32768), (3, rtc + 32768)]

/-- The state right after a power-on reset: every register at its reset value, the cold boot still to come, the queue of commands empty. -/
def State.reset : State := { sec := { fails := porFails, nexts := porNexts 0 } }

end Sys2Proof.Machine
end

