-- ==== Sys2Proof/Machine/Access.lean ====
section
/-!
DEFINITION. Reading and replacing the parts of the state: cores, control registers, I/O register fields, partitions, the local
time, the raised pulses and safety inputs, and the free values.
-/
namespace Sys2Proof.Machine

open Sys2Proof

namespace State

/-- The core n of R11. -/
def core (s : State) (c : Nat) : CoreSt := Tab.get s.cores c {}
def setCore (s : State) (c : Nat) (x : CoreSt) : State := { s with cores := Tab.set s.cores c x {} }
def modCore (s : State) (c : Nat) (f : CoreSt → CoreSt) : State := s.setCore c (f (s.core c))

/-- An I/O register's stored value (its reset value until something changes it). -/
def ioR (s : State) (pa : Nat) : W64 := Tab.get s.io pa (regReset pa)
def ioW (s : State) (pa : Nat) (v : W64) : State := { s with io := Tab.set s.io pa v (regReset pa) }

/-- The value a reset gives a register: the image's where it is image-dependent, else the table's. -/
def ioReset (s : State) (pa : Nat) : State := s.ioW pa (Tab.get s.img pa (regReset pa))

/-- A field of an I/O register. -/
def rf (s : State) (pa hi lo : Nat) : Nat := fld (s.ioR pa) hi lo
/-- A field of an I/O register replaced. -/
def wf (s : State) (pa hi lo v : Nat) : State := s.ioW pa (setFld (s.ioR pa) hi lo v)
/-- Bit i of an I/O register. -/
def rb (s : State) (pa i : Nat) : Bool := bitAt (s.ioR pa) i
/-- Bit i of an I/O register set to 1. -/
def setB (s : State) (pa i : Nat) : State := s.wf pa i i 1
/-- n added to a field that saturates. -/
def satAdd (s : State) (pa hi lo n : Nat) : State := s.wf pa hi lo (min (s.rf pa hi lo + n) (2 ^ (hi + 1 - lo) - 1))
/-- n added to a field that wraps. -/
def wrapAdd (s : State) (pa hi lo n : Nat) : State := s.wf pa hi lo (s.rf pa hi lo + n)

def part (s : State) (p : Nat) : PartSt := Tab.get s.parts p {}
def modPart (s : State) (p : Nat) (f : PartSt → PartSt) : State := { s with parts := Tab.modify s.parts p {} f }
def heap (s : State) (h : Nat) : HeapSt := Tab.get s.heaps h {}
def modHeap (s : State) (h : Nat) (f : HeapSt → HeapSt) : State := { s with heaps := Tab.modify s.heaps h {} f }
def queue (s : State) (q : Nat) : QueueSt := Tab.get s.queues q {}
def modQueue (s : State) (q : Nat) (f : QueueSt → QueueSt) : State := { s with queues := Tab.modify s.queues q {} f }
def timer (s : State) (t : Nat) : TimerSt := Tab.get s.timers t {}
def setTimer (s : State) (t : Nat) (x : TimerSt) : State := { s with timers := Tab.set s.timers t x {} }
def dmaCh (s : State) (ch : Nat) : DmaSt := Tab.get s.dma ch {}
def modDma (s : State) (ch : Nat) (f : DmaSt → DmaSt) : State := { s with dma := Tab.modify s.dma ch {} f }

def net (s : State) (n : Nat) : MeldNet := Tab.get s.meld n {}
def modNet (s : State) (n : Nat) (f : MeldNet → MeldNet) : State := { s with meld := Tab.modify s.meld n {} f }

/-- The local time base in ns (R362). -/
def now (s : State) : Nat := (s.ioR Reg.CGL_TIMENS).toNat
/-- The local time moved on to an instant, if that lies ahead (notes/assumptions/3.md). -/
def advanceTo (s : State) (ns : Nat) : State := if s.now < ns then s.ioW Reg.CGL_TIMENS (n64 ns) else s

/-- A pulse of an edge source, to be asserted by the INTC (R182). -/
def pulse (s : State) (src : Nat) : State := { s with pulses := s.pulses ++ [src] }

/-- A safety fault input's source asserts, with the partition and the core concerned (R458). -/
def raiseFault (s : State) (input : Nat) (part : Nat := 0) (core : Nat := 0) : State :=
  if s.faultIn.any (fun e => e.1 == input) then s else { s with faultIn := s.faultIn ++ [(input, part, core)] }

/-- The index of the next free value, counted (the model's own). -/
def nextFree (s : State) : Nat × State := (s.freeCtr, { s with freeCtr := s.freeCtr + 1 })

/-! Control registers of a core (Table 3-3). -/

def crR (s : State) (c crn : Nat) : W64 := Tab.get (s.core c).cr crn (crReset crn)
def crW (s : State) (c crn : Nat) (v : W64) : State := s.modCore c (fun x => { x with cr := Tab.set x.cr crn v (crReset crn) })
def crF (s : State) (c crn hi lo : Nat) : Nat := fld (s.crR c crn) hi lo
def crSetF (s : State) (c crn hi lo v : Nat) : State := s.crW c crn (setFld (s.crR c crn) hi lo v)

end State

namespace CRN
abbrev cst := 0x00
abbrev chp := 0x01
abbrev shp := 0x02
abbrev spp := 0x03
abbrev rpt := 0x04
abbrev gds := 0x05
abbrev bkw := 0x06
abbrev ccx := 0x07
abbrev xtb := 0x08
/-- XSPn for n from 2 to 6. -/
def xsp (n : Nat) : Nat := 0x09 + (n - 2)
abbrev asr := 0x0E
abbrev fsr := 0x0F
/-- Register k of save set n (0 XPC, 1 XST, 2 XRP, 3 XCA, 4 XAD, 5 XOP). -/
def save (n k : Nat) : Nat := 0x10 + 6 * (n - 1) + k
end CRN

/-- Groups of GDS as a mask: bit 0 G, 1 W, 2 C, 3 S, 4 Q. -/
abbrev grpG : Nat := 1
abbrev grpW : Nat := 2
abbrev grpC : Nat := 4
abbrev grpS : Nat := 8
abbrev grpQ : Nat := 16

namespace State

/-- CST.CL, ML, SUP and SNAP_EN of a core. -/
def cl (s : State) (c : Nat) : Nat := s.crF c CRN.cst 2 0
def ml (s : State) (c : Nat) : Nat := s.crF c CRN.cst 5 3
def sup (s : State) (c : Nat) : Bool := bitAt (s.crR c CRN.cst) 7
def snapEn (s : State) (c : Nat) : Bool := bitAt (s.crR c CRN.cst) 8
/-- The core uses the Snap bank: CL is 6 (R69). -/
def snap (s : State) (c : Nat) : Bool := s.cl c == 6

/-- RPT, ASR and FSR of the bank of the current level (R69). -/
def rptR (s : State) (c : Nat) : W64 := if s.snap c then (s.core c).snapRpt else s.crR c CRN.rpt
def rptW (s : State) (c : Nat) (v : W64) : State := if s.snap c then s.modCore c (fun x => { x with snapRpt := v }) else s.crW c CRN.rpt v
def asrR (s : State) (c : Nat) : W64 := if s.snap c then (s.core c).snapAsr else s.crR c CRN.asr
def asrW (s : State) (c : Nat) (v : W64) : State := if s.snap c then s.modCore c (fun x => { x with snapAsr := v }) else s.crW c CRN.asr v
def fsrR (s : State) (c : Nat) : W64 := if s.snap c then (s.core c).snapFsr else s.crR c CRN.fsr
def fsrW (s : State) (c : Nat) (v : W64) : State := if s.snap c then s.modCore c (fun x => { x with snapFsr := v }) else s.crW c CRN.fsr v

/-- A register write marks its group dirty, except at CL 6 (R81). -/
def dirty (s : State) (c m : Nat) : State :=
  if s.snap c then s else s.crW c CRN.gds (s.crR c CRN.gds ||| n64 m)

/-- CST as it reads: RPA is 1 exactly while a REP.I prefix is latched in the current bank (spec 04, RPT). -/
def cstR (s : State) (c : Nat) : W64 := setBit (s.crR c CRN.cst) 10 (bitAt (s.rptR c) 32 && !bitAt (s.rptR c) 33)

/-! Event counters (R496). -/

/-- n added to a counter pair at CNTSEL address a: OVF is set where COUNT passes 2^48 − 1. -/
def countAt (s : State) (a n : Nat) : State :=
  let v := s.rf (a + 1) 47 0 + n
  let s := s.wf (a + 1) 47 0 v
  if 2 ^ 48 ≤ v then s.setB a 29 else s

/-- n occurrences of a core event (Table 20-5). -/
def countCore (s : State) (c ev : Nat) (n : Nat := 1) : State :=
  forN 8 (fun j s =>
    let a := Reg.DBG_CNTSEL c j
    let v := s.ioR a
    if bitAt v 31 && fld v 7 0 == ev && bitAt v (16 + s.cl c) && bitAt v (if s.sup c then 25 else 24) then s.countAt a n else s) s

/-- n occurrences of a cluster event (Table 20-6) at an instance. -/
def countCl (s : State) (k ev inst : Nat) (n : Nat := 1) : State :=
  forN 8 (fun j s =>
    let a := Reg.CNTC_CNTSEL k j
    let v := s.ioR a
    if bitAt v 31 && fld v 7 0 == ev && (fld v 13 8 == inst || fld v 13 8 == 0x3F) then s.countAt a n else s) s

/-- n occurrences of an uncore event (Table 20-7) at an instance. -/
def countUn (s : State) (ev inst : Nat) (n : Nat := 1) : State :=
  forN 32 (fun j s =>
    let a := Reg.CNTU_CNTSEL j
    let v := s.ioR a
    if bitAt v 31 && fld v 7 0 == ev && (fld v 13 8 == inst || fld v 13 8 == 0x3F) then s.countAt a n else s) s

/-- Owning partition of a core, from CINFO (spec 03). -/
def coreOwned (s : State) (c : Nat) : Bool := s.rb (Reg.CORE_CINFO c) 11
def corePart (s : State) (c : Nat) : Nat := s.rf (Reg.CORE_CINFO c) 15 12
/-- The cluster of a core is in Paired mode: CST.PAIRED of its even core (R12). -/
def corePaired (s : State) (c : Nat) : Bool := bitAt (s.crR (c - c % 2) CRN.cst) 9
/-- The core is the checker of a lockstep pair (R12). -/
def isChecker (s : State) (c : Nat) : Bool := s.corePaired c && c % 2 == 1
/-- The core executes instructions now. -/
def running (s : State) (c : Nat) : Bool := (s.core c).run == .run && !s.isChecker c

/-- The resource kinds of Table 1-4, numbered as the DEV classes of Table 2-10 where those name them. -/
inductive Res where
  | dmaCh | meldNet | sense | group | pwm | encoder | hka | eth | can | uart | i2c | gpio | source | usb | xspi | spad
  deriving DecidableEq, Repr

def Res.code : Res → Nat
  | .dmaCh => 1 | .meldNet => 2 | .sense => 3 | .group => 4 | .pwm => 5 | .encoder => 6 | .hka => 7 | .eth => 8 | .can => 9
  | .uart => 10 | .i2c => 11 | .gpio => 12 | .source => 13 | .usb => 14 | .xspi => 15 | .spad => 16

/-- The partition that owns a resource (R15). -/
def owner (s : State) (r : Res) (i : Nat) : Option Nat :=
  match Tab.get s.owners (r.code * 65536 + i) 0 with
  | 0 => none
  | p + 1 => some p
def setOwner (s : State) (r : Res) (i p : Nat) : State := { s with owners := Tab.set s.owners (r.code * 65536 + i) (p + 1) 0 }

/-- A requester with partition p may write what the owner of a resource may write: partition 0 or the owner. -/
def mayWrite (s : State) (p : Nat) (r : Res) (i : Nat) : Bool := p == 0 || s.owner r i == some p

/-- Partition of a requester (R29): of a core or a DMA channel its owner; a JTAG access has the rights of partition 0 (R494). -/
def reqPart (s : State) : Req → Nat
  | .core c => s.corePart c
  | .dma ch => (s.owner .dmaCh ch).getD 0
  | .jtag => 0

end State

end Sys2Proof.Machine
end

