-- ==== Sys2Proof/Machine/Ecc.lean ====
section
/-!
DEFINITION. The stored form of a word and its check bits (spec 02 R31, spec 09 R230–R232, Table 9-5).
-/
namespace Sys2Proof.Machine

open Sys2Proof

namespace Ecc

/-- Codeword position p(k) of data bit k (R230). -/
def pos (k : Nat) : Nat :=
  if k = 0 then 3 else if k ≤ 3 then k + 4 else if k ≤ 10 then k + 5 else if k ≤ 25 then k + 6 else if k ≤ 56 then k + 7 else k + 8

/-- Exclusive OR of the positions of the set bits among the first k data bits: c[6:0]. -/
def hamming : Nat → Nat → Nat
  | 0, _ => 0
  | k + 1, d => if d.testBit k then hamming k d ^^^ pos k else hamming k d

/-- Parity of the first k bits. -/
def parity (k n : Nat) : Nat := popCount k n % 2

/-- The 72 data bits of a word: payload in 63:0, tag in 71:64. -/
def dataOf (w : Word) : Nat := w.pay.toNat + w.tag.toNat * 2 ^ 64

/-- The check byte of 72 data bits (R230). -/
def check (d : Nat) : Nat := let c := hamming 72 d; c + (parity 72 d + parity 7 c) % 2 * 128

/-- A word as it is stored (Table 2-1). -/
def encode (w : Word) : Stored := if w = Word.void then 0#80 else BitVec.ofNat 80 (dataOf w + check (dataOf w) * 2 ^ 72)

/-- What decoding finds (Table 9-5). -/
inductive Status where
  | ok | corrected | uncorr
  deriving DecidableEq, Repr

/-- The word of 72 data bits. -/
def wordOf (d : Nat) : Word := ⟨BitVec.ofNat 8 (d / 2 ^ 64), BitVec.ofNat 64 d⟩

/-- The syndrome s and the parity P of a stored word (R231). -/
def syndrome (x : Stored) : Nat × Nat :=
  let n := x.toNat
  let d := n % 2 ^ 72
  let c := n / 2 ^ 72
  ((c % 128) ^^^ hamming 72 d, parity 80 n)

/-- Decoding by Table 9-5. -/
def decode (x : Stored) : Word × Status :=
  if x = 0#80 then (Word.void, .ok)
  else
    let d := x.toNat % 2 ^ 72
    let (s, p) := syndrome x
    if s = 0 then (wordOf d, if p = 0 then .ok else .corrected)
    else if p = 0 then (wordOf d, .uncorr)
    else if s ≥ 80 then (wordOf d, .uncorr)
    else
      match (List.range 72).find? (fun k => pos k == s) with
      | some k => (wordOf (d ^^^ 2 ^ k), .corrected)
      | none => (wordOf d, .corrected)

/-- A word poisoned: its check byte exclusive-ORed with 0x81 (R232). -/
def poison (w : Word) : Stored := BitVec.ofNat 80 (dataOf w + (check (dataOf w) ^^^ 0x81) * 2 ^ 72)

end Ecc

end Sys2Proof.Machine
end

