-- ==== Sys2Proof/Machine/Cache.lean ====
section
/-!
DEFINITION. Physical memory: the implemented regions (spec 01 R20, spec 09 R224), the caches with their placement, their Shuffle
victims and their victim buffers (spec 09 R209–R229), and the one read and the one write of a stored word. The VALUE of a word is kept
apart from its PLACEMENT: a dirty word stands in the table of its level (l1d, l2, l3), a clean copy equals what stands below it, and
the tag entries say which lines a cache holds.
-/
namespace Sys2Proof.Machine

open Sys2Proof

/-- Payload octets of one subchannel and rank in GiB (R236). -/
def subGiB (mcfg : W64) : Nat :=
  match bitAt mcfg 1, bitAt mcfg 2 with
  | false, false => 8
  | false, true => 16
  | true, false => 4
  | true, true => 8

/-- The capacity in words that a value of MCFG describes (R236). -/
def dramCap (m : W64) : Nat := subGiB m * 2 ^ 27 * (if bitAt m 4 then 2 else 1) * 2 * 2 ^ fld m 9 8

namespace State

/-- Populated DRAM in words, from MCFG of channel 0 (R236): zero where it is not populated. -/
def dramWords (s : State) : Nat :=
  let m := s.ioR (Reg.MEMC_MCFG 0)
  if bitAt m 0 then dramCap m else 0

end State

/-- The scratchpad cluster and word of an address (Table 1-6). -/
def spadOf (pa : Nat) : Option (Nat × Nat) :=
  if 0xF000000000 ≤ pa ∧ pa < 0xF000800000 then some ((pa - 0xF000000000) / 0x100000, (pa - 0xF000000000) % 0x100000) else none

/-- The address lies in the Hearth log SRAM (Table 1-6). -/
def isLog (pa : Nat) : Bool := decide (0xF100000000 ≤ pa) && decide (pa < 0xF100002000)
/-- The address lies in I/O space. -/
def isIo (pa : Nat) : Bool := decide (0xFF00000000 ≤ pa) && decide (pa < 0x10000000000)
/-- The address lies in the DRAM region. -/
def isDram (pa : Nat) : Bool := decide (pa < 0x0800000000)

/-- Way pairs of a cluster whose window words are implemented: SPCUR, and no more than a transition in progress leaves (R224, R226). -/
def State.spadPairs (s : State) (c : Nat) : Nat :=
  match Tab.get s.modeTo c 0 with
  | 0 => s.rf (Reg.L2C_L2CTL c) 19 18
  | t + 1 => min t (s.rf (Reg.L2C_L2CTL c) 19 18)

/-- The address is implemented now (R20). -/
def State.implemented (s : State) (pa : Nat) : Bool :=
  if isDram pa then decide (pa < s.dramWords)
  else if isLog pa then true
  else if isIo pa then (findBlk pa).isSome
  else match spadOf pa with
    | some (c, w) => decide (w < 65536 * s.spadPairs c)
    | none => false

/-! Placement (Table 9-1). Caches are numbered: L1I of core c is c, L1D 64 + c, L2 of cluster k 128 + k, L3 slice s 136 + s; the
descriptor cache of core c is 168 + c. -/

def cL1I (c : Nat) : Nat := c
def cL1D (c : Nat) : Nat := 64 + c
def cL2 (k : Nat) : Nat := 128 + k
def cL3 (sl : Nat) : Nat := 136 + sl
def cDesc (c : Nat) : Nat := 168 + c

/-- The L3 slice of a line (R210), from its word address. -/
def sliceOf (pa : Nat) : Nat :=
  let f := fun lo => (pa >>> lo) % 32
  f 3 ^^^ f 19 ^^^ f 24 ^^^ f 29 ^^^ f 34 ^^^ ((pa >>> 39) % 2)

/-- The set of a line in a cache (Table 9-1). -/
def setOf (id line : Nat) : Nat := if id < 128 then line % 128 else if id < 136 then line % 4096 else (line / 32) % 2048

/-- The ways of a cache. -/
def waysOf (id : Nat) : Nat := if id < 128 then 4 else if id < 136 then 8 else 16

/-- The victim buffer's lines (Table 9-1). -/
def vbufCap (id : Nat) : Nat := if id < 64 then 0 else if id < 128 then 4 else if id < 136 then 16 else 32

/-- The level of a cache: 0 L1I, 1 L1D, 2 L2, 3 L3. -/
def levelOf (id : Nat) : Nat := if id < 64 then 0 else if id < 128 then 1 else if id < 136 then 2 else 3

def tagKey (id set way : Nat) : Nat := id * 2 ^ 20 + set * 32 + way

namespace State

def tagAt (s : State) (id set way : Nat) : TagEnt := Tab.get s.tags (tagKey id set way) {}
def setTag (s : State) (id set way : Nat) (e : TagEnt) : State := { s with tags := Tab.set s.tags (tagKey id set way) e {} }

/-- The way of a cache that holds a line. -/
def findWay (s : State) (id line : Nat) : Option Nat :=
  findN (waysOf id) (fun w => let e := s.tagAt id (setOf id line) w; e.valid && e.line == line)

def holds (s : State) (id line : Nat) : Bool := (s.findWay id line).isSome

/-- Change the tag entry of a line a cache holds. -/
def modTag (s : State) (id line : Nat) (f : TagEnt → TagEnt) : State :=
  match s.findWay id line with
  | some w => s.setTag id (setOf id line) w (f (s.tagAt id (setOf id line) w))
  | none => s

/-! Values. -/

/-- The stored word every coherent requester sees (R211, R213): the highest dirty copy, else what DRAM, the scratchpad or the log
SRAM holds. -/
def view (s : State) (pa : Nat) : Stored :=
  match Tab.get s.l1d pa none with
  | some x => x
  | none => match Tab.get s.l2 pa none with
    | some x => x
    | none => match Tab.get s.l3 pa none with
      | some x => x
      | none => Tab.get s.mem pa 0#80

/-- Move one dirty word of a level to the level below (3: to DRAM). -/
def dropWord (s : State) (lvl pa : Nat) : State :=
  match lvl with
  | 1 => match Tab.get s.l1d pa none with
    | some x => { s with l1d := Tab.set s.l1d pa none none, l2 := Tab.set s.l2 pa (some x) none }
    | none => s
  | 2 => match Tab.get s.l2 pa none with
    | some x => { s with l2 := Tab.set s.l2 pa none none, l3 := Tab.set s.l3 pa (some x) none }
    | none => s
  | _ => match Tab.get s.l3 pa none with
    | some x => { s with l3 := Tab.set s.l3 pa none none, mem := Tab.set s.mem pa x 0#80 }
    | none => s

/-- The channel of a DRAM line (R237). -/
def channelOf (s : State) (pa : Nat) : Nat :=
  let k := 1 + s.rf (Reg.MEMC_MCFG 0) 9 8
  let i := ((pa >>> 3) ^^^ (pa >>> 14)) % 2 ^ k
  i / 2

/-- Where DDR5 holds a line (R237): its channel, subchannel, burst in the row, bank group, bank, rank and row. -/
structure DramLoc where
  channel : Nat
  sub     : Nat
  burst   : Nat
  group   : Nat
  bank    : Nat
  rank    : Nat
  row     : Nat
  deriving DecidableEq, Repr

/-- The place of a line of DRAM, from its word address and MCFG of channel 0 (R237, Table 9-7). -/
def dramLoc (s : State) (pa : Nat) : DramLoc :=
  let m := s.ioR (Reg.MEMC_MCFG 0)
  let k := 1 + fld m 9 8
  let i := ((pa >>> 3) ^^^ (pa >>> 14)) % 2 ^ k
  let q := pa >>> (3 + k)
  let g := if bitAt m 1 then 2 else 3
  let r := if bitAt m 4 then 1 else 0
  { channel := i / 2, sub := i % 2, burst := q % 64, group := (q >>> 6) % 2 ^ g, bank := (q >>> (6 + g)) % 4,
    rank := (q >>> (8 + g)) % 2 ^ r, row := q >>> (8 + g + r) }

/-- A dirty word of the line stands at a level. -/
def dirtyAt (s : State) (lvl line : Nat) : Bool :=
  (List.range 8).any (fun w =>
    (Tab.get (if lvl = 1 then s.l1d else if lvl = 2 then s.l2 else s.l3) (8 * line + w) none).isSome)

/-- The words of a line whose DRAM copy is written back clean: those that L3 delivered poisoned are stored so (R232). -/
def poisonClean (s : State) (line : Nat) : State :=
  forN 8 (fun w s =>
    let pa := 8 * line + w
    let (x, st) := Ecc.decode (Tab.get s.mem pa 0#80)
    if st == .uncorr && (Tab.get s.l3 pa none).isNone then { s with mem := Tab.set s.mem pa (Ecc.poison x) 0#80 } else s) s

/-- Move the dirty words of a line from a level to the level below; a line that goes to DRAM is one line write (R209). -/
def dropLine (s : State) (lvl line : Nat) : State :=
  let s := if lvl = 3 && s.dirtyAt 3 line then (s.poisonClean line).countUn 0x05 (s.channelOf (8 * line)) else s
  forN 8 (fun w s => s.dropWord lvl (8 * line + w)) s

/-- Write a stored word at a level (0: DRAM, scratchpad or log SRAM; 1 L1D, 2 L2, 3 L3); no copy above it stays. -/
def putAt (s : State) (lvl pa : Nat) (x : Stored) : State :=
  match lvl with
  | 1 => { s with l1d := Tab.set s.l1d pa (some x) none }
  | 2 => { s with l1d := Tab.set s.l1d pa none none, l2 := Tab.set s.l2 pa (some x) none }
  | 3 => { s with l1d := Tab.set s.l1d pa none none, l2 := Tab.set s.l2 pa none none, l3 := Tab.set s.l3 pa (some x) none }
  | _ => { s with l1d := Tab.set s.l1d pa none none, l2 := Tab.set s.l2 pa none none, l3 := Tab.set s.l3 pa none none,
                  mem := Tab.set s.mem pa x 0#80 }

/-- The clusters whose L2 holds a line. -/
def l2Holders (s : State) (line : Nat) : List Nat := (List.range 8).filter (fun k => s.holds (cL2 k) line)
/-- The cores whose L1D holds a line. -/
def l1dHolders (s : State) (line : Nat) : List Nat := (List.range 64).filter (fun c => s.holds (cL1D c) line)
/-- The cores whose L1I holds a line. -/
def l1iHolders (s : State) (line : Nat) : List Nat := (List.range 64).filter (fun c => s.holds (cL1I c) line)

/-- The reservation of a core on a line ends (R152). -/
def clearResvCore (s : State) (c line : Nat) : State :=
  if (s.core c).resv == some line then s.modCore c (fun x => { x with resv := none }) else s

/-- A write to a line ends every reservation on it (R152). -/
def clearResv (s : State) (line : Nat) : State := (List.range 64).foldl (fun s c => s.clearResvCore c line) s

/-- Mark a line dirty in the caches of the level that has just received its dirty words, or pass the words on where no cache there
holds the line. -/
def settle (s : State) (line : Nat) : State :=
  let s := if s.dirtyAt 2 line then
      (match s.l2Holders line with
       | k :: _ => s.modTag (cL2 k) line (fun e => { e with dirty := true })
       | [] => if s.vbuf.any (fun v => levelOf v.1 == 2 && v.2 == line) then s else s.dropLine 2 line)
    else s
  if s.dirtyAt 3 line then
    (if s.holds (cL3 (sliceOf (8 * line))) line then s.modTag (cL3 (sliceOf (8 * line))) line (fun e => { e with dirty := true })
     else if s.vbuf.any (fun v => levelOf v.1 == 3 && v.2 == line) then s else s.dropLine 3 line)
  else s

/-- A line leaves the L1I of a core: its copy goes. -/
def dropL1I (s : State) (c line : Nat) : State :=
  let s := s.modTag (cL1I c) line (fun _ => {})
  forN 8 (fun w s => { s with l1i := Tab.set s.l1i (c * 2 ^ 40 + 8 * line + w) none none }) s

/-- The dirty data of a line in a core's L1D merges into the next level; the copy stays clean. -/
def cleanL1D (s : State) (c line : Nat) : State :=
  if (match s.findWay (cL1D c) line with | some w => (s.tagAt (cL1D c) (setOf (cL1D c) line) w).dirty | none => false)
  then (((s.countCore c 0x07).dropLine 1 line).modTag (cL1D c) line (fun e => { e with dirty := false })).settle line
  else s

/-- A line leaves a core's L1D after its dirty data has merged; this ends the core's reservation on it (R152, R222). -/
def evictL1D (s : State) (c line : Nat) : State :=
  if s.holds (cL1D c) line then ((s.cleanL1D c line).modTag (cL1D c) line (fun _ => {})).clearResvCore c line else s

/-- The copies of a line in the L1 caches of a cluster leave, their dirty data merged (inclusion, R212). -/
def evictL1s (s : State) (k line : Nat) : State :=
  (List.range 8).foldl (fun s j =>
    let s := s.evictL1D (8 * k + j) line
    if s.holds (cL1I (8 * k + j)) line then s.dropL1I (8 * k + j) line else s) s

/-- The dirty data of a line in a cluster's L2, with the copies above it, merges into L3. -/
def cleanL2 (s : State) (k line : Nat) : State :=
  let s := (List.range 8).foldl (fun s j => s.cleanL1D (8 * k + j) line) s
  let s := if s.dirtyAt 2 line then s.countCl k 0x04 0 else s
  ((s.dropLine 2 line).modTag (cL2 k) line (fun e => { e with dirty := false })).settle line

/-- A line leaves a cluster's L2 with every copy above it. -/
def evictL2 (s : State) (k line : Nat) : State :=
  if s.holds (cL2 k) line then ((s.evictL1s k line).cleanL2 k line).modTag (cL2 k) line (fun _ => {}) else s

/-- A line leaves L3 and every cache above it, its dirty data written to DRAM. -/
def evictL3 (s : State) (line : Nat) : State :=
  let s := (List.range 8).foldl (fun s k => s.evictL2 k line) s
  let id := cL3 (sliceOf (8 * line))
  if s.holds id line then (s.dropLine 3 line).modTag id line (fun _ => {}) else s

/-- An entry leaves a victim buffer: its write-back is acknowledged and its words stand at the next level (R219). -/
def vbufAck (s : State) (id line : Nat) : State :=
  let s := { s with vbuf := s.vbuf.erase (id, line) }
  (s.dropLine (levelOf id) line).settle line

/-- A victim is evicted: a dirty line enters the victim buffer and its write-back is issued; a full buffer first waits for its oldest
entry's acknowledgement (R219). The copies above a victim leave first (R212). -/
def victimize (s : State) (id set way : Nat) : State :=
  let e := s.tagAt id set way
  if !e.valid then s
  else
    let line := e.line
    match levelOf id with
    | 0 => s.dropL1I id line
    | lvl =>
      let s := if lvl = 2 then s.evictL1s (id - 128) line
        else if lvl = 3 then (List.range 8).foldl (fun s k => s.evictL2 k line) s
        else s.clearResvCore (id - 64) line
      let d := (s.tagAt id set way).dirty
      let s := s.setTag id set way {}
      if d then
        let s := if lvl = 1 then s.countCore (id - 64) 0x07 else if lvl = 2 then s.countCl (id - 128) 0x04 0 else s
        let mine := s.vbuf.filter (fun v => v.1 == id)
        let s := if vbufCap id ≤ mine.length then
            (match mine with | v :: _ => s.vbufAck v.1 v.2 | [] => s)
          else s
        { s with vbuf := s.vbuf ++ [(id, line)] }
      else s

/-- One step of a Shuffle register (R218). -/
def shuffleNext (x : BitVec 16) : BitVec 16 :=
  let n := x.toNat
  let b := (n >>> 15) ^^^ (n >>> 13) ^^^ (n >>> 12) ^^^ (n >>> 10)
  BitVec.ofNat 16 (2 * n + b % 2)

/-- The way chosen for an allocation among the eligible ways, in ascending order (R218): the lowest invalid one, else by Shuffle. -/
def chooseWay (s : State) (id set : Nat) (elig : List Nat) : Option Nat × State :=
  match elig.find? (fun w => !(s.tagAt id set w).valid) with
  | some w => (some w, s)
  | none =>
    if elig.isEmpty then (none, s)
    else
      let x := shuffleNext (Tab.get s.shuf id 0xACE1#16)
      (elig[x.toNat % elig.length]?, { s with shuf := Tab.set s.shuf id x 0xACE1#16 })

/-- Place a line in a cache. -/
def allocate (s : State) (id line : Nat) (elig : List Nat) (excl : Bool) : State :=
  let set := setOf id line
  match s.chooseWay id set elig with
  | (some w, s) => (s.victimize id set w).setTag id set w { valid := true, line := line, dirty := false, excl := excl }
  | (none, s) => s

/-- A transition of a key starts where none runs and the request differs from the current value; a request made while one runs follows it
(R19). -/
def modeStart (s : State) (key req cur : Nat) : State :=
  if Tab.get s.modeTo key 0 != 0 || req == cur then s else { s with modeTo := Tab.set s.modeTo key (req + 1) 0 }

/-- The transition of a key is over. -/
def modeOver (s : State) (key : Nat) : State :=
  if Tab.get s.modeTo key 0 = 0 then s else { s with modeTo := Tab.set s.modeTo key 0 0 }

/-- The target of a transition in progress, or the value that stands (R19). -/
def modeTarget (s : State) (key cur : Nat) : Nat :=
  match Tab.get s.modeTo key 0 with | 0 => cur | t + 1 => t

/-- The ways of an L2 that an allocation may take: powered, in cache use, and in no transition out of either (R218, R224, R226, R229). -/
def l2Ways (s : State) (k : Nat) : List Nat :=
  let pwr := s.rf (Reg.L2C_L2CTL k) 15 12
  let pwr := pwr &&& s.modeTarget (8 + k) pwr
  let sp := s.rf (Reg.L2C_L2CTL k) 19 18
  let sp := max sp (s.modeTarget k sp)
  (List.range 8).filter (fun w => pwr.testBit (w / 2) && decide (w / 2 < 4 - sp))

/-- Who allocates in L3 (R227): a requester of WMASKr for r from 0 to 4 (Sweep, Meld, Dealer, Corgil, safety monitor), or another (5). The ways
of a quarter that is cleaned for power-down are not eligible (R218, R229). -/
def l3Ways (s : State) (sl r : Nat) : List Nat :=
  let q := s.rf (Reg.L3C_L3CTL sl) 7 4
  let q := q &&& s.modeTarget (16 + sl) q
  let powered := (List.range 16).filter (fun w => q.testBit (w / 4))
  let resv := (List.range 5).foldl (fun a k => a ||| s.rf (Reg.L3C_WMASK sl k) 31 16) 0
  let mine := if r < 5 then powered.filter (fun w => (s.rf (Reg.L3C_WMASK sl r) 31 16).testBit w) else []
  if mine.isEmpty then powered.filter (fun w => !resv.testBit w) else mine

/-- A demand read of a DRAM word by its channel (R239): a correctable error is counted and rewritten, an uncorrectable one is
recorded, raises the safety input of R243, and is delivered poisoned. -/
def dramReadWord (s : State) (pa : Nat) : State :=
  let x := Tab.get s.mem pa 0#80
  match Ecc.decode x with
  | (_, .ok) => s
  | (w, .corrected) =>
    let ch := s.channelOf pa
    let was := s.rf (Reg.MEMC_MERR ch) 63 48
    let s := (s.satAdd (Reg.MEMC_MERR ch) 63 48 1).countUn 0x06 ch
    let s := if was = 0xFFFE then s.pulse (352 + ch) else s
    { s with mem := Tab.set s.mem pa (Ecc.encode w) 0#80 }
  | (_, .uncorr) =>
    let ch := s.channelOf pa
    let s := s.satAdd (Reg.MEMC_MERR ch) 31 16 1
    let s := if s.rb (Reg.MEMC_MERR ch) 47 then s
      else
        let (sy, p) := Ecc.syndrome x
        let s := s.ioW (Reg.MEMC_MUEADDR ch) (putFld 63 63 p ||| putFld 62 56 sy ||| putFld 39 0 pa)
        (s.wf (Reg.MEMC_MERR ch) 46 46 0).setB (Reg.MEMC_MERR ch) 47
    s.raiseFault (64 + ch)

/-- A demand read of a line. -/
def dramReadLine (s : State) (line : Nat) : State :=
  forN 8 (fun w s => s.dramReadWord (8 * line + w)) (s.countUn 0x04 (s.channelOf (8 * line)))

/-- A line enters L3 for a requester of the masks (R227), read from DRAM where L3 misses; a pending write-back of the line is
acknowledged first (R219). -/
def fillL3 (s : State) (r line : Nat) : State :=
  let sl := sliceOf (8 * line)
  if s.holds (cL3 sl) line then s.countUn 0x02 sl
  else
    let s := s.countUn 0x03 sl
    let s := if s.vbuf.contains (cL3 sl, line) then s.vbufAck (cL3 sl) line else s
    (s.dramReadLine line).allocate (cL3 sl) line (s.l3Ways sl r) false

/-- Every other holder gives up or downgrades its copy (R212): dirty data merges into the next level; for a write every other copy is
invalidated. keepK and keepC are the requester's own cluster and core. -/
def recallLine (s : State) (line : Nat) (write : Bool) (keepK keepC : Option Nat) : State :=
  let s := (s.l1dHolders line).foldl (fun s c =>
    if keepC == some c then s else if write then s.evictL1D c line else s.cleanL1D c line) s
  (s.l2Holders line).foldl (fun s k =>
    if keepK == some k then s
    else
    let s := s.countCl k 0x05 0
    if write then s.evictL2 k line
    else (s.cleanL2 k line).modTag (cL2 k) line (fun e => { e with excl := false })) s

/-- Pending write-backs of a line are acknowledged before another request for it is served (R219). -/
def ackLine (s : State) (line : Nat) : State :=
  (s.vbuf.filter (fun v => v.2 == line)).foldl (fun s v => s.vbufAck v.1 v.2) s

/-- L2 of a cluster is enabled (R223). -/
def l2On (s : State) (k : Nat) : Bool := s.rb (Reg.L2C_L2CTL k) 0
def l1dOn (s : State) (c : Nat) : Bool := s.rb (Reg.L2C_L1CTL (c / 8) (c % 8)) 1 && s.l2On (c / 8)
def l1iOn (s : State) (c : Nat) : Bool := s.rb (Reg.L2C_L1CTL (c / 8) (c % 8)) 0 && s.l2On (c / 8)

/-- An access to a scratchpad window is counted by its cluster. -/
def countSpad (s : State) (pa : Nat) : State :=
  match spadOf pa with | some (k, _) => s.countCl k 0x07 0 | none => s

/-- The line comes to the level where an access through a port of a core is made, by R211, R212, R214 and R223; answers that level. own: the port
is the L1D's, and the L1D is enabled. A line that L2 has no way for is in no L1 (inclusion, R212). An access that no cache takes moves the whole
line to or from DRAM (R209). -/
def portFill (s : State) (own : Bool) (c pa : Nat) (write uncached : Bool) : Nat × State :=
  if !isDram pa then (0, s.countSpad pa)
  else
    let line := pa / 8
    let k := c / 8
    if uncached then
      let s := (s.ackLine line).recallLine line write none none
      if s.holds (cL3 (sliceOf pa)) line then (3, s) else (0, s.dramReadLine line)
    else
      let hit := own && s.holds (cL1D c) line
      let s := if own && !hit then s.countCore c 0x06 else s
      let s := if s.l2On k && !hit then s.countCl k (if s.holds (cL2 k) line then 0x02 else 0x03) (c % 8) else s
      let s := (s.ackLine line).recallLine line write (if s.l2On k then some k else none) (if own then some c else none)
      let s := s.fillL3 5 line
      let in3 := s.holds (cL3 (sliceOf pa)) line
      if !s.l2On k then ((if in3 then 3 else 0), s)
      else
        let s := if s.holds (cL2 k) line then (if write then s.modTag (cL2 k) line (fun e => { e with excl := true }) else s)
          else s.allocate (cL2 k) line (s.l2Ways k) write
        let in2 := s.holds (cL2 k) line
        if !(own && in2) then ((if in2 then 2 else if in3 then 3 else 0), s)
        else
          let s := if s.holds (cL1D c) line then s else s.allocate (cL1D c) line [0, 1, 2, 3] false
          (1, s)

/-- Outstanding fills of prefetches end: their lines arrive and are placed, in the order of the requests (R215, R216). -/
def endFills (s : State) (due : List (CoreId × Nat × Bool)) : State :=
  due.foldl (fun s e => (s.portFill (s.l1dOn e.1) e.1 (8 * e.2.1) e.2.2 false).2) { s with fills := s.fills.filter (fun e => !due.contains e) }

/-- An access waits for the outstanding fill that blocks its port, and is merged with those of its line (R215, R216). -/
def awaitFills (s : State) (c line : Nat) : State := s.endFills (s.fills.filter (fun e => e.1 == c || e.2.1 == line))

/-- The line comes to the level where a core's load or store is made. -/
def coreFill (s : State) (c pa : Nat) (write uncached : Bool) : Nat × State :=
  (s.awaitFills c (pa / 8)).portFill (s.l1dOn c) c pa write uncached

/-- Mark the line dirty where a write of the level has put it. -/
def markDirty (s : State) (lvl c line : Nat) : State :=
  match lvl with
  | 1 => s.modTag (cL1D c) line (fun e => { e with dirty := true })
  | 2 => s.modTag (cL2 (c / 8)) line (fun e => { e with dirty := true })
  | 3 => s.modTag (cL3 (sliceOf (8 * line))) line (fun e => { e with dirty := true })
  | _ => s

/-- Decode the stored word of an address. -/
def peekWord (s : State) (pa : Nat) : Word × Ecc.Status := Ecc.decode (s.view pa)

/-- What a read of the log SRAM corrects is written back in place (R518). -/
def logScrub (s : State) (pa : Nat) : State :=
  if isLog pa then
    (match s.peekWord pa with | (w, .corrected) => { s with mem := Tab.set s.mem pa (Ecc.encode w) 0#80 } | _ => s)
  else s

/-- A core reads a word of memory: the placement its access causes, the word, and whether it is uncorrectable. -/
def coreRead (s : State) (c pa : Nat) (uncached : Bool) : Word × Bool × State :=
  let s := (s.coreFill c pa false uncached).2
  let (w, st) := s.peekWord pa
  (w, st == .uncorr, s.logScrub pa)

/-- A core writes a whole word of memory. -/
def coreWrite (s : State) (c pa : Nat) (uncached : Bool) (w : Word) : State :=
  let (lvl, s) := s.coreFill c pa true uncached
  let s := if lvl = 0 && isDram pa then s.countUn 0x05 (s.channelOf pa) else s
  ((s.putAt lvl pa (Ecc.encode w)).markDirty lvl c (pa / 8)).clearResv (pa / 8)

/-- The line comes to L3 for an engine, a DMA channel or Corgil (R211, R227). -/
def engFill (s : State) (r pa : Nat) (write : Bool) : Nat × State :=
  if !isDram pa then (0, s.countSpad pa)
  else
    let line := pa / 8
    let s := (((s.endFills (s.fills.filter (fun e => e.2.1 == line))).ackLine line).recallLine line write none none).fillL3 r line
    ((if s.holds (cL3 (sliceOf pa)) line then 3 else 0), s)

/-- An engine's read. -/
def engRead (s : State) (r pa : Nat) : Word × Bool × State :=
  let s := (s.engFill r pa false).2
  let (w, st) := s.peekWord pa
  (w, st == .uncorr, s.logScrub pa)

/-- An engine's write of a whole stored word. -/
def engPut (s : State) (r pa : Nat) (x : Stored) : State :=
  let (lvl, s) := s.engFill r pa true
  ((s.putAt lvl pa x).markDirty lvl 0 (pa / 8)).clearResv (pa / 8)
def engWrite (s : State) (r pa : Nat) (w : Word) : State := s.engPut r pa (Ecc.encode w)

/-! Maintenance (R220–R222). -/

/-- Every dirty copy of a line is written to DRAM; the copies stay, clean. -/
def cleanLine (s : State) (line : Nat) : State :=
  let s := s.ackLine line
  let s := (List.range 64).foldl (fun s c => s.cleanL1D c line) s
  let s := (s.l2Holders line).foldl (fun s k => s.cleanL2 k line) s
  let s := ((s.dropLine 1 line).dropLine 2 line).dropLine 3 line
  s.modTag (cL3 (sliceOf (8 * line))) line (fun e => { e with dirty := false })

/-- Every copy of a line leaves, in every cache but the L1I ones for a data operation; dirty data that is still in a cache is
discarded. -/
def discardLine (s : State) (line : Nat) : State :=
  let s := { s with vbuf := s.vbuf.filter (fun v => v.2 != line) }
  let s := forN 8 (fun w s =>
    let pa := 8 * line + w
    { s with l1d := Tab.set s.l1d pa none none, l2 := Tab.set s.l2 pa none none, l3 := Tab.set s.l3 pa none none }) s
  let s := (s.l1dHolders line).foldl (fun s c => (s.modTag (cL1D c) line (fun _ => {})).clearResvCore c line) s
  let s := (s.l1iHolders line).foldl (fun s c => s.dropL1I c line) s
  let s := (s.l2Holders line).foldl (fun s k => s.modTag (cL2 k) line (fun _ => {})) s
  s.modTag (cL3 (sliceOf (8 * line))) line (fun _ => {})

/-- CCLEAN, CINV and CCINV on a line (R220): no effect outside DRAM. -/
def cclean (s : State) (pa : Nat) : State := if isDram pa then s.cleanLine (pa / 8) else s
def cinv (s : State) (pa : Nat) : State := if isDram pa then s.discardLine (pa / 8) else s
def ccinv (s : State) (pa : Nat) : State := if isDram pa then (s.cleanLine (pa / 8)).discardLine (pa / 8) else s
/-- IINV on a line (R220). -/
def iinv (s : State) (pa : Nat) : State :=
  if isDram pa then (s.l1iHolders (pa / 8)).foldl (fun s c => s.dropL1I c (pa / 8)) s else s

/-- A core fetches a word for execution (R211): from its L1I, which does not follow stores. With L1I off, or for an address that is not cached, the
fetch goes to the next level (R223). -/
def fetchRead (s : State) (c pa : Nat) (uncached : Bool) : Word × Bool × State :=
  if !isDram pa || uncached || !s.l1iOn c then
    let s := ((s.endFills (s.fills.filter (fun e => e.2.1 == pa / 8))).portFill false c pa false uncached).2
    let (w, st) := s.peekWord pa
    (w, st == .uncorr, s.logScrub pa)
  else
    let line := pa / 8
    let k := c / 8
    let s := if s.holds (cL1I c) line then s
      else
        let s := s.endFills (s.fills.filter (fun e => e.2.1 == line))
        let s := s.countCore c 0x05
        let s := s.countCl k (if s.holds (cL2 k) line then 0x02 else 0x03) (c % 8)
        let s := ((s.ackLine line).recallLine line false (some k) none).fillL3 5 line
        let s := if s.holds (cL2 k) line then s else s.allocate (cL2 k) line (s.l2Ways k) false
        if !s.holds (cL2 k) line then s
        else
          let s := s.allocate (cL1I c) line [0, 1, 2, 3] false
          forN 8 (fun w s => { s with l1i := Tab.set s.l1i (c * 2 ^ 40 + 8 * line + w) (some (s.view (8 * line + w))) none }) s
    let x := match Tab.get s.l1i (c * 2 ^ 40 + pa) none with | some x => x | none => s.view pa
    let (w, st) := Ecc.decode x
    (w, st == .uncorr, s)

/-- A prefetch of a core (R165): a line that its L1D does not hold becomes an outstanding fill; one it holds is requested for writing at once. -/
def prefetch (s : State) (c pa : Nat) (write uncached : Bool) : State :=
  if isDram pa && !uncached && s.l1dOn c && !s.holds (cL1D c) (pa / 8) then
    let s := s.awaitFills c (pa / 8)
    if s.holds (cL1D c) (pa / 8) then s else { s with fills := s.fills ++ [(Fin.ofNat 64 c, pa / 8, write)] }
  else (s.coreFill c pa write uncached).2

end State

end Sys2Proof.Machine
end

