-- ==== Sys2Proof/Machine/Seg.lean ====
section
/-!
DEFINITION. Tag classes (spec 02), segment descriptors and the segment check (spec 03 R74–R76), and the heap geometry (spec 10
R244–R248).
-/
namespace Sys2Proof.Machine

open Sys2Proof

/-! Tag classes. -/

/-- The built-in local-pointer tags (Table 2-2). -/
def builtinPtr (t : Tag) : Bool :=
  let n := t.toNat
  (decide (0x08 ≤ n) && decide (n ≤ 0x10)) || n == 0x14

namespace State

def ctag (s : State) (t : Tag) : CTag := if 0xC0 ≤ t.toNat then Tab.get s.ctags t.toNat {} else {}

/-- A local-pointer tag, built-in or customer (R38, R45, R59). -/
def isPtr (s : State) (t : Tag) : Bool := builtinPtr t || ((s.ctag t).declared && (s.ctag t).pointer)

/-- A reserved tag (R34): not in Table 2-2 and not a declared customer tag. -/
def isReserved (s : State) (t : Tag) : Bool :=
  let n := t.toNat
  n == 0x06 || n == 0x07 || n == 0x11 || (decide (0x15 ≤ n) && decide (n ≤ 0x17)) || (decide (0x1D ≤ n) && decide (n ≤ 0xBF)) ||
  (decide (0xC0 ≤ n) && !(s.ctag t).declared)

end State

/-- HDR, FWD and RET words (R37). -/
def isStructural (t : Tag) : Bool := t == Tag.hdr || t == Tag.fwd || t == Tag.ret

/-- The largest unit index of a DEV class (Table 2-10); none for a reserved class. -/
def devMax : Nat → Option Nat
  | 0x01 => some 63 | 0x02 => some 7 | 0x03 => some 511 | 0x04 => some 7 | 0x05 => some 31 | 0x06 => some 7 | 0x07 => some 15
  | 0x08 => some 3 | 0x09 => some 3 | 0x0A => some 7 | 0x0B => some 3 | 0x0C => some 95 | 0x0D => some 511 | _ => none

/-- A word is malformed (R52). -/
def State.malformed (s : State) (w : Word) : Bool :=
  if w.tag = Tag.chr then
    let v := w.pay.toNat
    !(decide (v < 0xD800) || (decide (0xE000 ≤ v) && decide (v ≤ 0x10FFFF)))
  else if w.tag = Tag.imm then decide (4 < w.pay.toNat)
  else if w.tag = Tag.cons then fld w.pay 51 48 != 0 || bitAt w.pay 0
  else if s.isPtr w.tag then fld w.pay 51 48 != 0
  else if w.tag = Tag.rem then fld w.pay 11 0 != 0
  else if w.tag = Tag.que then fld w.pay 63 34 != 0
  else if w.tag = Tag.dev then
    fld w.pay 51 43 != 0 || fld w.pay 39 16 != 0 ||
      (match devMax (fld w.pay 63 56) with | none => true | some m => decide (m < fld w.pay 15 0))
  else false

/-- SEL and OFFSET of a local-pointer payload (Table 2-6). -/
def ptrSel (p : W64) : Nat := fld p 63 52
def ptrOff (p : W64) : Nat := fld p 47 0
def ptrPay (sel off : Nat) : W64 := putFld 63 52 sel ||| putFld 47 0 off
/-- The parts of a RET payload (Table 3-6). -/
def retSel (p : W64) : Nat := fld p 63 52
def retOff (p : W64) : Nat := fld p 51 24
def retIdx (p : W64) : Nat := fld p 23 0
def retPay (ip : Ip) : W64 := putFld 63 52 ip.sel ||| putFld 51 24 ip.off ||| putFld 23 0 ip.idx

/-! Segments. -/

/-- Kinds of access the check of R76 distinguishes (R75): an ordinary read or write, an execute, and supervisor accesses to a STACK or a
BANK segment. -/
inductive Acc where
  | read | write | exec | stackRead | stackWrite | bankRead | bankWrite
  deriving DecidableEq, Repr

/-- Segment types (Table 3-4). -/
abbrev segDATA := 0
abbrev segCODE := 1
abbrev segHEAP := 2
abbrev segSTACK := 3
abbrev segBANK := 4
abbrev segIO := 5

/-- A descriptor (Table 3-4). -/
structure Desc where
  w0 : W64
  w1 : W64
  deriving DecidableEq, Repr

namespace Desc
def v (d : Desc) : Bool := bitAt d.w0 63
def typ (d : Desc) : Nat := fld d.w0 62 60
def heapId (d : Desc) : Nat := fld d.w0 53 50
def base (d : Desc) : Nat := fld d.w0 39 0
def limit (d : Desc) : Nat := fld d.w1 39 0
def uncached (d : Desc) : Bool := fld d.w1 41 40 == 1
/-- The right of a mode: R bit 2, W bit 1, X bit 0 of URWX or SRWX. -/
def right (d : Desc) (sup : Bool) (bit : Nat) : Bool := bitAt d.w0 ((if sup then 54 else 57) + bit)
/-- The access is allowed by TYPE and by the rights of the mode (R75, R76). -/
def allows (d : Desc) (a : Acc) (sup : Bool) : Bool :=
  match a with
  | .read => d.typ != segBANK && decide (d.typ < 6) && d.right sup 2
  | .write => d.typ != segBANK && decide (d.typ < 6) && d.right sup 1
  | .exec => (d.typ == segCODE || d.typ == segHEAP) && d.right sup 0
  | .stackRead => d.typ == segSTACK && d.right true 2
  | .stackWrite => d.typ == segSTACK && d.right true 1
  | .bankRead => d.typ == segBANK && d.right true 2
  | .bankWrite => d.typ == segBANK && d.right true 1
end Desc

/-- The fields and ranges of Table 3-4 and the rules of R75 about I/O space, which bind a descriptor with V 1 (R74). -/
def Desc.wellFormed (d : Desc) : Bool :=
  let inIo := decide (0xFF00000000 ≤ d.base)
  let touchesIo := decide (0xFF00000000 < d.base + d.limit)
  !d.v || (decide (d.typ < 6) && fld d.w0 49 40 == 0 && fld d.w1 63 42 == 0 && decide (fld d.w1 41 40 < 2) && decide (1 ≤ d.limit) &&
    decide (d.base + d.limit ≤ 2 ^ 40) && (if d.typ == segIO then inIo && d.uncached else !touchesIo))

/-- Grants that together cover n words from a base; k bounds the number of pieces. -/
def grantsCover (gs : List (Nat × Nat)) : Nat → Nat → Nat → Bool
  | 0, _, n => n == 0
  | k + 1, b, n =>
    if n = 0 then true
    else match gs.find? (fun g => decide (g.1 ≤ b) && decide (b < g.1 + g.2)) with
      | none => false
      | some g => grantsCover gs k (g.1 + g.2) (n - (g.1 + g.2 - b))

namespace State

/-- Descriptor sel of a partition's segment table (spec 03). -/
def tableDesc (s : State) (p sel : Nat) : Desc :=
  let b := (s.part p).segBase + 2 * sel
  ⟨(s.peekWord b).1.pay, (s.peekWord (b + 1)).1.pay⟩

/-- The descriptor a core uses: its cached copy, else the table's (spec 03). -/
def coreDesc (s : State) (c sel : Nat) : Desc :=
  match (s.core c).dcache.find? (fun e => e.2.1 == sel) with
  | some (_, _, a, b) => ⟨a, b⟩
  | none => s.tableDesc (s.corePart c) sel

/-- A core's use of a descriptor brings it into its descriptor cache of 64 entries; the victim is Shuffle's (spec 03, R218). -/
def touchDesc (s : State) (c sel : Nat) : State :=
  let x := s.core c
  if x.dcache.any (fun e => e.2.1 == sel) then s
  else
    let s := s.countCore c 0x08
    let d := s.tableDesc (s.corePart c) sel
    match findN 64 (fun i => !(x.dcache.any (fun e => e.1 == i))) with
    | some i => s.modCore c (fun x => { x with dcache := Tab.set x.dcache i (sel, d.w0, d.w1) (4096, 0, 0) })
    | none =>
      let sh := shuffleNext (Tab.get s.shuf (cDesc c) 0xACE1#16)
      ({ s with shuf := Tab.set s.shuf (cDesc c) sh 0xACE1#16 } : State).modCore c
        (fun x => { x with dcache := Tab.set x.dcache (sh.toNat % 64) (sel, d.w0, d.w1) (4096, 0, 0) })

/-- The checks of R76, in order, with a descriptor already read: the physical address, or the cause. -/
def checkDesc (s : State) (p sel : Nat) (d : Desc) (off : Nat) (a : Acc) (sup : Bool) : Except Cause Nat :=
  if (s.part p).tsize ≤ sel || !d.v then .error .segInvalid
  else if !d.allows a sup then .error .segRights
  else if d.limit ≤ off then .error .segLimit
  else if !s.implemented (d.base + off) then .error .segInvalid
  else .ok (d.base + off)

/-- A segment access of an engine or a DMA channel with the rights of a partition (R76, R299). -/
def engCheck (s : State) (p sel off : Nat) (a : Acc) (sup : Bool) : Except Cause (Nat × Desc) :=
  let d := s.tableDesc p sel
  match s.checkDesc p sel d off a sup with
  | .ok pa => .ok (pa, d)
  | .error e => .error e

/-! Heap segments (R244–R248). -/

/-- The heap segment whose home descriptor a selector of a partition names (HGEOM). -/
def heapOf (s : State) (p sel : Nat) : Option Nat :=
  findN 16 (fun h => let g := s.ioR (Reg.SWP_HGEOM h); bitAt g 47 && fld g 51 48 == p && fld g 63 52 == sel)

/-- The heap segment that contains a physical address. -/
def heapAt (s : State) (pa : Nat) : Option Nat :=
  findN 16 (fun h =>
    let g := s.ioR (Reg.SWP_HGEOM h)
    bitAt g 47 && decide (fld g 22 0 * 131072 ≤ pa) && decide (pa < (fld g 22 0 + fld g 46 29) * 131072))

def heapBase (s : State) (h : Nat) : Nat := s.rf (Reg.SWP_HGEOM h) 22 0 * 131072
def heapNreg (s : State) (h : Nat) : Nat := s.rf (Reg.SWP_HGEOM h) 46 29
def heapSel (s : State) (h : Nat) : Nat := s.rf (Reg.SWP_HGEOM h) 63 52
def heapPart (s : State) (h : Nat) : Nat := s.rf (Reg.SWP_HGEOM h) 51 48
def heapPhase (s : State) (h : Nat) : Nat := s.rf (Reg.SWP_HSTAT h) 2 0

/-- A region entry (Table 10-2). -/
def region (s : State) (h r : Nat) : W64 := Tab.get (s.heap h).regions r 0#64
def setRegion (s : State) (h r : Nat) (v : W64) : State := s.modHeap h (fun x => { x with regions := Tab.set x.regions r v 0#64 })
def regState (s : State) (h r : Nat) : Nat := fld (s.region h r) 63 61
def regTop (s : State) (h r : Nat) : Nat := fld (s.region h r) 40 23
def regTams (s : State) (h r : Nat) : Nat := fld (s.region h r) 22 5

/-- The number of FREE regions, kept in HSTAT.FREE. -/
def setRegState (s : State) (h r st : Nat) : State :=
  let old := s.regState h r
  let s := s.setRegion h r (setFld (s.region h r) 63 61 st)
  let s := if old = 0 && st != 0 then s.wf (Reg.SWP_HSTAT h) 63 46 (s.rf (Reg.SWP_HSTAT h) 63 46 - 1) else s
  if old != 0 && st = 0 then s.wrapAdd (Reg.SWP_HSTAT h) 63 46 1 else s

/-- A segment-offset access to a word of a FREE, EVAC or COPY region is refused (R248). -/
def regionOk (s : State) (pa : Nat) : Bool :=
  match s.heapAt pa with
  | none => true
  | some h => let st := s.regState h ((pa - s.heapBase h) / 131072); st == 1 || st == 2 || st == 5 || st == 6

/-- SEGSET keeps the home descriptors of the heap segments (R244): it changes nothing that places one, and makes no other descriptor of
TYPE HEAP. -/
def homeKept (s : State) (p k : Nat) (n : Desc) : Bool :=
  if (s.heapOf p k).isSome then
    let o := s.tableDesc p k
    n.v == o.v && n.typ == o.typ && n.heapId == o.heapId && n.base == o.base && n.limit == o.limit
  else !(n.v && n.typ == segHEAP)

end State

end Sys2Proof.Machine
end

