-- ==== Sys2Proof/Machine/Barrier.lean ====
section
/-!
DEFINITION. The Sweep barriers (spec 10 R246, R255, R256, R262–R267): the store check of Table 10-1, the logging of overwritten and
loaded references, reservation and copying of objects, the load barrier with its healing, and the return check.
-/
namespace Sys2Proof.Machine

open Sys2Proof

/-- A requester as the barriers see it: a core, or an engine with its snapshot buffer (0–3 the DMA engines, 4 Dealer, 5 Meld, 6 Sense,
7 Corgil) (R255). -/
inductive Who where
  | core (c : Nat)
  | eng (k : Nat)
  deriving DecidableEq, Repr

/-- The L3 way-mask requester of an engine (R227): Meld 1, Dealer 2, Corgil 3; the others share the unreserved ways. -/
def Who.mask : Who → Nat
  | .eng 5 => 1 | .eng 4 => 2 | .eng 7 => 3 | _ => 5

namespace State

/-- One word read, or written, by a requester. -/
def whoRead (s : State) (w : Who) (pa : Nat) (unc : Bool) : Word × Bool × State :=
  match w with
  | .core c => s.coreRead c pa unc
  | .eng _ => s.engRead w.mask pa
def whoWrite (s : State) (w : Who) (pa : Nat) (unc : Bool) (x : Word) : State :=
  match w with
  | .core c => s.coreWrite c pa unc x
  | .eng _ => s.engWrite w.mask pa x

/-- The running cycle's heap segment, where it belongs to partition p. -/
def cycleHeap (s : State) (p : Nat) : Option Nat :=
  match s.sweep.heap with
  | some h => if s.heapPart h = p then some h else none
  | none => none

/-- A local pointer, or a RET word, into heap segment h of its partition. -/
def ptrInto (s : State) (h : Nat) (w : Word) : Bool := s.isPtr w.tag && ptrSel w.pay == s.heapSel h
def retInto (s : State) (h : Nat) (w : Word) : Bool := w.tag == Tag.ret && retSel w.pay == s.heapSel h
/-- The offset of the object a pointer or a RET word names. -/
def refOff (w : Word) : Nat := if w.tag = Tag.ret then retOff w.pay else ptrOff w.pay

/-- An offset of h lies at or above the TAMS of its region. -/
def aboveTams (s : State) (h off : Nat) : Bool := decide (s.regTams h (off / 131072) ≤ off % 131072)
/-- The object at an offset is marked. -/
def marked (s : State) (h off : Nat) : Bool := Tab.get (s.heap h).marks off 0 == 1
def setMark (s : State) (h off : Nat) : State := s.modHeap h (fun x => { x with marks := Tab.set x.marks off 1 0 })

/-! Findings (R276). -/

/-- A finding of Table 10-8: counted, flagged (34 WILD, 33 MAL, 32 UE) and, for UE and WILD, raised to the safety monitor. -/
def sweepFinding (s : State) (bit pa : Nat) : State :=
  let first := s.rf Reg.SWP_SWERR 34 32 == 0
  let s := s.satAdd Reg.SWP_SWERR 63 48 1
  let s := if first then s.ioW Reg.SWP_SWERRADDR (putFld 39 0 pa) else s
  let s := s.setB Reg.SWP_SWERR bit
  if bit = 33 then s else s.raiseFault 68

/-! Snapshot buffers (R255). -/

/-- A reference enters the mark queue. -/
def enqueueMark (s : State) (w : Word) : State := { s with sweep := { s.sweep with markQ := s.sweep.markQ ++ [w] } }

/-- A word enters the requester's 32-entry snapshot buffer; a full one first drains its oldest entry. -/
def logRef (s : State) (who : Who) (w : Word) : State :=
  match who with
  | .core c =>
    let s := s.countCore c 0x12
    (match (s.core c).snapBuf with
     | o :: t => if 32 ≤ t.length + 1 then (s.enqueueMark o).modCore c (fun x => { x with snapBuf := t ++ [w] })
                 else s.modCore c (fun x => { x with snapBuf := x.snapBuf ++ [w] })
     | [] => s.modCore c (fun x => { x with snapBuf := [w] }))
  | .eng k =>
    let b := Tab.get s.sweep.bufs k []
    let s := match b with
      | o :: t => if 32 ≤ t.length + 1 then s.enqueueMark o else s
      | [] => s
    let b := if 32 ≤ b.length then b.tail else b
    { s with sweep := { s.sweep with bufs := Tab.set s.sweep.bufs k (b ++ [w]) [] } }

/-- The write barrier's logging of the word a store overwrites (R255): a reference into the heap segment h being collected, which only a requester
of its partition can overwrite; a REM word whoever stores. -/
def storeLog (s : State) (who : Who) (p : Nat) (old : Word) (pa : Nat) : State :=
  match s.sweep.heap with
  | none => s
  | some h =>
    let ph := s.heapPhase h
    if ph < 1 ∨ 3 < ph then s
    else if !((s.heapPart h == p && (s.ptrInto h old || s.retInto h old)) || old.tag == Tag.rem) then s
    else
      let off := pa - s.heapBase h
      if s.heapAt pa == some h && s.aboveTams h off then s else s.logRef who old

/-- The store check of R246 (Table 10-1): a pointer into heap segment h may be stored at a destination. dSel and dDesc are the destination's
selector and descriptor; none for a destination inside an engine. -/
def storeOk (s : State) (p : Nat) (w : Word) (dSel : Nat) (d : Desc) (pa : Nat) : Bool :=
  if !s.isPtr w.tag then true
  else
    match s.heapOf p (ptrSel w.pay) with
    | none => true
    | some h =>
      match s.heapAt pa with
      | some h' => h == h'
      | none =>
        if d.typ == segSTACK || d.typ == segBANK then true
        else d.typ == segDATA && (s.heap h).roots.contains dSel

/-! Objects. -/

/-- Words an object takes: SIZE + 1, or 2 for a CONS, rounded up to even (R249). -/
def roundEven (n : Nat) : Nat := n + n % 2

/-- The next COPY region in which n words fit (R262). -/
def copySlot (s : State) (h n : Nat) : List Nat → Option (Nat × List Nat)
  | [] => none
  | r :: t => if s.regTop h r + n ≤ 131072 then some (r, r :: t) else copySlot s h n t

/-- The words of the object at an address of h by its first word; a FWD word names the copy that has its header (R51). -/
def objLen (s : State) (h pa : Nat) : Nat :=
  let w := (s.peekWord pa).1
  let w := if w.tag = Tag.fwd then (s.peekWord (s.heapBase h + ptrOff w.pay)).1 else w
  if w.tag = Tag.hdr then roundEven (fld w.pay 39 0 + 1) else 2

/-- The objects of a region lie one after another from its first word (R249, R262): whether one begins at off. A first word that is uncorrectable
hides where the next one begins. k bounds the objects of a region. -/
def beginsFrom (s : State) (h off : Nat) : Nat → Nat → Bool
  | 0, _ => false
  | k + 1, lo =>
    if off ≤ lo then off == lo
    else (s.peekWord (s.heapBase h + lo)).2 == .uncorr || s.beginsFrom h off k (lo + s.objLen h (s.heapBase h + lo))

/-- An object begins at an offset of h (R245, R276). -/
def beginsObj (s : State) (h off : Nat) : Bool :=
  let r := off / 131072
  let st := s.regState h r
  decide (off < s.heapNreg h * 131072) && off % 2 == 0 && st != 0 && st != 6 && decide (off % 131072 < s.regTop h r) &&
    (if st = 5 then off % 131072 == 0 else s.beginsFrom h off 65537 (r * 131072))

/-- Sweep declines a reservation: the object stays in place for the rest of the cycle (R262, R266, R269, R270). -/
def decline (s : State) (off : Nat) : Option Nat × State :=
  (none, { s with sweep := { s.sweep with declined := if s.sweep.declined.contains off then s.sweep.declined else s.sweep.declined ++ [off] } })

/-- Sweep reserves an object of an EVAC region (R262, R269, R270): the new offset, or none where it declines. The header (or the car) goes
to the new location at once and a FWD word takes its place; the other words are in transit until they are copied. A reference that names no
object's beginning, or a cell where an object with a header stands, is WILD (R276). REMAP reserves nothing: what EVAC left stays (R266,
DEDUCED: notes/assumptions/81.md). -/
def reserve (s : State) (h off : Nat) (tag : Tag) : Option Nat × State :=
  let pa := s.heapBase h + off
  let (w, u, s) := s.engRead 0 pa
  if u then (s.sweepFinding 32 pa).decline off
  else
    let isCons := tag == Tag.cons
    let n := if isCons then 2 else roundEven (fld w.pay 39 0 + 1)
    let held := Tab.get (s.heap h).holds (off / 131072) 0 != 0
    let objHeld := s.dma.any (fun e => e.2.holds.any (fun x => x == (h, 2 ^ 40 + off)))
    if s.sweep.declined.contains off || s.heapPhase h == 7 then (none, s)
    else if !s.beginsObj h off || isCons == (w.tag == Tag.hdr) then (none, s.sweepFinding 34 pa)
    else if (!isCons && bitAt w.pay 54) || held || objHeld then s.decline off
    else
      match s.copySlot h n (s.heap h).copies with
      | none => s.decline off
      | some (r, rest) =>
        let noff := r * 131072 + s.regTop h r
        if tag == Tag.code && 2 ^ 28 ≤ noff then s.decline off
        else
          let s := s.modHeap h (fun x => { x with copies := rest, transit := x.transit ++ [(off, noff, n)] })
          let s := s.setRegion h r (setFld (s.region h r) 40 23 (s.regTop h r + n))
          let s := s.engWrite 0 (s.heapBase h + noff) w
          let s := s.engWrite 0 pa ⟨Tag.fwd, ptrPay (s.heapSel h) noff⟩
          let s := if s.marked h off then s.setMark h noff else s
          (some noff, s)

/-- The reservations on the lines of n words end (R152): a Sweep copy of their object. -/
def clearResvs (s : State) (pa n : Nat) : State :=
  forN ((pa + n - 1) / 8 - pa / 8 + 1) (fun i s => s.clearResv (pa / 8 + i)) s

/-- Sweep copies a reserved object, every word with its tag and any poison (R232, R262, R276). -/
def copyObject (s : State) (h : Nat) (e : Nat × Nat × Nat) : State :=
  let (old, new, n) := e
  let s := forN (n - 1) (fun i s =>
    let src := s.heapBase h + old + 1 + i
    let dst := s.heapBase h + new + 1 + i
    let (w, st) := Ecc.decode (s.view src)
    let s := if st == .uncorr then s.sweepFinding 32 src else s
    s.engPut 0 dst (if st == .uncorr then Ecc.poison w else Ecc.encode w)) s
  let s := (s.clearResvs (s.heapBase h + old) n).countUn 0x10 0 n
  s.modHeap h (fun x => { x with transit := x.transit.erase e })

/-- The reserved object in transit whose new copy contains an address. -/
def transitAt (s : State) (pa : Nat) : Option (Nat × (Nat × Nat × Nat)) :=
  match s.heapAt pa with
  | none => none
  | some h =>
    let off := pa - s.heapBase h
    ((s.heap h).transit.find? (fun e => decide (e.2.1 ≤ off) && decide (off < e.2.1 + e.2.2))).map (fun e => (h, e))

/-- An access to a word of an object in transit waits until it has been copied (R262): in EVAC the object is copied now; before that, copying
may not start, and the answer is none: the requester waits. -/
def settleTransit (s : State) (pa : Nat) : Option State :=
  match s.transitAt pa with
  | none => some s
  | some (h, e) => if 6 ≤ s.heapPhase h then some (s.copyObject h e) else none

/-- What the load barrier delivers for a loaded word. -/
inductive Loaded where
  | word (w : Word)
  | uncorr (headerOff : Nat)
  deriving DecidableEq, Repr

/-- The forwarding of a pointer or RET word into an EVAC region (R263, R264): the current word, by the FWD word found or by a reservation. -/
def forwardRef (s : State) (who : Who) (h : Nat) (w : Word) : Loaded × State :=
  let off := refOff w
  if s.regState h (off / 131072) != 3 then (.word w, s)
  else
    let (hw, u, s) := s.whoRead who (s.heapBase h + off) false
    if u then (.uncorr off, s)
    else
      let remake := fun (o : Nat) => if w.tag = Tag.ret then (⟨Tag.ret, setFld w.pay 51 24 o⟩ : Word) else ⟨w.tag, setFld w.pay 47 0 o⟩
      if hw.tag = Tag.fwd then (.word (remake (ptrOff hw.pay)), s)
      else
        match s.reserve h off (if w.tag = Tag.ret then Tag.code else w.tag) with
        | (some n, s) => (.word (remake n), s)
        | (none, s) => (.word w, s)

/-- A load-barrier action beyond the fast path is counted by the core (Table 20-5). -/
def countBarrier (s : State) (who : Who) : State := match who with | .core c => s.countCore c 0x11 | .eng _ => s

/-- The load barrier (R256, R263, R264, R267) on a word loaded from pa. byOffset: a segment-offset load; weak0: body word 0 of a WEAK. -/
def loadBarrier (s : State) (who : Who) (p : Nat) (w : Word) (pa : Option Nat) (byOffset weak0 : Bool) : Loaded × State :=
  match s.cycleHeap p with
  | none => (.word w, s)
  | some h =>
    let ph := s.heapPhase h
    if !(s.ptrInto h w || s.retInto h w) then (.word w, s)
    else if 1 ≤ ph ∧ ph ≤ 3 then
      let fromHeap := match pa with | some a => (s.heapAt a).isSome | none => false
      (.word w, if s.ptrInto h w && ((byOffset && fromHeap) || weak0) then (s.countBarrier who).logRef who w else s)
    else if ph = 4 then
      if s.ptrInto h w && !s.marked h (ptrOff w.pay) && !s.aboveTams h (ptrOff w.pay) then (.word (immW 0), s.countBarrier who)
      else (.word w, s)
    else if 5 ≤ ph then
      let s := if s.regState h (refOff w / 131072) = 3 then s.countBarrier who else s
      match s.forwardRef who h w with
      | (.uncorr o, s) => (.uncorr o, s)
      | (.word w', s) =>
        (.word w', match pa with
          | some a => if w' ≠ w ∧ (s.peekWord a).1 = w then s.whoWrite who a false w' else s
          | none => s)
    else (.word w, s)

end State

end Sys2Proof.Machine
end

