-- ==== Sys2Proof/Machine/Dealer.lean ====
section
/-!
DEFINITION. The Dealer (spec 11 R280–R298): queue numbers, generations and the Ash list, pushes, pops, dealing to waiters, creation and
retirement, the descriptor cache, and the timer wheel.
-/
namespace Sys2Proof.Machine

open Sys2Proof

/-! The reasons of Table 11-2. -/
namespace QR
abbrev noRight := 0x01
abbrev full := 0x02
abbrev xpart := 0x03
abbrev range := 0x04
abbrev inUse := 0x05
abbrev ash := 0x06
abbrev noSpace := 0x07
abbrev badCfg := 0x08
abbrev busy := 0x09
abbrev noTimer := 0x0A
abbrev cls := 0x0B
abbrev off := 0x0C
abbrev stale := 0x0D
end QR

/-- QUE payload fields (Table 2-8). -/
def queNum (p : W64) : Nat := fld p 15 0
def queGen (p : W64) : Nat := fld p 31 16
def quePush (p : W64) : Bool := bitAt p 32
def quePop (p : W64) : Bool := bitAt p 33
def queWord (q gen : Nat) (push pop : Bool) : Word :=
  ⟨Tag.que, putFld 15 0 q ||| putFld 31 16 gen ||| putFld 32 32 push.toNat ||| putFld 33 33 pop.toNat⟩

/-- Fields of a queue configuration (Table 11-1). -/
def cfgRes (c : Nat) : Bool := c.testBit 19
def cfgXp (c : Nat) : Bool := c.testBit 18
def cfgDcls (c : Nat) : Nat := (c >>> 16) % 4
def cfgCap (c : Nat) : Nat := 2 ^ ((c >>> 8) % 32)
/-- A configuration word keeps Table 11-1. -/
def cfgOk (c : Nat) : Bool :=
  c >>> 20 == 0 && (c >>> 13) % 8 == 0 && c % 256 == 0 && decide (2 ≤ (c >>> 8) % 32) && decide ((c >>> 8) % 32 ≤ 16)

/-- The next generation: 65,535 is followed by 1 (R290). -/
def nextGen (g : Nat) : Nat := if 65535 ≤ g then 1 else g + 1

/-- Items a queue holds: in its ring, and dealt but not committed (R284). -/
def QueueSt.count (q : QueueSt) : Nat := q.held.length

/-- The items in the ring, with their class. -/
def QueueSt.items (q : QueueSt) : List (Nat × Item) := (q.held.filter (fun e => e.1.isNone)).map (·.2)

/-- The item dealt to a core and not yet committed, with its class. -/
def QueueSt.dealtTo (q : QueueSt) (c : Nat) : Option (Nat × Item) := (q.held.find? (fun e => e.1 == some c)).map (·.2)

namespace State

/-- The partition whose range holds a queue number (R280). -/
def queueOwner (s : State) (q : Nat) : Option Nat :=
  findN 16 (fun p =>
    let r := s.ioR (Reg.DLR_QRANGE p)
    bitAt r 63 && decide (fld r 15 0 ≤ q) && decide (q < fld r 15 0 + fld r 32 16))

/-- The Dealer domains are off: no partition has a queue range (R298). -/
def dealerOff (s : State) : Bool := (findN 16 (fun p => s.rb (Reg.DLR_QRANGE p) 63)).isNone

/-- A generation is current for a queue (R290). -/
def genCurrent (s : State) (q gen : Nat) : Bool := (s.queue q).phase == .live && (s.queue q).gen == gen

/-- An identifier rests in the Ash list (R289). -/
def inAsh (s : State) (k : AshKind) (i : Nat) : Bool := s.ash.any (fun e => e.kind == k && e.ident == i)
/-- An identifier enters the Ash list for 2 ms. -/
def toAsh (s : State) (k : AshKind) (i : Nat) : State :=
  { s with ash := s.ash ++ [{ kind := k, ident := i, expiry := s.now + 2000000 }] }

/-- Use of a queue's descriptor (R291): it comes to the front of the cache; the least recently used unlocked entry is replaced. -/
def touchQueue (s : State) (q : Nat) : State :=
  let l := q :: s.qcache.filter (· != q)
  let l := if l.length ≤ 4096 then l
    else match l.reverse.find? (fun x => !cfgRes (s.queue x).cfg) with
      | some v => l.erase v
      | none => l
  { s with qcache := l }

/-- An access by a handle looks up the descriptor of a LIVE queue, whatever its checks then say (R291, Table 11-3). -/
def lookQueue (s : State) (q : Nat) : State := if (s.queue q).phase == .live then s.touchQueue q else s

/-- The load barrier on the words of an item the Dealer delivers (R296): the item, or the segment and offset of an uncorrectable header
(R265). -/
def barrierItem (s : State) (p : Nat) (it : Item) : Except (Nat × Nat) Item × State :=
  let f := fun (w : Word) (r : Except (Nat × Nat) (List Word) × State) =>
    match r.1 with
    | .error _ => r
    | .ok l =>
      match r.2.loadBarrier (.eng 4) p w none false false with
      | (.word w', s) => (.ok (l ++ [w']), s)
      | (.uncorr o, s) => (.error (ptrSel w.pay, o), s)
  match f it.w3 (f it.w2 (f it.w1 (f it.w0 (.ok [], s)))) with
  | (.ok l, s) => (.ok ⟨l.getD 0 nilW, l.getD 1 nilW, l.getD 2 nilW, l.getD 3 nilW⟩, s)
  | (.error e, s) => (.error e, s)

/-- The pointer words of an item that leaves a ring are logged while marking runs, before anything can overwrite them (R255, R296; DESIGN
CHOICE: notes/assumptions/84.md). -/
def logItem (s : State) (p : Nat) (it : Item) : State :=
  [it.w0, it.w1, it.w2, it.w3].foldl (fun s w => s.storeLog (.eng 4) p w (2 ^ 40)) s

/-- An accepted item enters the queue: dealt to the waiter at the head of the list, or into the ring (R284, R285). -/
def acceptItem (s : State) (q cls : Nat) (it : Item) : State :=
  let s := (if (s.queue q).waiters.isEmpty then s else s.countUn 0x09 0).countUn 0x07 0
  (s.modQueue q (fun x =>
    match x.waiters with
    | c :: t => { x with waiters := t, held := x.held ++ [(some c, cls, it)] }
    | [] => { x with held := x.held ++ [(none, cls, it)] })).touchQueue q

/-- The checks of a push after the generation, in the order of R288: XPART, then the handle's right, the class, FULL. -/
def pushCheck (s : State) (p q : Nat) (right : Bool) (cls : Nat) : Option Nat :=
  let x := s.queue q
  if s.queueOwner q != some p && !cfgXp x.cfg then some QR.xpart
  else if !right then some QR.noRight
  else if 3 < cls then some QR.cls
  else if cfgCap x.cfg < x.count + 1 then some QR.full
  else none

/-- A push by an engine, the INTC, a timer or Corgil with the rights of a partition, in class 2 (R283, R284, R288, R289): the reason of a
refusal, or none. A generation that is not current is counted in DSTAT.SDROP. -/
def enginePush (s : State) (p q gen : Nat) (it : Item) : Option Nat × State :=
  if s.dealerOff then (some QR.off, s)
  else
  let s := s.lookQueue q
  if !s.genCurrent q gen then (some QR.stale, (s.satAdd Reg.DLR_DSTAT 31 16 1).countUn 0x08 0)
  else match s.pushCheck p q true 2 with
    | some r => (some r, s.countUn 0x08 0)
    | none => (none, s.acceptItem q 2 it)

/-- The item a pop removes: the head of the lowest-numbered class that is not empty (R285). -/
def headItem (x : QueueSt) : Option (Nat × Item) :=
  match findN 4 (fun k => x.items.any (fun e => e.1 == k)) with
  | some k => x.items.find? (fun e => e.1 == k)
  | none => none

/-- An item leaves the queue for a requester: the ring word's logging and the barrier on its words (R255, R285, R296). An uncorrectable header
leaves it where it is (R265; DEDUCED: notes/assumptions/84.md). -/
def takeItem (s : State) (q : Nat) (e : Option Nat × Nat × Item) : Except (Nat × Nat) Item × State :=
  let p := (s.queueOwner q).getD 0
  match s.barrierItem p e.2.2 with
  | (.error x, s) => (.error x, s)
  | (.ok it, s) => (.ok it, (s.modQueue q (fun x => { x with held := x.held.erase e })).logItem p e.2.2)

/-- Remove the head item, if there is one. -/
def popItem (s : State) (q : Nat) : Except (Nat × Nat) (Option Item) × State :=
  let s := s.lookQueue q
  match headItem (s.queue q) with
  | none => (.ok none, s)
  | some e =>
    match s.takeItem q (none, e) with
    | (.ok it, s) => (.ok (some it), s)
    | (.error x, s) => (.error x, s)

/-- A core leaves a waiter list; an item dealt to it goes to the next waiter, or to its place in the ring (R284, R285). -/
def withdraw (s : State) (c : Nat) : State :=
  match (s.core c).wait with
  | .qwait q _ _ =>
    let s := s.modQueue q (fun x =>
      let ws := x.waiters.filter (· != c)
      let give := fun (o : Option Nat) => x.held.map (fun e => if e.1 == some c then (o, e.2) else e)
      if (x.dealtTo c).isNone then { x with waiters := ws }
      else match ws with
        | w :: t => { x with waiters := t, held := give (some w) }
        | [] => { x with waiters := [], held := give none })
    s.modCore c (fun x => { x with wait := .none })
  | _ => s

/-! Creation and retirement (R286, R287). -/

/-- Item slots of a partition's pool still free. -/
def poolFree (s : State) (p : Nat) : Nat := s.rf (Reg.DLR_QPOOL p) 31 0 - s.rf (Reg.DLR_QPOOL p) 63 32

/-- Locked descriptors (R291). -/
def lockedCount (s : State) : Nat := (s.queues.filter (fun e => e.2.phase == .live && cfgRes e.2.cfg)).length

/-- A queue becomes LIVE with its next generation and an empty ring. -/
def createQueue (s : State) (p q cfg : Nat) : State :=
  let s := s.modQueue q (fun x => { x with phase := .live, gen := if x.gen = 0 then 1 else x.gen, cfg := cfg, held := [], waiters := [] })
  (s.wrapAdd (Reg.DLR_QPOOL p) 63 32 (cfgCap cfg)).touchQueue q

/-- The number QNEW takes for IMM NIL: the FREE one that left the ASH state earliest (R286). -/
def freeNumber (s : State) (p : Nat) : Option Nat :=
  let r := s.ioR (Reg.DLR_QRANGE p)
  if !bitAt r 63 then none
  else (List.range (fld r 32 16)).foldl (fun best i =>
    let q := fld r 15 0 + i
    if (s.queue q).phase != .free then best
    else match best with
      | none => some q
      | some b => if (s.queue q).freedAt < (s.queue b).freedAt then some q else best) none

/-- QNEW (R286): the reason of a refusal, or the new queue's number. -/
def qnew (s : State) (p : Nat) (n : Option Nat) (cfg : Nat) : Except Nat (Nat × State) :=
  let r := s.ioR (Reg.DLR_QRANGE p)
  let space := fun (_ : Unit) => decide (cfgCap cfg ≤ s.poolFree p) && !(cfgRes cfg && decide (2048 ≤ s.lockedCount))
  match n with
  | some q =>
    if !(bitAt r 63 && decide (fld r 15 0 ≤ q) && decide (q < fld r 15 0 + fld r 32 16)) then .error QR.range
    else if !cfgOk cfg then .error QR.badCfg
    else if (s.queue q).phase == .live then .error QR.inUse
    else if (s.queue q).phase == .ash then .error QR.ash
    else if !space () then .error QR.noSpace
    else .ok (q, s.createQueue p q cfg)
  | none =>
    if !cfgOk cfg then .error QR.badCfg
    else match s.freeNumber p with
      | none => .error QR.noSpace
      | some q => if !space () then .error QR.noSpace else .ok (q, s.createQueue p q cfg)

/-- A timer slot retires: its generation advances and its number rests in the Ash list (R295). -/
def retireTimer (s : State) (t : Nat) : State :=
  let x := s.timer t
  let s := s.wf (Reg.DLR_TUSE x.part) 20 0 (s.rf (Reg.DLR_TUSE x.part) 20 0 - 1)
  (s.setTimer t { gen := nextGen x.gen }).toAsh .timer t

/-- Retirement of a LIVE queue: its timers are cancelled, the ring returns to the pool, the generation advances, the number rests (R287). -/
def retireQueue (s : State) (q : Nat) : State :=
  let x := s.queue q
  let p := (s.queueOwner q).getD 0
  let s := (s.timers.filter (fun e => e.2.armed && e.2.queue == q && e.2.qgen == x.gen)).foldl (fun s e => s.retireTimer e.1) s
  let s := s.wf (Reg.DLR_QPOOL p) 63 32 (s.rf (Reg.DLR_QPOOL p) 63 32 - cfgCap x.cfg)
  let s := s.modQueue q (fun x => { x with phase := .ash, gen := nextGen x.gen, held := [], waiters := [] })
  { s.toAsh .queue q with qcache := s.qcache.filter (· != q) }

/-! Timers (R295). -/

/-- The timer slot an arming TSET takes: a free one outside the Ash list, which one the spec leaves open (a free value). -/
def takeTimer (s : State) : Option Nat × State :=
  let (k, s) := s.nextFree
  let start := Config.freeNat k % 1048576
  let ok := fun t => !(s.timer t).armed && !s.inAsh .timer t
  (match findN 1048576 (fun i => ok ((start + i) % 1048576)) with
   | some i => some ((start + i) % 1048576)
   | none => none, s)

/-- Identifier of a timer (R295). -/
def timerId (slot gen : Nat) : W64 := putFld 35 20 gen ||| putFld 19 0 slot

/-- Arm a timer after v · 2^−16 s for a partition. -/
def armTimer (s : State) (t p q qgen : Nat) (v : Int) (it : Item) : State :=
  let due : Int := (s.now : Int) * 65536 + v * 1000000000
  (s.setTimer t { armed := true, gen := (s.timer t).gen, part := p, queue := q, qgen := qgen, armAt := s.now, due := due, item := it }).wrapAdd
    (Reg.DLR_TUSE p) 20 0 1

/-- The timers that may fire at a tick: those due, and armed before it. -/
def dueTimers (s : State) (ns : Nat) : List (Nat × TimerSt) :=
  s.timers.filter (fun e => e.2.armed && decide (e.2.due ≤ (ns : Int) * 65536) && decide (e.2.armAt < ns))

/-- The due timer that fires first: by due time, then by slot (R295). -/
def firstDue (l : List (Nat × TimerSt)) : Option (Nat × TimerSt) :=
  l.foldl (fun b e => match b with
    | none => some e
    | some x => if e.2.due < x.2.due then some e else b) none

/-- A timer fires: its item is pushed with the arming partition, and the slot retires; a refusal is counted (R295). -/
def fireTimer (s : State) (t : Nat) : State :=
  let x := s.timer t
  let (r, s) := s.enginePush x.part x.queue x.qgen x.item
  let s := (s.retireTimer t).countUn 0x0A 0
  match r with
  | none => s
  | some _ => (s.satAdd Reg.DLR_DSTAT 47 32 1).setB Reg.DLR_DSTAT 0

/-- The next tick of the wheel: the next instant at which TIMENS is a whole multiple of 1,000 ns. -/
def timerTick (s : State) : State :=
  let t := (s.now / 1000 + 1) * 1000
  let s := s.advanceTo t
  { s with lastTick := t, fireLeft := min 256 (s.dueTimers t).length }

/-- One due timer of the last tick fires. -/
def timerFire (s : State) : State :=
  if s.fireLeft = 0 then s
  else match firstDue (s.dueTimers s.lastTick) with
    | some e => { s.fireTimer e.1 with fireLeft := s.fireLeft - 1 }
    | none => { s with fireLeft := 0 }

/-- QINFO of the queue QQRY names, for a requester of partition p (R297). -/
def qinfo (s : State) (p : Nat) : W64 :=
  let q := s.rf Reg.DLR_QQRY 15 0
  match s.queueOwner q with
  | none => 0#64
  | some o =>
    if o != p && p != 0 then 0#64
    else
      let x := s.queue q
      putFld 63 62 (match x.phase with | .free => 0 | .live => 1 | .ash => 2) ||| putFld 61 46 x.gen ||| putFld 45 26 x.cfg |||
        putFld 25 9 x.count ||| putFld 8 8 (!x.waiters.isEmpty).toNat ||| putFld 7 7 (s.qcache.contains q).toNat ||| putFld 3 0 o

/-- Partition reset in the Dealer (R294). -/
def dealerReset (s : State) (p : Nat) : State :=
  let s := (List.range 64).foldl (fun s c => if s.coreOwned c && s.corePart c == p then s.withdraw c else s) s
  let s := (s.queues.filter (fun e => e.2.phase == .live && s.queueOwner e.1 == some p)).foldl (fun s e =>
    (s.satAdd Reg.DLR_DSTAT 63 48 e.2.count).retireQueue e.1) s
  let s := (s.timers.filter (fun e => e.2.armed && (e.2.part == p || s.queueOwner e.2.queue == some p))).foldl (fun s e => s.retireTimer e.1) s
  s.modPart p (fun x => { x with presetAt := some (s.now + 2000000) })

/-- The preset queues of a reset partition are recreated 2 ms later (R294). -/
def recreatePresets (s : State) (p : Nat) : State :=
  match (s.part p).presetAt with
  | none => s
  | some t =>
    let s := s.advanceTo t
    let s := (s.part p).presets.foldl (fun s e => if (s.queue e.1).phase == .live then s else s.createQueue p e.1 e.2) s
    let s := { s with ash := s.ash.filter (fun e => !(e.kind == AshKind.queue && (s.part p).presets.any (fun x => x.1 == e.ident))) }
    s.modPart p (fun x => { x with presetAt := none })

end State

end Sys2Proof.Machine
end

