-- ==== Sys2Proof/Machine/Intc.lean ====
section
/-!
DEFINITION. The interrupt controller (spec 07 R167, R179–R184): assertion, offering, claiming and ending of a source, delivery into a
queue, and the writes of its registers.
-/
namespace Sys2Proof.Machine

open Sys2Proof

/-- A reserved source (Table 7-6). -/
def srcReserved (n : Nat) : Bool := decide (389 ≤ n) && decide (n ≤ 510)

namespace State

/-- A level is enabled on a core (R167, R411): the core runs, and L is above CL with the condition of Table 7-1; level 7 always. -/
def levelEnabled (s : State) (c l : Nat) : Bool :=
  s.running c &&
  (match l with
   | 7 => true
   | 6 => decide (s.cl c < 6) && s.snapEn c
   | 1 => s.cl c == 0
   | 0 => false
   | l => decide (s.cl c < l) && decide (s.ml c < l))

/-- Fields of a source's configuration and status. -/
def srcEn (s : State) (n : Nat) : Bool := s.rb (Reg.INTC_SCFG n) 63
def srcQueueMode (s : State) (n : Nat) : Bool := s.rb (Reg.INTC_SCFG n) 62 && n != 511
def srcEdge (s : State) (n : Nat) : Bool := s.rb (Reg.INTC_SCFG n) 61
def srcLvl (s : State) (n : Nat) : Nat := s.rf (Reg.INTC_SCFG n) 60 58
def srcMask (s : State) (n : Nat) : W64 := s.ioR (Reg.INTC_SMASK n)
def srcPend (s : State) (n : Nat) : Bool := s.rb (Reg.INTC_SSTAT n) 9
def srcInServ (s : State) (n : Nat) : Bool := s.rb (Reg.INTC_SSTAT n) 8
def srcOwner (s : State) (n : Nat) : Option Nat := s.owner .source n

/-- The source can be delivered to a core now (R181). -/
def srcReady (s : State) (n : Nat) : Bool :=
  (s.srcOwner n).isSome && s.srcEn n && s.srcPend n && !s.srcInServ n && !s.srcQueueMode n

/-- Every core of a source's SMASK that is powered and not shed is at CL 7 (R181). -/
def allAtTrump (s : State) (n : Nat) : Bool :=
  (List.range 64).all (fun c => !bitAt (s.srcMask n) c || (s.core c).run == .off || (s.core c).run == .shed || s.cl c == 7)

/-- The core a ready source is offered to (R181). A core at CL 7 is offered a level-7 source only where no other core could ever take it. -/
def offerTo (s : State) (n : Nat) : Option Nat :=
  let m := s.srcMask n
  let l := s.srcLvl n
  if l = 7 then
    match findN 64 (fun c => bitAt m c && s.levelEnabled c 7 && decide (s.cl c < 7)) with
    | some c => some c
    | none => if s.allAtTrump n then findN 64 (fun c => bitAt m c && s.levelEnabled c 7) else none
  else findN 64 (fun c => bitAt m c && s.levelEnabled c l)

/-- A pending source is offered, or its offer withdrawn where no core is eligible (R181). -/
def offerSource (s : State) (n : Nat) : State :=
  let v := if s.srcReady n then (match s.offerTo n with | some c => c + 1 | none => 0) else 0
  { s with offers := Tab.set s.offers n v 0 }

/-- A level source whose input is asserted is pending while it is enabled and not in service (R182); the source is offered again. -/
def relevel (s : State) (n : Nat) : State :=
  let s := if s.rb (Reg.INTC_SSTAT n) 10 && s.srcEn n && !s.srcEdge n && !s.srcQueueMode n && !s.srcInServ n
    then s.setB (Reg.INTC_SSTAT n) 9 else s
  s.offerSource n

/-- A source stands offered to a core at a level. An offer of level 7 to a core that has reached CL 7 stands only while R181 still makes it. -/
def offered (s : State) (c l : Nat) : Bool :=
  s.offers.any (fun e => e.2 == c + 1 && s.srcLvl e.1 == l && s.srcReady e.1 &&
    (l != 7 || decide (s.cl c < 7) || s.offerTo e.1 == some c))

/-- The offers of a level to a core are taken by its entry. -/
def takeOffers (s : State) (c l : Nat) : State :=
  { s with offers := Tab.keep s.offers (fun n v => !(v == c + 1 && s.srcLvl n == l)) }

/-- The item of a queue delivery (R183). -/
def srcItem (s : State) (n cnt : Nat) : Item := ⟨fixN n, fixN cnt, fixN s.now, nilW⟩

/-- One assertion of a source: counted; with EN 1, pushed in queue mode or made pending (R182, R183). -/
def assertEdge (s : State) (n : Nat) : State :=
  match s.srcOwner n with
  | none => s
  | some p =>
    let s := s.satAdd (Reg.INTC_SSTAT n) 47 32 1
    if !s.srcEn n then s
    else if s.srcQueueMode n then
      let cnt := Tab.get s.srcCount n 0 + 1
      let (r, s') := s.enginePush p (s.rf (Reg.INTC_SCFG n) 15 0) (s.rf (Reg.INTC_SCFG n) 47 32) (s.srcItem n cnt)
      (match r with
       | none => { s' with srcCount := Tab.set s'.srcCount n 0 0 }
       | some _ => ({ s' with srcCount := Tab.set s'.srcCount n cnt 0 } : State).setB (Reg.INTC_SSTAT n) 11)
    else if s.srcInServ n && !s.srcEdge n then s
    else (s.setB (Reg.INTC_SSTAT n) 9).offerSource n

/-- The level input of a source as the INTC sees it (R182): a rise is one assertion; a level source whose input is asserted while it is
neither pending nor in service becomes pending. -/
def assertLevel (s : State) (n : Nat) (raw : Bool) : State :=
  let was := s.rb (Reg.INTC_SSTAT n) 10
  if (s.srcOwner n).isNone then s
  else
    let s := s.wf (Reg.INTC_SSTAT n) 10 10 raw.toNat
    if raw && !was then s.assertEdge n else if raw then s.relevel n else s

/-- The source a CLAIM of core c at level L takes (R180, R181): the lowest-numbered one pending there. -/
def claimable (s : State) (c l : Nat) : Option Nat :=
  findN 512 (fun n => s.srcReady n && s.srcLvl n == l && bitAt (s.srcMask n) c)

/-- A read of CLAIM by core c itself, and a peek of it by any requester (R180, R181). -/
def claim (s : State) (c l : Nat) (peek : Bool) : W64 × State :=
  if l < 2 then (0#64, s)
  else match s.claimable c l with
    | none => (0#64, s)
    | some n =>
      let v := putFld 15 15 1 ||| putFld 8 0 n
      if peek then (v, s)
      else (v, { (((s.wf (Reg.INTC_SSTAT n) 9 9 0).wf (Reg.INTC_SSTAT n) 8 8 1).wf (Reg.INTC_SSTAT n) 5 0 c) with
                 offers := Tab.set s.offers n 0 0 })

/-- EOI of a source on the core that serves it (R182). -/
def eoi (s : State) (c n : Nat) : State :=
  if s.srcInServ n && s.rf (Reg.INTC_SSTAT n) 5 0 == c then
    (s.wf (Reg.INTC_SSTAT n) 8 8 0).relevel n
  else s

/-- Partition 0 and the owner write a source's registers; an unowned or reserved source ignores writes (R179, R180). -/
def srcMayWrite (s : State) (p n : Nat) : Bool := !srcReserved n && (s.srcOwner n).isSome && s.mayWrite p .source n

/-- A write of SCFG: LVL 0 and 1 are reserved encodings (R10). Clearing EN drops PEND-recording only; a pending bit stays. -/
def writeScfg (s : State) (p n : Nat) (v : W64) : State :=
  if !s.srcMayWrite p n then s
  else
    let old := s.ioR (Reg.INTC_SCFG n)
    let m : W64 := fmask 63 61 ||| fmask 47 32 ||| fmask 15 0
    let x := (old &&& ~~~m) ||| (v &&& m)
    let x := if 2 ≤ fld v 60 58 then setFld x 60 58 (fld v 60 58) else x
    (s.ioW (Reg.INTC_SCFG n) x).relevel n

/-- A write of SMASK: bits of cores that OWNER does not own, and of checker cores, are forced to 0. -/
def writeSmask (s : State) (p n : Nat) (v : W64) : State :=
  if !s.srcMayWrite p n then s
  else
    let o := (s.srcOwner n).getD 0
    let keep := (List.range 64).foldl (fun (m : W64) c =>
      if s.coreOwned c && s.corePart c == o && !s.isChecker c then m ||| fmask c c else m) 0#64
    (s.ioW (Reg.INTC_SMASK n) (v &&& keep)).offerSource n

/-- A write of SSTAT: QFAIL and PEND are w1c; PEND returns while a level input stays asserted (R182). -/
def writeSstat (s : State) (p n : Nat) (v : W64) : State :=
  if !s.srcMayWrite p n then s
  else (s.ioW (Reg.INTC_SSTAT n) (s.ioR (Reg.INTC_SSTAT n) &&& ~~~(v &&& (fmask 11 11 ||| fmask 9 9)))).relevel n

/-- RAISE (spec 07): a doorbell of the writer's partition is asserted as one edge. -/
def raiseDoorbell (s : State) (p n : Nat) : State := if n ≤ 63 && s.srcOwner n == some p then s.assertEdge n else s

/-- Partition reset in the INTC (R184). -/
def intcReset (s : State) (p : Nat) : State :=
  let s := (List.range 512).foldl (fun s n =>
    if s.srcOwner n == some p then
      let s := (s.wf (Reg.INTC_SCFG n) 63 63 0).wf (Reg.INTC_SSTAT n) 9 8 0
      { s with offers := Tab.set s.offers n 0 0 }
    else if s.srcInServ n && s.coreOwned (s.rf (Reg.INTC_SSTAT n) 5 0) && s.corePart (s.rf (Reg.INTC_SSTAT n) 5 0) == p then
      s.wf (Reg.INTC_SSTAT n) 8 8 0
    else s) s
  s

/-- Source 511 is asserted while any QFAIL is 1 (R183). -/
def routeFail (s : State) : Bool := (findN 511 (fun n => s.rb (Reg.INTC_SSTAT n) 11)).isSome

end State

end Sys2Proof.Machine
end

