-- ==== Sys2Proof/Machine/DmaReg.lean ====
section
/-!
DEFINITION. The DMA channels' registers and completion records (spec 11 R299, R300, R307–R313): START, STOP and CLEAR, the end of a
descriptor, the push of its records, and the reset of a channel's owner. The transfers are in Machine/Dma.lean.
-/
namespace Sys2Proof.Machine

open Sys2Proof

/-- Registers of channel ch: engine ch div 16, channel ch mod 16 (R299). -/
def dCcfg (ch : Nat) : Nat := Reg.DMA_CCFG (ch / 16) (ch % 16)
def dChead (ch : Nat) : Nat := Reg.DMA_CHEAD (ch / 16) (ch % 16)
def dCstat (ch : Nat) : Nat := Reg.DMA_CSTAT (ch / 16) (ch % 16)
def dCcur (ch : Nat) : Nat := Reg.DMA_CCUR (ch / 16) (ch % 16)
def dEstat (ch : Nat) : Nat := Reg.DMA_ESTAT (ch / 16)

/-- Channel states (CSTAT.STATE). -/
abbrev dIdle := 0
abbrev dRun := 1
abbrev dCqwait := 2
abbrev dHalt := 3

namespace State

def dState (s : State) (ch : Nat) : Nat := s.rf (dCstat ch) 1 0
def setDState (s : State) (ch st : Nat) : State := s.wf (dCstat ch) 1 0 st

/-- The channel's address words: CHEAD layout of a segment address. -/
def headWord (sel off : Nat) : W64 := putFld 63 52 sel ||| putFld 48 48 1 ||| putFld 47 0 off

/-- Datapath power and activity of an engine (R312): powered while a channel is not IDLE. -/
def dmaPower (s : State) (e : Nat) : State :=
  let busy := (List.range 16).any (fun k => s.dState (16 * e + k) == dRun)
  let on := (List.range 16).any (fun k => s.dState (16 * e + k) != dIdle)
  (s.wf (Reg.DMA_ESTAT e) 5 5 busy.toNat).wf (Reg.DMA_ESTAT e) 4 4 on.toNat

/-- CCMD.START (R300). -/
def dmaStart (s : State) (ch : Nat) : State :=
  if s.dState ch == dIdle && (s.owner .dmaCh ch).isSome && s.rb (dCcfg ch) 17 && s.rb (dChead ch) 48 then
    let a := s.ioR (dChead ch)
    ((s.setDState ch dRun).modDma ch (fun x => { phase := .read, addr := ptrPay (fld a 63 52) (fld a 47 0), late := x.late })).dmaPower (ch / 16)
  else s.setB (dCstat ch) 2

/-- CCMD.STOP (R311): acts in RUN, at the next block boundary. -/
def dmaStop (s : State) (ch : Nat) : State :=
  if s.dState ch == dRun then s.modDma ch (fun x => { x with stop := true }) else s

/-- CCMD.CLEAR (R310). -/
def dmaClear (s : State) (ch : Nat) : State :=
  if s.dState ch == dHalt then (s.setDState ch dIdle).dmaPower (ch / 16) else s

/-- A write of CCMD. -/
def dmaCmd (s : State) (ch : Nat) (v : W64) : State :=
  let s := if bitAt v 2 then s.dmaClear ch else s
  let s := if bitAt v 1 then s.dmaStop ch else s
  if bitAt v 0 then s.dmaStart ch else s

/-- A completion record (Table 11-7). -/
def dmaRecord (st cause ch xgen : Nat) (user : Word) (prog : Nat) (addr : W64) : Item :=
  ⟨fixW (putFld 63 62 st ||| putFld 61 54 cause ||| putFld 53 48 ch ||| putFld 47 32 xgen), user, fixN prog, fixW addr⟩

/-- A channel's current descriptor ends: its record, and after a failure one NOT_STARTED record for the rest of the chain (R307, R308). -/
def dmaEnd (s : State) (ch cause : Nat) : State :=
  let x := s.dmaCh ch
  let g := s.rf (dCstat ch) 63 48
  let prog := s.rf (dCstat ch) 47 4
  let user := (x.desc[7]?).getD nilW
  let irq := match x.desc with | w :: _ => bitAt w.pay 12 | [] => false
  let nextW := (x.desc[6]?).getD nilW
  let next := if nextW.tag = Tag.fix then some (headWord (ptrSel x.addr) (fld nextW.pay 47 0)) else none
  let own := dmaRecord (if cause = 0 then 0 else 1) cause ch g user prog x.addr
  let rest := match next with
    | some a => if cause = 0 then [] else [(dmaRecord 2 0 ch 0 nilW 0 (ptrPay (fld a 63 52) (fld a 47 0)), false)]
    | none => []
  let s := if cause = 0 then s else s.countUn 0x0C (ch / 16)
  s.modDma ch (fun x => { x with phase := .record, recs := (own, irq) :: rest, next := next, cont := cause == 0 && next.isSome })

/-- The channel's holds are released (R309). -/
def dmaRelease (s : State) (ch : Nat) : State :=
  let s := (s.dmaCh ch).holds.foldl (fun s e =>
    if e.2 < 2 ^ 40 then s.modHeap e.1 (fun x => { x with holds := Tab.modify x.holds e.2 0 (· - 1) }) else s) s
  s.modDma ch (fun x => { x with holds := [] })

/-- All records of the descriptor are out: the next descriptor, or IDLE (R308). -/
def dmaAfterRecords (s : State) (ch : Nat) : State :=
  let x := s.dmaCh ch
  if x.cont then
    (match x.next with
     | some a => (s.setDState ch dRun).modDma ch (fun x => { phase := .read, addr := ptrPay (fld a 63 52) (fld a 47 0), stop := x.stop, late := x.late })
     | none => s)
  else
    let s := match x.next with | some a => s.ioW (dChead ch) a | none => s
    (((s.setDState ch dIdle).ioW (dCcur ch) 0#64).modDma ch (fun x => { late := x.late })).dmaPower (ch / 16)

/-- The oldest record of the channel is pushed (R307, R309, R310). -/
def dmaPushRecord (s : State) (ch : Nat) : State :=
  let x := s.dmaCh ch
  match x.recs with
  | [] => s
  | (it, irq) :: rest =>
    let p := (s.owner .dmaCh ch).getD 0
    let (r, s) := s.enginePush p (s.rf (dCcfg ch) 15 0) (s.rf (dCcfg ch) 47 32) it
    (match r with
     | none =>
       let s := (s.dmaRelease ch).modDma ch (fun x => { x with recs := rest, phase := .record })
       let s := (s.setDState ch dRun).dmaPower (ch / 16)
       let s := if irq then s.pulse (224 + ch) else s
       if rest.isEmpty then s.dmaAfterRecords ch else s
     | some reason =>
       if reason == QR.full then ((s.setDState ch dCqwait).modDma ch (fun x => { x with phase := .cqwait })).dmaPower (ch / 16)
       else
         let s := ((s.ioW (Reg.DMA_CRECS (ch / 16) (ch % 16)) it.w0.pay).ioW (Reg.DMA_CRECP (ch / 16) (ch % 16)) it.w2.pay).ioW
           (Reg.DMA_CRECA (ch / 16) (ch % 16)) it.w3.pay
         let s := match x.next with | some a => s.ioW (dChead ch) a | none => s.wf (dChead ch) 48 48 0
         let s := ((s.dmaRelease ch).setDState ch dHalt).modDma ch (fun x => { late := x.late })
         (((s.ioW (dCcur ch) 0#64).setB (dCstat ch) 3).pulse (224 + ch)).dmaPower (ch / 16))

/-- A late response that carries an old generation is dropped and counted (R309). -/
def dmaLate (s : State) (ch : Nat) : State := s.satAdd (dEstat ch) 47 32 1

/-- The registers of a channel take their reset values. -/
def dmaClearRegs (s : State) (ch : Nat) : State :=
  [dCcfg ch, dChead ch, dCstat ch, dCcur ch, Reg.DMA_CRECS (ch / 16) (ch % 16), Reg.DMA_CRECP (ch / 16) (ch % 16),
   Reg.DMA_CRECA (ch / 16) (ch % 16)].foldl (fun s a => s.ioReset a) s

/-- A record of a reset is pushed; a refusal as FULL leaves it to be tried again, any other is counted (R13, R311). -/
def dmaPushLate (s : State) (ch : Nat) (e : Item × Bool × Nat × Nat) : State :=
  let (r, s) := s.enginePush ((s.owner .dmaCh ch).getD 0) e.2.2.1 e.2.2.2 e.1
  match r with
  | none => if e.2.1 then s.pulse (224 + ch) else s
  | some k =>
    if k = QR.full then s.modDma ch (fun x => { x with late := x.late ++ [e] }) else s.satAdd (dEstat ch) 63 48 1

/-- The descriptor that a channel reads next counts as started, for the record of its end. -/
def dmaBegin (s : State) (ch : Nat) : State :=
  (s.wf (dCstat ch) 63 48 (s.rf (dCstat ch) 63 48 + 1)).wf (dCstat ch) 47 4 0

/-- A reset of the owner ends the current descriptor with RESET; its records go to the queue that CCFG named (R311). -/
def dmaChannelReset (s : State) (ch : Nat) : State :=
  let s := if s.dState ch == dRun || s.dState ch == dCqwait then
      match (s.dmaCh ch).phase with
      | .record | .cqwait => s
      | .read => (s.dmaBegin ch).dmaEnd ch 0x81
      | _ => s.dmaEnd ch 0x81
    else s
  let out := (s.dmaCh ch).recs.map (fun e => (e.1, e.2, s.rf (dCcfg ch) 15 0, s.rf (dCcfg ch) 47 32))
  let s := (((s.dmaRelease ch).modDma ch (fun x => { late := x.late })).dmaClearRegs ch).dmaPower (ch / 16)
  out.foldl (fun s e => s.dmaPushLate ch e) s

/-- The records a reset left are tried again, until one is refused as FULL. -/
def dmaRetryLate (s : State) (ch : Nat) : State :=
  let l := (s.dmaCh ch).late
  l.foldl (fun s e => s.dmaPushLate ch e) (s.modDma ch (fun x => { x with late := [] }))

/-- Partition reset in the DMA engines. -/
def dmaReset (s : State) (p : Nat) : State :=
  (List.range 64).foldl (fun s ch => if s.owner .dmaCh ch == some p then s.dmaChannelReset ch else s) s

end State

end Sys2Proof.Machine
end

