-- ==== Sys2Proof/Machine/MeldReg.lean ====
section
/-!
DEFINITION. Meld's network slots, their registers and their records (spec 12 R314–R316, R320–R322, R327, R329, R330, R334, R338–R340). The
loading of a network and the commands are in Machine/Meld.lean.
-/
namespace Sys2Proof.Machine

open Sys2Proof

/-- Network states (Table 12-1). -/
abbrev nEmpty := 0
abbrev nLoading := 1
abbrev nReady := 2
abbrev nPaused := 3
abbrev nHold := 4
abbrev nFault := 5
abbrev nUnloading := 6

namespace State

def nState (s : State) (n : Nat) : Nat := s.rf (Reg.MLD_NSTAT n) 2 0
def setNState (s : State) (n st : Nat) : State := s.wf (Reg.MLD_NSTAT n) 2 0 st
def nDefined (s : State) (n : Nat) : Bool := s.rb (Reg.MLD_NGEOM0 n) 63
def nOwner (s : State) (n : Nat) : Nat := s.rf (Reg.MLD_NGEOM0 n) 61 58
def nFcap (s : State) (n : Nat) : Nat := s.rf (Reg.MLD_NGEOM0 n) 45 21
def nTcap (s : State) (n : Nat) : Nat := s.rf (Reg.MLD_NGEOM1 n) 49 25
def nEcap (s : State) (n : Nat) : Nat := s.rf (Reg.MLD_NGEOM1 n) 24 0

/-- The physical address of word j of fact slot i, and of token slot i, in the view (R321). -/
def factAddr (s : State) (n i j : Nat) : Nat := (s.net n).viewBase + 16 * i + j
def tokAddr (s : State) (n i j : Nat) : Nat := (s.net n).viewBase + 16 * (s.nFcap n + i) + j

/-- Meld writes a view word (R315): the undo log takes the word as it was (R326), and while marking runs the write barrier reads it (R336). -/
def viewWrite (s : State) (n pa : Nat) (w : Word) : State :=
  let p := s.nOwner n
  let was := s.view pa
  let marking := match s.cycleHeap p with | some h => decide (1 ≤ s.heapPhase h) && decide (s.heapPhase h ≤ 3) | none => false
  let (u, s) := if marking then (let (old, u, s) := s.engRead 1 pa; (u, if u then s else s.storeLog (.eng 5) p old pa)) else (false, s)
  let s := s.modNet n (fun x => { x with undo := x.undo.map (fun y => { y with words := (pa, was) :: y.words, bad := y.bad || u }) })
  s.engWrite 1 pa w

/-- Headers of Table 12-9. -/
def phaseCode : QPhase → Nat
  | .free => 0 | .live => 1 | .ash => 2
def factHdr (f : MFact) : Word :=
  fixW (putFld 63 62 (phaseCode f.phase) ||| putFld 61 58 f.nf ||| putFld 47 32 f.gen ||| putFld 31 16 f.rel ||| putFld 15 0 f.ver)
def tokHdr (t : MTok) : Word :=
  fixW (putFld 63 62 (phaseCode t.phase) ||| putFld 61 58 t.facts.length ||| putFld 47 32 t.gen)

def fact (s : State) (n i : Nat) : MFact := Tab.get (s.net n).facts i {}
def tok (s : State) (n i : Nat) : MTok := Tab.get (s.net n).toks i {}
def setFact (s : State) (n i : Nat) (f : MFact) : State := s.modNet n (fun x => { x with facts := Tab.set x.facts i f {} })
def setTok (s : State) (n i : Nat) (t : MTok) : State := s.modNet n (fun x => { x with toks := Tab.set x.toks i t {} })

/-- A slot never used since cold boot shows its header as FREE (R321), a token slot IMM NIL in its positions. -/
def viewInit (s : State) (n : Nat) : State :=
  let s := forN (s.nFcap n) (fun i s => s.engWrite 1 (s.factAddr n i 0) (factHdr {})) s
  forN (s.nTcap n) (fun i s => (forN 8 (fun j s => s.engWrite 1 (s.tokAddr n i (1 + j)) nilW) s).engWrite 1 (s.tokAddr n i 0) (tokHdr {})) s

/-- A fact identifier (Table 12-8). -/
def factId (n gen slot : Nat) : Word := fixW (putFld 50 48 n ||| putFld 47 32 gen ||| putFld 31 0 slot)

/-- A fact slot, and a token slot, retires: the generation advances, the header shows ASH, the identifier rests (R320, R322). -/
def retireFact (s : State) (n i : Nat) : State :=
  let f := s.fact n i
  let f := { f with phase := .ash, gen := nextGen f.gen }
  let s := (s.setFact n i f).viewWrite n (s.factAddr n i 0) (factHdr f)
  (s.wf (Reg.MLD_NUSE n) 63 39 (s.rf (Reg.MLD_NUSE n) 63 39 - 1)).toAsh (.fact n) i
def retireTok (s : State) (n i : Nat) : State :=
  let t := s.tok n i
  let t := { t with phase := .ash, gen := nextGen t.gen }
  let s := (s.setTok n i t).viewWrite n (s.tokAddr n i 0) (tokHdr t)
  (s.wf (Reg.MLD_NUSE n) 38 14 (s.rf (Reg.MLD_NUSE n) 38 14 - 1)).toAsh (.token n) i

/-- Identifiers whose 2 ms have passed leave the ASH state (R289); a slot of a network that was not used since its load counts as having left
it at the load (R320), and its header shows FREE (R321; DEDUCED: notes/assumptions/85.md). -/
def ashExpiry (s : State) : State :=
  match s.ash with
  | [] => s
  | e :: t =>
    let first := t.foldl (fun m x => min m x.expiry) e.expiry
    let s := s.advanceTo first
    let (gone, rest) := s.ash.partition (fun x => decide (x.expiry ≤ s.now))
    gone.foldl (fun s x => match x.kind with
      | .queue => s.modQueue x.ident (fun q => if q.phase == .ash then { q with phase := .free, freedAt := x.expiry + 1 } else q)
      | .fact n =>
        let f := s.fact n x.ident
        let f := { f with phase := .free, freedAt := if f.used then x.expiry + 1 else 0 }
        (s.setFact n x.ident f).viewWrite n (s.factAddr n x.ident 0) (factHdr f)
      | .token n =>
        let t := s.tok n x.ident
        let t := { t with phase := .free, freedAt := if t.used then x.expiry + 1 else 0 }
        (s.setTok n x.ident t).viewWrite n (s.tokAddr n x.ident 0) (tokHdr t)
      | .xport =>
        let f := fun (e : XEnt) => if e.phase == .ash then { e with phase := .free, freedAt := x.expiry + 1 } else e
        let g := { s.cg with exports := Tab.modify s.cg.exports x.ident {} f }
        { s with cg := g }
      | .txn =>
        let f := fun (e : CTxn) => if e.phase == .ash then { e with phase := .free, freedAt := x.expiry + 1 } else e
        let g := { s.cg with txns := Tab.modify s.cg.txns x.ident {} f }
        { s with cg := g }
      | .timer => s) { s with ash := rest }

/-- The network is unloaded (R338). -/
def meldUnload (s : State) (n : Nat) : State :=
  let s := ((s.net n).facts.filter (fun e => e.2.phase == .live)).foldl (fun s e => s.retireFact n e.1) s
  let s := ((s.net n).toks.filter (fun e => e.2.phase == .live)).foldl (fun s e => s.retireTok n e.1) s
  let s := s.modNet n (fun x => { x with rels := [], nodes := [], consts := [], nrule := 0, amem := [], outs := [], rcd := none, undo := none, tests := 0, after := 0 })
  (s.wf (Reg.MLD_NSTAT n) 5 5 0).setNState n nEmpty

/-- A record item (Table 12-11). -/
def recItem (n : Nat) (r : MRec) : Item :=
  ⟨fixW (putFld 63 62 r.failed.toNat ||| putFld 61 54 r.cause ||| putFld 53 51 n ||| putFld 50 47 r.op ||| putFld 46 46 r.redir.toNat |||
     putFld 15 0 r.user), r.ident, fixW (putFld 63 32 r.acts ||| putFld 31 0 r.drops), fixN r.tests⟩

/-- A queue register: valid, number, generation. -/
def queReg (s : State) (a : Nat) : Option (Nat × Nat) := if s.rb a 32 then some (s.rf a 15 0, s.rf a 31 16) else none

/-- The queue a destination names now. -/
def destQueue (s : State) (n : Nat) : MDest → Option (Nat × Nat)
  | .agenda k => s.queReg (Reg.MLD_NAGD (16 * n + k))
  | .reply q g push => if push then some (q, g) else none
  | .ncq => s.queReg (Reg.MLD_NCQ n)

/-- A push for network n: none where it is accepted, else whether the refusal was FULL. -/
def meldPush (s : State) (n : Nat) (d : MDest) (it : Item) : Option Bool × State :=
  match s.destQueue n d with
  | none => (some false, s)
  | some (q, g) =>
    let (r, s) := s.enginePush (s.nOwner n) q g it
    (r.map (· == QR.full), s)

/-- A command has ended: NCNT counts it, and its undo log is empty (R327, R340). -/
def meldCount (s : State) (n : Nat) (r : MRec) : State :=
  let s := if r.failed then s.satAdd (Reg.MLD_NCNT n) 31 0 1 else s.satAdd (Reg.MLD_NCNT n) 63 32 1
  ((s.countUn 0x0E n).wf (Reg.MLD_NSTAT n) 3 3 0).modNet n (fun x => { x with rcd := none, undo := none, tests := 0, after := 0 })

/-- The record of the command has been accepted: a request that waited for it takes effect (R316, R323, R338). -/
def meldRecordDone (s : State) (n : Nat) (r : MRec) : State :=
  let a := (s.net n).after
  let s := s.meldCount n r
  if a = 0 then s else s.setNState n a

/-- No queue takes the record: it stays in NREC0 to NREC3, and a READY network enters HOLD (R327); Table 12-1 gives no such step from FAULT. -/
def meldHold (s : State) (n : Nat) (r : MRec) : State :=
  let it := recItem n r
  let s := (((s.ioW (Reg.MLD_NREC0 n) it.w0.pay).ioW (Reg.MLD_NREC1 n) it.w1.pay).ioW (Reg.MLD_NREC2 n) it.w2.pay).ioW (Reg.MLD_NREC3 n) it.w3.pay
  let a := (s.net n).after
  let s := (s.meldCount n r).setB Reg.MLD_MERR 0
  if s.nState n == nReady then s.setNState n nHold else if a = 0 then s else s.setNState n a

/-- The record goes out: to its queue, redirected to NCQ, or held (R327). -/
def meldSendRecord (s : State) (n : Nat) (r : MRec) : State :=
  let toNcq := fun (s : State) (r : MRec) =>
    match s.meldPush n .ncq (recItem n r) with
    | (none, s) => s.meldRecordDone n r
    | (some true, s) => (s.setB (Reg.MLD_NSTAT n) 3).modNet n (fun x => { x with rcd := some r })
    | (some false, s) => s.meldHold n r
  match r.dest with
  | .reply q g push =>
    (match s.meldPush n (.reply q g push) (recItem n r) with
     | (none, s) => s.meldRecordDone n r
     | (some true, s) => s.setB (Reg.MLD_NSTAT n) 3
     | (some false, s) => toNcq s { r with redir := true, dest := .ncq })
  | _ => toNcq s r

/-- The current command is undone (R326, R337, R339): the slots, the memories, NUSE and the view words as they were before it. -/
def meldUndo (s : State) (n : Nat) : State :=
  match (s.net n).undo with
  | none => s
  | some u =>
    let s := u.words.foldl (fun s e => s.engPut 1 e.1 e.2) s
    let live := fun (k : AshKind) (i : Nat) =>
      (k == AshKind.fact n && (Tab.get u.facts i {}).phase == .live) || (k == AshKind.token n && (Tab.get u.toks i {}).phase == .live)
    let s := { s with ash := s.ash.filter (fun e => !live e.kind e.ident) }
    (s.ioW (Reg.MLD_NUSE n) u.nuse).modNet n (fun x => { x with facts := u.facts, toks := u.toks, amem := u.amem, undo := none })

/-- The items and then the record of the current command are pushed in order until one is refused FULL (R327, R330). -/
def meldDrain (s : State) (n : Nat) : List (Item × MDest) → State
  | [] =>
    let s := s.modNet n (fun x => { x with outs := [] })
    (match (s.net n).rcd with | some r => s.meldSendRecord n r | none => s)
  | (it, d) :: rest =>
    match s.meldPush n d it with
    | (none, s) => (s.modNet n (fun x => { x with rcd := x.rcd.map (fun r => { r with acts := r.acts + 1 }) })).meldDrain n rest
    | (some true, s) => (s.setB (Reg.MLD_NSTAT n) 3).modNet n (fun x => { x with outs := (it, d) :: rest })
    | (some false, s) =>
      ((s.satAdd Reg.MLD_MERR 47 32 1).modNet n (fun x => { x with rcd := x.rcd.map (fun r => { r with drops := r.drops + 1 }) })).meldDrain n rest

/-- A retry of a refused push (R327). -/
def meldRetry (s : State) (n : Nat) : State :=
  if s.rb (Reg.MLD_NSTAT n) 3 then (s.wf (Reg.MLD_NSTAT n) 3 3 0).meldDrain n (s.net n).outs else s

/-- Write of NCMD (R316, Table 12-1). -/
def meldCmd (s : State) (n : Nat) (v : W64) : State :=
  let cerr := fun (_ : Unit) => s.setB (Reg.MLD_NSTAT n) 4
  let busy := (s.net n).rcd.isSome
  let go := fun (st : Nat) => if busy then s.modNet n (fun x => { x with after := st }) else s.setNState n st
  let preload := fun (_ : Unit) => s.setB (Reg.MLD_NSTAT n) 5
  if !s.nDefined n then s
  else
    match fld v 5 0, s.nState n with
    | 1, 0 => s.setNState n nLoading
    | 2, 2 => go nUnloading
    | 2, 3 => s.setNState n nUnloading
    | 2, 4 => s.setNState n nUnloading
    | 2, 5 => go nUnloading
    | 4, 2 => go nPaused
    | 8, 3 => s.setNState n nReady
    | 16, 4 => s.setNState n nReady
    | 32, 2 => preload ()
    | 32, 3 => preload ()
    | _, _ => cerr ()

/-- UNLOADING ends (R338). -/
def meldUnloadComplete (s : State) (n : Nat) : State := if s.nState n == nUnloading then s.meldUnload n else s

/-- A reset of the owning partition (R339): the current command is undone and ends FAILED with RESET. -/
def meldNetReset (s : State) (n : Nat) : State :=
  let s := match (s.net n).rcd with
    | some r =>
      let s := s.meldUndo n
      let r := { r with failed := true, cause := 0x81, ident := if r.op = 1 then nilW else r.ident }
      let (_, s) := s.meldPush n r.dest (recItem n r)
      s.satAdd (Reg.MLD_NCNT n) 31 0 1
    | none => s
  let s := (s.meldUnload n).wf (Reg.MLD_NSTAT n) 3 3 0
  let s := ((s.ioReset (Reg.MLD_NIQ n)).ioReset (Reg.MLD_NCQ n)).ioReset (Reg.MLD_NSRC n)
  let s := forN 16 (fun k s => s.ioReset (Reg.MLD_NAGD (16 * n + k))) s
  if s.rb (Reg.MLD_NGEOM0 n) 62 then s.modNet n (fun x => { x with reloadAt := some (s.now + 2000000) }) else s

def meldReset (s : State) (p : Nat) : State :=
  forN 8 (fun n s => if s.nDefined n && s.nOwner n == p then s.meldNetReset n else s) s

/-- A write of MLANES: LREQ takes 0 to 16 (R10, R19, R334). -/
def mlanesWrite (s : State) (v : W64) : State :=
  if fld v 4 0 ≤ 16 then (s.wf Reg.MLD_MLANES 4 0 (fld v 4 0)).modeStart 244 (fld v 4 0) (s.rf Reg.MLD_MLANES 12 8) else s

/-- INTC source 350 (R340). -/
def meldSource (s : State) : Bool :=
  s.rb Reg.MLD_MERR 2 || s.rb Reg.MLD_MERR 0 || (List.range 8).any (fun n => s.nState n == nHold || s.nState n == nFault)

end State

end Sys2Proof.Machine
end

