-- ==== Sys2Proof/Machine/CgReg.lean ====
section
/-!
DEFINITION. The Corgil node's ports, frames, routes, exports, transactions and imports (spec 13 R341–R353, R355–R367). Serving a request and
completing an instruction are in Machine/Corgil.lean.
-/
namespace Sys2Proof.Machine

open Sys2Proof

/-- Port states (Table 13-1). -/
abbrev pOff := 0
abbrev pDown := 1
abbrev pTrain := 2
abbrev pUp := 3
abbrev pRetrain := 4

/-! NAK codes (Table 13-5). -/
namespace NakCode
abbrev stale := 0x01
abbrev noentry := 0x02
abbrev kind := 0x03
abbrev rights := 0x04
abbrev range := 0x05
abbrev tag := 0x06
abbrev queue := 0x07
abbrev expfull := 0x08
abbrev ue := 0x09
abbrev busy := 0x0A
abbrev off := 0x0B
abbrev unreach := 0x0C
abbrev lost := 0x0D
end NakCode

/-- The classes of Table 13-4: 0 REQ, 1 RSP, 2 CTL. -/
def kindCls : CKind → Nat
  | .rd | .wr | .push => 0
  | .rdack | .wrack | .pushack | .nak => 1
  | _ => 2

/-- TYPE of a message (Table 13-4). -/
def kindType : CKind → Nat
  | .rd | .rdack | .refinc => 0
  | .wr | .wrack | .refdec => 1
  | .push | .pushack | .refack => 2
  | .nak | .time => 3
  | .bgrant => 4
  | .breq => 5

end Sys2Proof.Machine

namespace Sys2Proof

open Sys2Proof.Machine

/-- Header words H0 and H1 of a message (Table 13-3); LEN counts its body words, and the bits that no field names are zero. -/
def CMsg.h0 (m : CMsg) : W64 :=
  putFld 63 60 (kindCls m.kind) ||| putFld 59 56 (kindType m.kind) ||| putFld 55 44 m.dst.toNat ||| putFld 43 32 m.src.toNat |||
    putFld 31 27 m.hops.toNat ||| putFld 26 22 m.hidx.toNat ||| putFld 21 18 m.body.length ||| putFld 15 0 m.txid.toNat
def CMsg.h1 (m : CMsg) : W64 := putFld 63 48 m.txgen.toNat ||| putFld 47 0 m.route.toNat

/-- A message as a link carries it (R352): its two header words and its body. -/
def CMsg.words (m : CMsg) : List Word := ⟨Tag.raww, m.h0⟩ :: ⟨Tag.raww, m.h1⟩ :: m.body

end Sys2Proof

namespace Sys2Proof.Machine

/-- REM fields (Table 2-7). -/
def remNode (p : W64) : Nat := fld p 63 52
def remGen (p : W64) : Nat := fld p 51 36
def remIdx (p : W64) : Nat := fld p 35 12
def remWord (node gen idx : Nat) : Word := ⟨Tag.rem, putFld 63 52 node ||| putFld 51 36 gen ||| putFld 35 12 idx⟩
/-- The body of a reference-count message (Table 13-4). -/
def refBody (pay : W64) : Word := fixW (putFld 23 0 (remIdx pay) ||| putFld 39 24 (remGen pay))

/-- The free identifier that left ASH earliest; a never-used one first, in ascending order (R320, R353). -/
def pickFree (base cap : Nat) (st : Nat → QPhase × Nat) (listed : List Nat) : Option Nat :=
  match findGo (fun i => st i == (QPhase.free, 0)) cap base with
  | some i => some i
  | none => listed.foldl (fun best i =>
      if !(decide (base ≤ i) && decide (i < base + cap)) || (st i).1 != QPhase.free then best
      else match best with
        | none => some i
        | some b => if (st i).2 < (st b).2 then some i else best) none

namespace State

def modCg (s : State) (f : CgSt → CgSt) : State := { s with cg := f s.cg }
def cport (s : State) (p : Nat) : CPort := Tab.get s.cg.ports p {}
def modPort (s : State) (p : Nat) (f : CPort → CPort) : State := s.modCg (fun x => { x with ports := Tab.modify x.ports p {} f })
def cgNode (s : State) : Nat := s.rf Reg.CGL_NODECFG 11 0
def cgValid (s : State) : Bool := s.rb Reg.CGL_NODECFG 12
def pState (s : State) (p : Nat) : Nat := s.rf (Reg.CGLP_PSTAT p) 2 0
def setPState (s : State) (p st : Nat) : State := s.wf (Reg.CGLP_PSTAT p) 2 0 st
def pUpNow (s : State) (p : Nat) : Bool := s.pState p == pUp

/-! Frames. -/

/-- An UP port frames the messages that wait for it, one to a frame, while its retry buffer has room (R345). -/
def flushPort (s : State) (p : Nat) : Nat → State
  | 0 => s
  | k + 1 =>
    let x := s.cport p
    match x.txq with
    | [] => s
    | m :: t =>
      if s.pUpNow p && decide (x.retry.length < 64) then
        ((s.modPort p (fun x => { x with
          txq := t, retry := x.retry ++ [(x.txSeq, [{ m with sent := true }])], txSeq := (x.txSeq + 1) % 4096,
          sentAt := if x.retry.isEmpty then s.now else x.sentAt })).countUn 0x12 p).flushPort p k
      else s

/-- A message waits for a port, or leaves by it. -/
def enqueueMsg (s : State) (p : Nat) (m : CMsg) : State :=
  (s.modPort p (fun x => { x with txq := x.txq ++ [{ msg := m, at_ := s.now }] })).flushPort p 64

/-- A route table entry (R348). -/
def routeEnt (s : State) (dst : Nat) (alt : Bool) : W64 := Tab.get s.cg.routes (2 * dst + alt.toNat) 0#64
/-- The route a message takes at issue (R348). -/
def chooseRoute (s : State) (dst : Nat) : Option W64 :=
  let ok := fun (r : W64) => bitAt r 63 && s.pUpNow (fld r 1 0)
  if ok (s.routeEnt dst false) then some (s.routeEnt dst false)
  else if ok (s.routeEnt dst true) then some (s.routeEnt dst true)
  else none

/-- A message is issued; none where no route is up (R348). One to the local node uses no link (R48). -/
def sendMsg (s : State) (m : CMsg) : Option State :=
  if m.dst.toNat = s.cgNode then some (s.modCg (fun x => { x with inbox := x.inbox ++ [m] }))
  else match s.chooseRoute m.dst.toNat with
  | none => none
  | some r =>
    let m := { m with hops := BitVec.ofNat 5 (fld r 52 48), hidx := 1#5, route := BitVec.ofNat 48 (fld r 47 0) }
    some (s.enqueueMsg (fld r 1 0) m)
/-- A message that nothing waits for: dropped where no route is up. -/
def sendOrDrop (s : State) (m : CMsg) : State := (s.sendMsg m).getD s

/-- A message of this node. -/
def mkMsg (s : State) (k : CKind) (dst txid txgen : Nat) (body : List Word) : CMsg :=
  { kind := k, dst := BitVec.ofNat 12 dst, src := BitVec.ofNat 12 s.cgNode, hops := 0#5, hidx := 0#5, txid := BitVec.ofNat 16 txid,
    txgen := BitVec.ofNat 16 txgen, route := 0#48, body := body }

/-- The answer to a request. -/
def respond (s : State) (m : CMsg) (k : CKind) (body : List Word) : State :=
  s.sendOrDrop (s.mkMsg k m.src.toNat m.txid.toNat m.txgen.toNat body)
def respondNak (s : State) (m : CMsg) (code reason : Nat) : State := s.respond m .nak [fixW (putFld 7 0 code ||| putFld 15 8 reason)]

/-- A message has reached the residence limit, or its port is lost (R351, R364). -/
def withdrawMsg (s : State) (m : TxMsg) : State :=
  let s := s.satAdd Reg.CGL_CSTAT 47 32 1
  if kindCls m.msg.kind = 0 then s.respondNak m.msg (if m.sent then NakCode.lost else NakCode.unreach) 0 else s

/-- Messages held for 40 µs leave the port (R351). -/
def residenceLimit (s : State) (p : Nat) : State :=
  let x := s.cport p
  let all := x.txq ++ (x.retry.map (·.2)).flatten
  match all with
  | [] => s
  | m :: t =>
    let first := t.foldl (fun a m => min a m.at_) m.at_
    let s := s.advanceTo (first + 40000)
    let due := fun (m : TxMsg) => decide (m.at_ + 40000 ≤ s.now)
    let gone := all.filter due
    let s := s.modPort p (fun x => { x with
      txq := x.txq.filter (fun m => !due m), retry := x.retry.map (fun f => (f.1, f.2.filter (fun m => !due m))) })
    gone.foldl (fun s m => s.withdrawMsg m) s

/-- A link is lost (R342, R364). -/
def linkDown (s : State) (p : Nat) : State :=
  let x := s.cport p
  let all := (x.retry.map (·.2)).flatten ++ x.txq
  let s := ((s.setPState p pDown).wf (Reg.CGLP_PSTAT p) 10 4 0).setB (Reg.CGLP_PERR p) 0
  let s := s.modPort p (fun x => { x with txq := [], retry := [], txSeq := 0, rxSeq := 0, replays := 0, width := 0 })
  all.foldl (fun s m => s.withdrawMsg m) s

/-- A message that arrives is sent on or delivered (R349). -/
def arrive (s : State) (m : CMsg) : State :=
  if m.hidx.toNat < m.hops.toNat then
    s.enqueueMsg ((m.route.toNat >>> (2 * m.hidx.toNat)) % 4) { m with hidx := m.hidx + 1#5 }
  else if m.hidx = m.hops ∧ m.dst.toNat = s.cgNode then s.modCg (fun x => { x with inbox := x.inbox ++ [m] })
  else s.setB Reg.CGL_CSTAT 0

/-- An acknowledgement releases frames (R345). -/
def ackFrames (s : State) (p ack : Nat) : State :=
  let x := s.cport p
  let keep := x.retry.dropWhile (fun f => decide ((ack + 4096 - f.1) % 4096 ≤ 2048) && decide (f.1 ≠ ack))
  if keep.length = x.retry.length then s
  else (s.modPort p (fun x => { x with retry := keep, replays := 0, sentAt := s.now })).flushPort p 64

/-- The transmitter replays the first unacknowledged frame and every later one; sixteen replays put the port in RETRAIN (R345, R346). -/
def replay (s : State) (p : Nat) : State :=
  let x := s.cport p
  if x.retry.isEmpty then s
  else
    let s := (s.satAdd (Reg.CGLP_PERR p) 47 32 1).countUn 0x14 p
    let s := s.modPort p (fun x => { x with replays := x.replays + 1, sentAt := s.now })
    if 16 ≤ x.replays + 1 then
      ((s.setPState p pRetrain).satAdd (Reg.CGLP_PERR p) 31 16 1).modPort p (fun x => { x with replays := 0 })
    else s

/-- A frame arrives at a port that is UP: it restarts the 3 ms of R363 and is counted. -/
def frameSeen (s : State) (p : Nat) : State := (s.modPort p (fun x => { x with lastRx := s.now })).countUn 0x13 p

def dataFrame (s : State) (p : Nat) (crcOk : Bool) (seq ack : Nat) (msgs : List CMsg) : State :=
  if !s.pUpNow p then s
  else if !crcOk then
    (s.satAdd (Reg.CGLP_PERR p) 63 48 1).modPort p (fun x => { x with lastCtl := some (.nak x.rxSeq) })
  else
    let s := s.frameSeen p
    if (s.cport p).rxSeq ≠ seq then s.modPort p (fun x => { x with lastCtl := some (.nak x.rxSeq) })
    else
      let s := s.ackFrames p ack
      let s := s.modPort p (fun x => { x with rxSeq := (seq + 1) % 4096, lastCtl := some (.ack ((seq + 1) % 4096)) })
      msgs.foldl (fun s m => s.arrive m) s

def nakFrame (s : State) (p ack : Nat) : State :=
  if !s.pUpNow p then s else ((s.frameSeen p).ackFrames p ack).replay p
def ackFrame (s : State) (p ack : Nat) : State :=
  if !s.pUpNow p then s else (s.frameSeen p).ackFrames p ack
def replayTimeout (s : State) (p : Nat) : State :=
  if s.pUpNow p && !(s.cport p).retry.isEmpty then (s.advanceTo ((s.cport p).sentAt + 2000)).replay p else s
def heartbeat (s : State) (p : Nat) : State :=
  if s.pUpNow p then (s.modPort p (fun x => { x with lastCtl := some (.idle x.rxSeq) })).countUn 0x12 p else s
def linkLoss (s : State) (p : Nat) : State :=
  if s.pUpNow p then (s.advanceTo ((s.cport p).lastRx + 3000000)).linkDown p else s

/-- Current mode of a port (PCFG.MODECUR). -/
def pMode (s : State) (p : Nat) : Nat := s.rf (Reg.CGLP_PCFG p) 5 4
def setTxw (s : State) (p w : Nat) : State := s.wf (Reg.CGLP_PSTAT p) 6 4 w

def partnerDetect (s : State) (p : Nat) : State := if s.pState p == pDown && s.cgValid then s.setPState p pTrain else s

/-- Training ends (R342, R343). -/
def trainingEnd (s : State) (p : Nat) (t : TrainRes) : State :=
  if s.pState p != pTrain then s
  else if t.lanes.val = 0 then s.setPState p pDown
  else if t.node.toNat = s.cgNode then (s.setPState p pDown).setB Reg.CGL_CSTAT 4
  else
    let w := if 4 ≤ t.lanes.val then 4 else if 2 ≤ t.lanes.val then 2 else 1
    let s := s.ioW (Reg.CGLP_PSTAT p) (putFld 29 28 t.port.val ||| putFld 27 16 t.node.toNat ||| putFld 10 8 w |||
      putFld 6 4 (if s.pMode p = 2 then 1 else w) ||| putFld 2 0 pUp)
    let s := s.ioW (Reg.CGLP_PDELAY p) (putFld 15 0 t.delay.toNat)
    (s.modPort p (fun x => { x with width := w, lastRx := s.now, replays := 0, txSeq := 0, rxSeq := 0 })).flushPort p 64

/-- RETRAIN ends (R342, R346): replay resumes from the first unacknowledged frame. -/
def retrainEnd (s : State) (p : Nat) (ok : Bool) : State :=
  if s.pState p != pRetrain then s
  else if ok then (((s.setPState p pUp).modPort p (fun x => { x with lastRx := s.now, sentAt := s.now })).replay p).flushPort p 64
  else s.linkDown p

/-- An Economy transmitter wakes its other lanes, and returns to one (R344). -/
def laneWake (s : State) (p : Nat) : State := if s.pUpNow p && s.pMode p == 2 then s.setTxw p (s.cport p).width else s
def laneSleep (s : State) (p : Nat) : State := if s.pUpNow p && s.pMode p == 2 then s.setTxw p 1 else s

/-- A requested mode takes effect (R19, R342, R344, R347): that of the transition in progress; a request made since then follows. -/
def portModeDone (s : State) (p : Nat) : State :=
  let a := Reg.CGLP_PCFG p
  let t := s.modeTarget (240 + p) (s.rf a 1 0)
  let s := (((s.modeOver (240 + p)).wf a 5 4 t)).modeStart (240 + p) (s.rf a 1 0) t
  if t = 0 then
    let s := if s.pState p == pUp || s.pState p == pRetrain then s.linkDown p else s
    (s.wf (Reg.CGLP_PSTAT p) 10 4 0).setPState p pOff
  else if s.pState p == pOff then (if s.cgValid then s.setPState p pDown else s)
  else if s.pState p == pUp then s.setTxw p (if t = 2 then 1 else (s.cport p).width)
  else s

/-- A write of PCFG: the reserved encoding is kept out (R10, R19). -/
def pcfgWrite (s : State) (p : Nat) (v : W64) : State :=
  if fld v 1 0 < 3 then (s.wf (Reg.CGLP_PCFG p) 1 0 (fld v 1 0)).modeStart (240 + p) (fld v 1 0) (s.pMode p) else s

/-- A write of RTENT replaces the entry RTQRY names (R348); a reserved hop count leaves the old one (R10). -/
def rtentWrite (s : State) (v : W64) : State :=
  let q := s.ioR Reg.CGL_RTQRY
  let k := 2 * fld q 11 0 + (bitAt q 12).toNat
  let old := Tab.get s.cg.routes k 0#64
  let h := if 1 ≤ fld v 52 48 ∧ fld v 52 48 ≤ 24 then fld v 52 48 else fld old 52 48
  let e := putFld 63 63 (bitAt v 63).toNat ||| putFld 52 48 h ||| putFld 47 0 (fld v 47 0)
  s.modCg (fun x => { x with routes := Tab.set x.routes k e 0#64 })
def rtentRead (s : State) : W64 :=
  let q := s.ioR Reg.CGL_RTQRY
  Tab.get s.cg.routes (2 * fld q 11 0 + (bitAt q 12).toNat) 0#64

/-! Exports (R353). -/

def xent (s : State) (i : Nat) : XEnt := Tab.get s.cg.exports i {}
def modXent (s : State) (i : Nat) (f : XEnt → XEnt) : State := s.modCg (fun x => { x with exports := Tab.modify x.exports i {} f })
/-- The partition whose range holds an index. -/
def xOwner (s : State) (i : Nat) : Option Nat :=
  findN 16 (fun p => let r := s.ioR (Reg.CGL_XRANGE p); bitAt r 63 && decide (fld r 23 0 ≤ i) && decide (i < fld r 23 0 + fld r 48 24))
/-- A new export of a partition: its index, or none where no entry is free. -/
def newExport (s : State) (p : Nat) (auto : Bool) (count : Nat) (w : Word) : Option (Nat × State) :=
  let r := s.ioR (Reg.CGL_XRANGE p)
  if !bitAt r 63 then none
  else
    match pickFree (fld r 23 0) (fld r 48 24) (fun i => ((s.xent i).phase, (s.xent i).freedAt)) (Tab.keys s.cg.exports) with
    | none => none
    | some i => some (i, s.modXent i (fun e => { e with
        phase := .live, queue := w.tag == Tag.que, auto := auto, part := p, count := count, target := w }))
/-- An export entry retires to ASH (R353); the write barrier logs its target (R255, R271). -/
def retireExport (s : State) (i : Nat) : State :=
  ((s.storeLog (.eng 7) (s.xent i).part (s.xent i).target (2 ^ 40)).modXent i (fun e => { e with phase := .ash, gen := nextGen e.gen, count := 0, target := Word.void })).toAsh .xport i
/-- XENT0 of an index (R353, R367). -/
def xent0 (s : State) (i : Nat) : W64 :=
  let e := s.xent i
  putFld 63 62 (phaseCode e.phase) ||| putFld 61 60 e.queue.toNat ||| putFld 59 59 e.auto.toNat ||| putFld 55 52 e.part |||
    putFld 51 36 e.gen ||| putFld 31 0 e.count
/-- REFDEC on an entry (R359). -/
def refDec (s : State) (i gen : Nat) : State :=
  let e := s.xent i
  if e.phase == .live && e.gen == gen then
    let s := s.modXent i (fun e => { e with count := e.count - 1 })
    if e.auto && decide (e.count ≤ 1) then s.retireExport i else s
  else s
def refInc (s : State) (i gen n : Nat) : State :=
  let e := s.xent i
  if e.phase == .live && e.gen == gen then s.modXent i (fun e => { e with count := e.count + n }) else s

/-- REFDEC sent to the exporter of a REM. -/
def sendRefdec (s : State) (pay : W64) : State := s.sendOrDrop (s.mkMsg .refdec (remNode pay) 0 0 [refBody pay])

/-- A REM word arrives in a message of node src (R359, R361); one of the local node carries no credit (R48, R355). -/
def receiveRem (s : State) (src : Nat) (w : Word) : State :=
  if src == s.cgNode || w.tag != Tag.rem || remNode w.pay == s.cgNode then s
  else if s.cg.imports.any (fun e => e.pay == w.pay) then
    (s.modCg (fun x => { x with imports := x.imports.map (fun e => if e.pay == w.pay then { e with seen := true } else e) })).sendRefdec w.pay
  else if Config.importCap ≤ s.cg.imports.length then (s.satAdd Reg.CGL_CSTAT 31 16 1).sendRefdec w.pay
  else s.modCg (fun x => { x with imports := x.imports ++ [{ pay := w.pay, seen := true }] })

/-- A REM word that marking reports (R254, R361). -/
def reportRem (s : State) (w : Word) : State :=
  s.modCg (fun x => { x with imports := x.imports.map (fun e => if e.pay == w.pay then { e with seen := true } else e) })

/-- The end of an epoch (R361): every defined heap segment has completed a cycle that started within it. -/
def importRelease (s : State) : State :=
  let defined := (List.range 16).filter (fun h => s.rb (Reg.SWP_HGEOM h) 47)
  if defined.isEmpty || !(defined.all (fun h => s.cg.epDone.contains h)) then s
  else
    let gone := s.cg.imports.filter (fun e => !e.seen)
    let s := s.modCg (fun x => { x with imports := (x.imports.filter (·.seen)).map (fun e => { e with seen := false }), epStart := [], epDone := [] })
    gone.foldl (fun s e => s.sendRefdec e.pay) s

/-- A word leaves for a node (R355, R360): what is sent in its place, and the REM that REFINC must count first; or a NAK code. Nothing
leaves in a message to the local node. -/
def outWord (s : State) (p dst : Nat) (w : Word) : Except Nat (Word × Option Word × State) :=
  if dst = s.cgNode then .ok (w, none, s)
  else if (s.isPtr w.tag || w.tag == Tag.que) && s.malformed w then .error NakCode.tag
  else if s.isPtr w.tag || (w.tag == Tag.que && quePush w.pay) then
    match s.newExport p true 1 w with
    | none => .error NakCode.expfull
    | some (i, s) => .ok (remWord s.cgNode (s.xent i).gen i, none, s)
  else if w.tag == Tag.que || w.tag == Tag.dev then .error NakCode.tag
  else if w.tag == Tag.rem then
    if remNode w.pay = s.cgNode then .ok (w, none, s.refInc (remIdx w.pay) (remGen w.pay) 1)
    else if remNode w.pay = dst then .ok (w, none, s)
    else .ok (w, some w, s)
  else .ok (w, none, s)

/-! Transactions (R356). -/

def txn (s : State) (t : Nat) : CTxn := Tab.get s.cg.txns t {}
def modTxn (s : State) (t : Nat) (f : CTxn → CTxn) : State := s.modCg (fun x => { x with txns := Tab.modify x.txns t {} f })
/-- A free transaction identifier. -/
def freeTxn (s : State) : Option Nat := pickFree 0 65536 (fun t => ((s.txn t).phase, (s.txn t).freedAt)) (Tab.keys s.cg.txns)
/-- An identifier retires (R356). -/
def retireTxn (s : State) (t : Nat) : State :=
  let s := (s.cg.txns.filter (fun e => e.2.phase == .live && e.2.parent == some t)).foldl (fun s e =>
    (s.modTxn e.1 (fun x => { phase := .ash, gen := nextGen x.gen })).toAsh .txn e.1) s
  (s.modTxn t (fun x => { phase := .ash, gen := nextGen x.gen })).toAsh .txn t
/-- A response's transaction, where its generation is current. -/
def currentTxn (s : State) (m : CMsg) : Option (Nat × CTxn) :=
  let t := m.txid.toNat
  let x := s.txn t
  if x.phase == .live && x.gen == m.txgen.toNat then some (t, x) else none
/-- A response of an old generation is dropped and counted (R356). -/
def staleResponse (s : State) : State := s.satAdd Reg.CGL_CSTAT 63 48 1
/-- The transaction timeout in ns (R356). -/
def toutNs (s : State) : Nat := s.rf Reg.CGL_CCTL 15 0 * 1000

/-- The oldest delivered message of a kind is taken from the inbox. -/
def takeMsg (s : State) (k : CKind) : Option (CMsg × State) :=
  match s.cg.inbox.find? (fun m => m.kind == k) with
  | none => none
  | some m => some (m, s.modCg (fun x => { x with inbox := x.inbox.erase m }))

/-- The message of a transaction is sent, or sent again, on the route of this moment (R357). -/
def sendTxn (s : State) (t : Nat) : Option State :=
  let x := s.txn t
  match x.msg with
  | none => none
  | some m =>
    match s.sendMsg m with
    | none => none
    | some s => some (s.modTxn t (fun x => { x with
        sent := true, again := false, lastSend := s.now, firstSend := if x.sent then x.firstSend else s.now }))

/-- The next REM of a held message is counted by a REFINC of its own transaction (R360); none where it cannot be sent. -/
def sendRefinc (s : State) (w : Word) (parent : Option Nat) (held : Option CMsg) (part : Nat) : Option State :=
  match s.freeTxn with
  | none => none
  | some t =>
    let g := (s.txn t).gen
    let m := s.mkMsg .refinc (remNode w.pay) t g [refBody w.pay]
    let s := s.modTxn t (fun x => { gen := x.gen, phase := .live, kind := .refinc, part := part, msg := some m, parent := parent, held := held })
    s.sendTxn t

/-! RPUSH records (R358). -/

/-- An RPUSH record (Table 13-6). -/
def rpushRecord (s : State) (t : Nat) (failed : Bool) (cause applied : Nat) : Item :=
  let x := s.txn t
  ⟨fixW (putFld 63 62 failed.toNat ||| putFld 61 54 cause ||| putFld 53 52 applied ||| putFld 47 40 x.nak ||| putFld 39 32 x.qreason |||
     putFld 31 16 x.gen ||| putFld 15 0 t), x.remW, x.item0, fixN s.now⟩
/-- The record of an ended RPUSH is pushed; FULL is retried (R358). -/
def pushRpushRecord (s : State) (t : Nat) (it : Item) : State :=
  let x := s.txn t
  let (r, s) := if quePush x.que then s.enginePush x.part (queNum x.que) (queGen x.que) it else (some QR.noRight, s)
  match r with
  | none => s.retireTxn t
  | some reason =>
    if reason == QR.full then s.modTxn t (fun x => { x with rcd := some it })
    else (s.setB Reg.CGL_CSTAT 2).retireTxn t
def endRpush (s : State) (t : Nat) (failed : Bool) (cause applied : Nat) : State :=
  s.pushRpushRecord t (s.rpushRecord t failed cause applied)

/-- RPUSH_RECORD_RETRY. -/
def retryRpushRecord (s : State) (t : Nat) : State :=
  match (s.txn t).phase, (s.txn t).rcd with
  | .live, some it => s.pushRpushRecord t it
  | _, _ => s

/-- A resend after a timeout or a NAK, up to 8 ms after the first send (R357). -/
def rpushResend (s : State) (t : Nat) : State :=
  let x := s.txn t
  if x.phase == .live && x.kind == .rpush && x.again && x.rcd.isNone && decide (s.now < x.firstSend + 8000000) then (s.sendTxn t).getD s else s
/-- 8 ms after the first send the RPUSH ends FAILED (R358). -/
def rpushGiveUp (s : State) (t : Nat) : State :=
  let x := s.txn t
  if x.phase == .live && x.kind == .rpush && x.sent && x.rcd.isNone then
    (s.advanceTo (x.firstSend + 8000000)).endRpush t true 0x11 (if x.lost || !x.again then 2 else 0)
  else s

/-- Accepted PUSH identifiers leave the filter after 12 ms (R357). -/
def filterExpiry (s : State) : State :=
  match s.cg.filter with
  | [] => s
  | e :: _ =>
    let s := s.advanceTo e.2.2.2
    s.modCg (fun x => { x with filter := x.filter.filter (fun e => decide (s.now < e.2.2.2)) })

/-! Time (R362). -/

/-- The ports TIME goes out on. -/
def timePorts (s : State) : List Nat := (List.range 4).filter (fun p => s.rb Reg.CGL_CCTL (16 + p))
/-- TIME leaves by a port, with the link's delay added. -/
def timeOut (s : State) (t hops p : Nat) : State :=
  if s.pUpNow p then
    s.enqueueMsg p { s.mkMsg .time (s.rf (Reg.CGLP_PSTAT p) 27 16) 0 0 [fixN (t + s.rf (Reg.CGLP_PDELAY p) 15 0), fixN hops] with
      hops := 1#5, hidx := 1#5, route := BitVec.ofNat 48 p }
  else s
def isTimeMaster (s : State) : Bool := s.cgValid && s.rf Reg.CGL_NODECFG 43 32 == s.cgNode
def timeSend (s : State) : State := if s.isTimeMaster then s.timePorts.foldl (fun s p => s.timeOut s.now 1 p) s else s
/-- A TIME message: corrected by a step where the node is more than 1 ms behind, else slewed; then sent on. -/
def timeMessage (s : State) : State :=
  match s.takeMsg .time with
  | none => s
  | some (m, s) =>
    if s.isTimeMaster then s
    else
      let t := ((m.body[0]?).getD Word.void).pay.toNat
      let h := ((m.body[1]?).getD Word.void).pay.toNat
      let s := if s.now + 1000000 < t then (s.ioW Reg.CGL_TIMENS (n64 t)).modCg (fun x => { x with slew := 0 })
        else s.modCg (fun x => { x with slew := (t : Int) - s.now })
      let s := s.modCg (fun x => { x with lastTime := s.now })
      s.timePorts.foldl (fun s p => s.timeOut t (h + 1) p) s
def timeLoss (s : State) : State :=
  if s.isTimeMaster || !s.cgValid then s else (s.advanceTo (s.cg.lastTime + 3000000)).setB Reg.CGL_CSTAT 3

/-- The grants the Stoker takes into account (R374): a new one is the current grant; those of the last 25 ms stay listed. The first grant
after a fallback stands against FLOOR. -/
def takeGrant (s : State) (amps : List Int) (validUs : Nat) : State :=
  let g : GrantRec := { at_ := s.now, valid := min validUs 3000 * 1000, amps := amps }
  let floor : GrantRec := { at_ := s.now, valid := 0, amps := (List.range 3).map (fun i => sfld (s.ioR (Reg.STK_FLOOR i)) 63 18) }
  let old := if s.stk.grants.isEmpty then [floor] else s.stk.grants.filter (fun x => decide (s.now < x.at_ + 25000000))
  let s := { s with stk := { s.stk with grants := old ++ [g] } }
  s.wf Reg.STK_SSTAT 9 8 (s.rf Reg.STK_SCTL 41 40)

/-- BGRANT (R365). -/
def bgrant (s : State) : State :=
  match s.takeMsg .bgrant with
  | none => s
  | some (m, s) =>
    let w := fun i => (m.body[i]?).getD Word.void
    let seq := fld (w 3).pay 31 0
    let amp := fun i => (w i).tag == Tag.qty && fld (w i).pay 17 0 == 8
    if m.src.toNat = s.rf Reg.CGL_NODECFG 55 44 && decide (s.rf Reg.CGL_BGSEQ 31 0 < seq) && amp 0 && amp 1 && amp 2 then
      let s := forN 3 (fun i s => s.ioW (Reg.CGL_BGNT i) (w i).pay) s
      let s := (s.ioW Reg.CGL_BGSEQ (putFld 31 0 seq ||| putFld 63 32 (fld (w 4).pay 31 0))).ioW Reg.CGL_BGTIME (n64 s.now)
      s.takeGrant ((List.range 3).map (fun i => sfld (w i).pay 63 18)) (fld (w 4).pay 31 0)
    else s.satAdd Reg.CGL_CSTAT 47 32 1

/-- Reset of a partition (R366): every RPUSH ends with its record, which is tried again where its queue is full (R13), and every other
transaction retires. -/
def corgilReset (s : State) (p : Nat) : State :=
  let live := s.cg.txns.filter (fun e => e.2.phase == .live && e.2.part == p)
  let s := live.foldl (fun s e =>
    if (s.txn e.1).phase != .live then s
    else if e.2.kind != .rpush then s.retireTxn e.1
    else if e.2.rcd.isSome then s
    else
      let s := (s.cg.txns.filter (fun y => y.2.phase == .live && y.2.parent == some e.1)).foldl (fun s y => s.retireTxn y.1) s
      s.endRpush e.1 true 0x81 2) s
  (s.cg.exports.filter (fun e => e.2.phase == .live && e.2.part == p)).foldl (fun s e => s.retireExport e.1) s

/-- INTC sources 344 + p and 348 (R367). -/
def corgilPortSource (s : State) (p : Nat) : Bool := s.rb (Reg.CGLP_PERR p) 0
def corgilSource (s : State) : Bool := (s.ioR Reg.CGL_CSTAT &&& 0x1D#64) != 0#64

end State

end Sys2Proof.Machine
end

