-- ==== Sys2Proof/Machine/Stoker.lean ====
section
/-!
DEFINITION. The Stoker, the safety enable groups, PWM, encoders, the Sense ports' scheduling and the housekeeping ADC (spec 14 R368–R385,
R391–R396). Sampling of a Sense channel is in Machine/Sense.lean.
-/
namespace Sys2Proof.Machine

open Sys2Proof

/-- Value field, in units of 2^−16, and dimension field of a QTY payload (R43). -/
def qVal (p : W64) : Int := sfld p 63 18
def qDim (p : W64) : Nat := fld p 17 0
def qPay (v : Int) (dim : Nat) : W64 := (w64 v <<< 18) ||| putFld 17 0 dim
/-- The dimensions of W and A (Table 2-5). -/
abbrev dimW := 0xAA00
abbrev dimA := 0x8

namespace State

def modStk (s : State) (f : StkSt → StkSt) : State := { s with stk := f s.stk }
def zc (s : State) (ph : Nat) : ZcSt := Tab.get s.stk.zc ph {}
def modZc (s : State) (ph : Nat) (f : ZcSt → ZcSt) : State := s.modStk (fun x => { x with zc := Tab.modify x.zc ph {} f })

/-! Channels. -/
def chPhase (s : State) (c : Nat) : Nat := s.rf (Reg.STK_CHCFG c) 41 40
def chGroup (s : State) (c : Nat) : Nat := s.rf (Reg.STK_CHCFG c) 46 44
def chOn (s : State) (c : Nat) : Bool := s.rb (Reg.STK_CHSTAT c) 32
def chRun (s : State) (c : Nat) : Nat := s.rf (Reg.STK_CHSTAT c) 55 48
def chAcc (s : State) (c : Nat) : Int := sfld (s.ioR (Reg.STK_CHSTAT c)) 31 0
def setChStat (s : State) (c : Nat) (on : Bool) (run : Nat) (acc : Int) : State :=
  s.ioW (Reg.STK_CHSTAT c) (putFld 55 48 run ||| putFld 32 32 on.toNat ||| putFld 31 0 (w64 acc).toNat)
def groupArmed (s : State) (g : Nat) : Bool := s.rb (Reg.STK_GCTL g) 2
/-- Channels of phase ph + 1. -/
def phaseChans (s : State) (ph : Nat) : List Nat := (List.range 256).filter (fun c => s.chPhase c == ph + 1)
def eligible (s : State) (c : Nat) : Bool := s.rb (Reg.STK_CHCFG c) 8 && s.groupArmed (s.chGroup c)

/-- The commanded level of an HO pin. -/
def setHo (s : State) (c : Nat) (on : Bool) : State :=
  if Tab.get s.stk.ho c false == on then s
  else s.modStk (fun x => { x with ho := Tab.set x.ho c on false, chg := Tab.set x.chg c (s.now + 1) 0 })

/-! Zero crossings (R369). -/

def zcSrc (s : State) (ph : Nat) : Nat := s.rf (Reg.STK_ZCCFG ph) 1 0
def zcLocked (s : State) (ph : Nat) : Bool := s.rb (Reg.STK_ZCSTAT ph) 63
def zcHper (s : State) (ph : Nat) : Nat := s.rf (Reg.STK_ZCSTAT ph) 31 0
def setLock (s : State) (ph : Nat) (b : Bool) : State :=
  (s.wf (Reg.STK_ZCSTAT ph) 63 63 b.toNat).wf Reg.STK_SSTAT (10 + ph) (10 + ph) b.toNat

/-- A phase loses lock. -/
def zcLose1 (s : State) (ph : Nat) : State :=
  let s := (s.setLock ph false).setB Reg.STK_SSTAT (5 + ph)
  let s := s.modZc ph (fun _ => {})
  (s.phaseChans ph).foldl (fun s c => (s.setChStat c false 255 (s.chAcc c)).setHo c false) s
/-- With phase 1, the phases that derive from it. -/
def zcLose (s : State) (ph : Nat) : State :=
  let s := s.zcLose1 ph
  if ph = 0 then [1, 2].foldl (fun s q => if s.zcSrc q != 0 && s.zcLocked q then s.zcLose1 q else s) s else s

/-- The mean of a list. -/
def meanOf (l : List Nat) : Nat := l.sum / l.length
/-- 8 half-periods within 2 % of their mean, and the mean between 7.69 ms and 11.11 ms. -/
def lockable (l : List Nat) : Bool :=
  let m := meanOf l
  l.length == 8 && decide (7690000 ≤ m) && decide (m ≤ 11110000) &&
    l.all (fun h => decide (100 * h ≤ 102 * m) && decide (98 * m ≤ 100 * h))

/-- A crossing of a phase with its own input at instant t; n half-periods are measured since the last (2 for a pulse). -/
def ownCrossing (s : State) (ph t n : Nat) : State :=
  let s := s.pulse (304 + ph)
  match (s.zc ph).last with
  | none => s.modZc ph (fun z => { z with last := some t })
  | some t0 =>
    let h := (t - t0) / n
    let out := decide (h < 7690000) || decide (11110000 < h)
    if s.zcLocked ph && out then (s.zcLose ph).modZc ph (fun z => { z with last := some t })
    else
      let hs := (List.replicate n h ++ (s.zc ph).halves).take 8
      let s := (s.modZc ph (fun z => { z with last := some t, halves := hs })).wf (Reg.STK_ZCSTAT ph) 31 0 (meanOf hs)
      if !s.zcLocked ph && lockable hs then
        let s := s.setLock ph true
        if ph = 0 then [1, 2].foldl (fun s q => if s.zcSrc q != 0 then s.setLock q true else s) s else s
      else s

/-- A filtered edge of ZCp at ns, or a crossing the device itself inserts: for a phase derived from phase 1, and between two pulses. -/
def zeroCross (s : State) (ph ns : Nat) (rising : Bool) : State :=
  if s.zcSrc ph ≠ 0 then
    match (s.zc 0).last with
    | none => s
    | some t0 =>
      let t := t0 + 2 * s.zcHper 0 * s.zcSrc ph / 3
      let s := ((s.advanceTo t).wf (Reg.STK_ZCSTAT ph) 31 0 (s.zcHper 0)).modZc ph (fun z => { z with last := some t })
      if s.zcLocked 0 then s.pulse (304 + ph) else s
  else
    let pulseMode := s.rb (Reg.STK_ZCCFG ph) 2
    if pulseMode && !rising then
      match (s.zc ph).last with
      | none => s
      | some t => ((s.advanceTo (t + s.zcHper ph)).pulse (304 + ph))
    else
      let s := s.advanceTo ns
      s.ownCrossing ph (ns - 1000 * s.rf (Reg.STK_ZCCFG ph) 31 16) (if pulseMode then 2 else 1)

/-- No crossing within 1.25 × HPER; a phase derived from phase 1 loses lock with it and by no timeout of its own. -/
def zcTimeout (s : State) (ph : Nat) : State :=
  match s.zcLocked ph && s.zcSrc ph == 0, (s.zc ph).last with
  | true, some t => (s.advanceTo (t + s.zcHper ph * 5 / 4)).zcLose ph
  | _, _ => s

/-- A phase that derives from phase 1 is locked exactly while phase 1 is. -/
def zcDerive (s : State) (ph : Nat) : State :=
  if s.zcSrc ph != 0 && s.zcLocked 0 then (s.setLock ph true).wf (Reg.STK_ZCSTAT ph) 31 0 (s.zcHper 0) else s

/-- A write of ZCCFG (R369, R396): a change of SRC or PULSE is a loss of lock, and tracking restarts with the new setting. -/
def zccfgWrite (s : State) (ph : Nat) (v : W64) : State :=
  let old := s.ioR (Reg.STK_ZCCFG ph)
  let src := if fld v 1 0 = 3 ∨ (ph = 0 ∧ fld v 1 0 ≠ 0) then fld old 1 0 else fld v 1 0
  let s := s.ioW (Reg.STK_ZCCFG ph) (putFld 31 16 (fld v 31 16) ||| putFld 2 2 (fld v 2 2) ||| putFld 1 0 src)
  if (src ≠ fld old 1 0 ∨ fld v 2 2 ≠ fld old 2 2) ∧ (s.zcLocked ph || (s.zc ph).last.isSome) then (s.zcLose ph).zcDerive ph
  else if src ≠ fld old 1 0 then s.zcDerive ph
  else s

/-! Allowances (R373, R374). -/

def bmode (s : State) : Nat := s.rf Reg.STK_SCTL 41 40
/-- The current grant, while it is valid. -/
def currentGrant (s : State) : Option GrantRec :=
  match s.stk.grants.reverse with
  | g :: _ => if s.now < g.at_ + g.valid then some g else none
  | [] => none
/-- The allowance of phase ph + 1, in units of 2^−16 A. -/
def allowance (s : State) (ph : Nat) : Int :=
  let floor := qVal (s.ioR (Reg.STK_FLOOR ph))
  if s.bmode = 0 then floor
  else match s.currentGrant with
    | none => floor
    | some g =>
      let amp := fun (g : GrantRec) => (g.amps[ph]?).getD 0
      (s.stk.grants.filter (fun x => decide (s.now < x.at_ + 25000000))).foldl (fun m x => min m (amp x)) (amp g)
/-- A grant's validity ends with no newer one. -/
def grantExpiry (s : State) : State :=
  match s.stk.grants.reverse with
  | g :: _ =>
    let s := (s.advanceTo (g.at_ + g.valid)).modStk (fun x => { x with grants := [] })
    let s := s.wf Reg.STK_SSTAT 9 8 0
    ((if s.bmode = 0 then s else s.setB Reg.STK_SSTAT 3)).ioW Reg.CGL_BGSEQ 0#64
  | [] => s

/-- A write of SCTL (R370, R373). -/
def sctlWrite (s : State) (v : W64) : State :=
  let s := if fld v 41 40 = 3 then s else s.wf Reg.STK_SCTL 41 40 (fld v 41 40)
  let s := s.wf Reg.STK_SCTL 39 32 (fld v 39 32)
  let s := if fld v 31 16 < fld v 15 0 + 100 then s else s.wf Reg.STK_SCTL 31 0 (fld v 31 0)
  s.wf Reg.STK_SSTAT 9 8 (match s.currentGrant with | some _ => s.bmode | none => 0)

/-! Planning (R370, R372). -/

/-- d of a channel: min(DEM / PRATED, 1) rounded by R119 to a multiple of 2^−16. -/
def chDemand (s : State) (c : Nat) : Int :=
  let dem := qVal (s.ioR (Reg.STK_DEM c))
  let pr := qVal (s.ioR (Reg.STK_PRATED c))
  if pr ≤ 0 then 0
  else if pr ≤ dem then 65536
  else ((Flo.roundNat false (dem.toNat * 65536) pr.toNat 0).1 : Nat)

def chAmp (s : State) (c : Nat) : Int := qVal (s.ioR (Reg.STK_IRATED c))

/-- Insertion by descending ACC, then ascending channel. -/
def insertChan (acc : Nat → Int) (c : Nat) : List Nat → List Nat
  | [] => [c]
  | x :: t => if acc c > acc x || (acc c == acc x && decide (c < x)) then c :: x :: t else x :: insertChan acc c t

/-- What a plan decides. -/
structure Plan where
  fire : List Nat := []
  use  : Int := 0
  sw   : Nat := 0
  viol : Nat := 0

/-- The plan of phase ph + 1 under an allowance (R372), with ACC after the demands have been added. -/
def plan (s : State) (ph : Nat) (allow : Int) (acc : Nat → Int) : Plan :=
  let el := (s.phaseChans ph).filter (fun c => s.eligible c)
  let swmax := s.rf Reg.STK_SCTL 39 32
  let held := el.filter (fun c => s.chOn c && decide (s.chRun c < s.rf (Reg.STK_CHCFG c) 23 16))
  let p := held.foldl (fun (p : Plan) c =>
    if p.use + s.chAmp c ≤ allow then { p with fire := p.fire ++ [c], use := p.use + s.chAmp c } else { p with viol := p.viol + 1 }) {}
  let cand := (el.filter (fun c => !p.fire.contains c && decide (32768 ≤ acc c) &&
    (s.chOn c || decide (s.rf (Reg.STK_CHCFG c) 31 24 ≤ s.chRun c)))).foldl (fun l c => insertChan acc c l) []
  cand.foldl (fun (p : Plan) c =>
    if allow < p.use + s.chAmp c then p
    else if !s.chOn c && swmax != 0 && decide (swmax ≤ p.sw) then p
    else { p with fire := p.fire ++ [c], use := p.use + s.chAmp c, sw := p.sw + (!s.chOn c).toNat }) p

/-- RUN after a plan that leaves or changes ON. -/
def nextRun (old new : Bool) (run : Nat) : Nat := if old == new then min 255 (run + 1) else 1

/-- PLAN bits of a channel. -/
def setPlanBit (s : State) (c : Nat) (on : Bool) : State := s.wf (Reg.STK_PLAN (c / 64)) (c % 64) (c % 64) on.toNat

/-- The half-cycle in which no channel of the phase fires and no ACC changes (R370): a plan with nothing in it. -/
def blankPlan (s : State) (ph : Nat) : State :=
  ((s.phaseChans ph).foldl (fun s c =>
    ((s.setChStat c false (nextRun (s.chOn c) false (s.chRun c)) (s.chAcc c)).setPlanBit c false).setHo c false) s).ioW (Reg.STK_USE ph) (qPay 0 dimA)

/-- Planning of the next half-cycle of a phase. -/
def halfCyclePlan (s : State) (ph : Nat) : State :=
  match s.zcLocked ph, (s.zc ph).last with
  | true, some t =>
    let pred := t + s.zcHper ph
    if (s.zc ph).planFor = pred then s
    else
      let s := (s.advanceTo (pred - 1000 * s.rf Reg.STK_SCTL 31 16)).countUn 0x16 ph
      let late := decide (pred - 1000 * s.rf Reg.STK_SCTL 15 0 < s.now)
      let s := s.modZc ph (fun z => { z with planFor := pred, switched := late })
      if late then s.blankPlan ph
      else
        let acc := fun c => if s.eligible c then s.chAcc c + s.chDemand c else s.chAcc c
        let allow := s.allowance ph
        let p := s.plan ph allow acc
        let s1 := (s.phaseChans ph).foldl (fun s1 c =>
          let on := p.fire.contains c
          let a := acc c - (if on then 65536 else 0)
          let a := if s.eligible c then max (-65536) (min a 131072) else a
          (s1.setChStat c on (nextRun (s.chOn c) on (s.chRun c)) a).setPlanBit c on) s
        (s1.ioW (Reg.STK_USE ph) (qPay p.use dimA)).satAdd Reg.STK_SSTAT 47 32 p.viol
  | _, _ => s

/-- The outputs of a phase switch to the plan. -/
def outputSwitch (s : State) (ph : Nat) : State :=
  if !s.zcLocked ph || (s.zc ph).switched then s
  else
    let s := (s.advanceTo ((s.zc ph).planFor - 1000 * s.rf Reg.STK_SCTL 15 0)).modZc ph (fun z => { z with switched := true })
    (s.phaseChans ph).foldl (fun s c => s.setHo c (s.chOn c)) s

/-- A write of DEMc (R371). -/
def demWrite (s : State) (c : Nat) (v : W64) : State :=
  if qDim v = dimW ∧ 0 ≤ qVal v then s.ioW (Reg.STK_DEM c) v else s.setB Reg.STK_SSTAT 0
/-- A write of a quantity with a fixed dimension (R393, R396). -/
def qtyWrite (s : State) (pa dim : Nat) (v : W64) : State :=
  if qDim v = dim ∧ 0 < qVal v then s.ioW pa v else s.setB Reg.STK_SSTAT 1

/-! The budget (R375–R377). -/

/-- The demand of phase ph + 1, rounded up to a multiple of 2^−16 A (R375). -/
def phaseDemand (s : State) (ph : Nat) : Int :=
  let sum := ((s.phaseChans ph).filter (fun c => s.eligible c)).foldl (fun (a : Int) c => a + s.chDemand c * s.chAmp c) 0
  Int.neg ((-sum) / 65536)
def storeDemands (s : State) : State := forN 3 (fun ph s => s.ioW (Reg.STK_DEMP ph) (qPay (s.phaseDemand ph) dimA)) s

def breqSend (s : State) : State :=
  if s.bmode ≠ 1 then s
  else
    let s := s.storeDemands.modStk (fun x => { x with bseq := x.bseq + 1 })
    s.sendOrDrop (s.mkMsg .breq (s.rf Reg.CGL_NODECFG 55 44) 0 0
      ((List.range 3).map (fun ph => ⟨Tag.qty, s.ioR (Reg.STK_DEMP ph)⟩) ++ [fixN s.stk.bseq]))

/-- The nodes MNODE lists. -/
def listedNodes (s : State) : List Nat :=
  ((List.range 64).filter (fun k => s.rb (Reg.STK_MNODE k) 12)).map (fun k => s.rf (Reg.STK_MNODE k) 11 0)

/-- BREQ at the master (R376). -/
def breqReceive (s : State) : State :=
  match s.takeMsg .breq with
  | none => s
  | some (m, s) =>
    if s.bmode = 2 && s.listedNodes.contains m.src.toNat then
      let r : BreqRec := { node := m.src.toNat, at_ := s.now, amps := (m.body.take 3).map (fun w => qVal w.pay) }
      s.modStk (fun x => { x with breqs := x.breqs.filter (fun b => b.node != r.node) ++ [r] })
    else s.satAdd Reg.STK_SSTAT 63 48 1

/-- The last demand of a listed node. -/
def nodeDemand (s : State) (node ph : Nat) : Int :=
  if node = s.cgNode then qVal (s.ioR (Reg.STK_DEMP ph))
  else match s.stk.breqs.find? (fun b => b.node == node && decide (s.now ≤ b.at_ + 3000000)) with
    | some b => (b.amps[ph]?).getD 0
    | none => 0

/-- The grant of a node on a phase. -/
def grantFor (s : State) (nodes : List Nat) (node ph : Nat) : Int :=
  let f := qVal (s.ioR (Reg.STK_MFLOOR ph))
  let p := qVal (s.ioR (Reg.STK_MCAP ph)) - nodes.length * f
  let e := fun n => max 0 (s.nodeDemand n ph - f)
  let sum := nodes.foldl (fun (a : Int) n => a + e n) 0
  if sum ≤ p then f + e node else f + e node * p / sum

/-- One grant pass of the master. -/
def grantPass (s : State) : State :=
  if s.bmode ≠ 2 then s
  else
    let nodes := s.listedNodes
    let s := s.storeDemands.wf Reg.STK_MSTAT 38 32 nodes.length
    if (List.range 3).any (fun ph => decide (qVal (s.ioR (Reg.STK_MCAP ph)) < nodes.length * qVal (s.ioR (Reg.STK_MFLOOR ph)))) then s.setB Reg.STK_SSTAT 4
    else if s.stk.seqPause.isSome then s
    else if s.rf Reg.STK_MSTAT 31 0 = 0xFFFFFFFF then s.modStk (fun x => { x with seqPause := some s.now })
    else
      let s := s.wrapAdd Reg.STK_MSTAT 31 0 1
      let seq := s.rf Reg.STK_MSTAT 31 0
      let grants := fun n => (List.range 3).map (fun ph => s.grantFor nodes n ph)
      let s1 := (nodes.filter (· != s.cgNode)).foldl (fun s1 n => s1.sendOrDrop (s1.mkMsg .bgrant n 0 0
        ((grants n).map (fun v => ⟨Tag.qty, qPay v dimA⟩) ++ [fixN seq, fixN 3000]))) s
      if nodes.contains s.cgNode then s1.takeGrant (grants s.cgNode) 3000 else s1

def grantSeqRestart (s : State) : State :=
  match s.stk.seqPause with
  | none => s
  | some t => ((s.advanceTo (t + 4000000)).modStk (fun x => { x with seqPause := none })).wf Reg.STK_MSTAT 31 0 0

/-! Groups (R379–R381). -/

/-- The safety monitor holds an active reaction on a group (R379, R458). -/
def groupHeld (s : State) (g : Nat) : Bool :=
  (findN 256 (fun i => s.rb (Reg.SAFE_FPEND (i / 64)) (i % 64) && decide (3 ≤ s.rf (Reg.SAFE_FCFG i) 2 0) &&
    (s.rb (Reg.SAFE_FCFG i) (24 + g) || (Tab.get s.saf.mask i 0).testBit g))).isSome

def groupChans (s : State) (g : Nat) : List Nat := (List.range 256).filter (fun c => s.chPhase c != 0 && s.chGroup c == g)

/-- Entry of a group to SAFE (R380). -/
def groupSafe (s : State) (g cause : Nat) : State :=
  if !s.groupArmed g then s
  else
    let s := ((s.wf (Reg.STK_GCTL g) 6 4 cause).wf (Reg.STK_GCTL g) 2 2 0).pulse (309 + g)
    let s := s.modStk (fun x => { x with chg := Tab.set x.chg (256 + g) (s.now + 1) 0 })
    let s := (s.groupChans g).foldl (fun s c => (s.setChStat c false 255 0).setHo c false) s
    forN 32 (fun k s =>
      if s.rb (Reg.PWM_PWCFG k) 2 && s.rf (Reg.PWM_PWCFG k) 6 4 == g then
        s.modStk (fun x => { x with pwm := Tab.modify x.pwm k {} (fun w => { w with run := false }) }) else s) s

/-- An ARM request of partition p (R379). -/
def groupArm (s : State) (p g key : Nat) : State :=
  let bad := (s.groupChans g).any (fun c => s.rb (Reg.STK_RBERR (c / 64)) (c % 64))
  if s.owner .group g == some p && key == 0xA5C3 && !s.groupHeld g && !bad && !s.rb (Reg.STK_GCTL g) 8 then
    if s.groupArmed g then s
    else ((s.wf (Reg.STK_GCTL g) 2 2 1).modStk (fun x => { x with chg := Tab.set x.chg (256 + g) (s.now + 1) 0 })).pulse (309 + g)
  else s.setB (Reg.STK_GCTL g) 9

/-- A write of GCTL (R379, R380, R393). -/
def gctlWrite (s : State) (p g : Nat) (v : W64) : State :=
  if !s.mayWrite p .group g then s
  else
    let s := s.ioW (Reg.STK_GCTL g) (s.ioR (Reg.STK_GCTL g) &&& ~~~(v &&& fmask 9 8))
    if bitAt v 1 then s.groupSafe g 1
    else if bitAt v 0 then s.groupArm p g (fld v 63 48)
    else s

/-- A pin differs from its commanded level in a sample that counts; answers whether this is the third in a row. -/
def sampleDiff (s : State) (pin : Nat) (want got : Bool) : Bool × State :=
  let at_ := Tab.get s.stk.chg pin 0
  if at_ ≠ 0 ∧ s.now < at_ - 1 + 20000 then (false, s)
  else if want == got then (false, s.modStk (fun x => { x with diff := Tab.set x.diff pin 0 0 }))
  else
    let n := Tab.get s.stk.diff pin 0 + 1
    if 3 ≤ n then (true, s.modStk (fun x => { x with diff := Tab.set x.diff pin 0 0 }))
    else (false, s.modStk (fun x => { x with diff := Tab.set x.diff pin n 0 }))

/-- A readback error of a group (R381). -/
def readbackError (s : State) (g : Nat) : State :=
  ((s.setB Reg.STK_SSTAT 2).raiseFault (80 + g) ((s.owner .group g).getD 0)).groupSafe g 3

/-- A sample of the pads (R381). -/
def readbackSample (s : State) (ho : BitVec 256) (hen : BitVec 8) : State :=
  let s := forN 256 (fun c s =>
    match s.sampleDiff c (Tab.get s.stk.ho c false) (ho.getLsbD c) with
    | (true, s) => (s.setB (Reg.STK_RBERR (c / 64)) (c % 64)).readbackError (s.chGroup c)
    | (false, s) => s) s
  forN 8 (fun g s =>
    match s.sampleDiff (256 + g) (s.groupArmed g) (hen.getLsbD g) with
    | (true, s) => (s.setB (Reg.STK_GCTL g) 8).readbackError g
    | (false, s) => s) s

/-- A w1c write of RBERR word w: the bits of the channels the writer owns. -/
def rberrWrite (s : State) (p w : Nat) (v : W64) : State :=
  let m := (List.range 64).foldl (fun (m : W64) k => if s.mayWrite p .group (s.chGroup (64 * w + k)) then m ||| fmask k k else m) 0#64
  s.ioW (Reg.STK_RBERR w) (s.ioR (Reg.STK_RBERR w) &&& ~~~(v &&& m))

/-! PWM and encoders (R382, R383). -/

def pwm (s : State) (k : Nat) : PwmSt := Tab.get s.stk.pwm k {}
def modPwm (s : State) (k : Nat) (f : PwmSt → PwmSt) : State := s.modStk (fun x => { x with pwm := Tab.modify x.pwm k {} f })
/-- The channel is held by its gating group. -/
def pwmGated (s : State) (k : Nat) : Bool := s.rb (Reg.PWM_PWCFG k) 2 && !s.groupArmed (s.rf (Reg.PWM_PWCFG k) 6 4)
/-- A period begins: pending PER and DUTY are taken. -/
def pwmPeriod (s : State) (k : Nat) : State :=
  let per := s.rf (Reg.PWM_PWPER k) 31 0
  s.modPwm k (fun _ => { per := per, duty := s.rf (Reg.PWM_PWDUTY k) 31 0,
                         run := decide (per ≠ 0) && s.rb (Reg.PWM_PWCFG k) 0 && !s.pwmGated k })
/-- A write of PER or DUTY: at once while PER is 0, else at the next period. -/
def pwmWrite (s : State) (k : Nat) (duty : Bool) (v : W64) : State :=
  let s := if duty then s.wf (Reg.PWM_PWDUTY k) 31 0 (fld v 31 0) else s.wf (Reg.PWM_PWPER k) 31 0 (fld v 31 0)
  if (s.pwm k).per = 0 then s.pwmPeriod k else s

/-- The position of an encoder becomes x. -/
def setPos (s : State) (e : Nat) (x : W64) : State :=
  let was := s.ioR (Reg.PWM_ENCPOS e)
  let s := s.ioW (Reg.PWM_ENCPOS e) x
  if was ≠ x ∧ x = s.ioR (Reg.PWM_ENCCMP e) then s.setB (Reg.PWM_ENCSTAT e) 1 else s
/-- Filtered levels of A and B change. -/
def encStep (s : State) (e : Nat) (a b : Bool) : State :=
  let (a0, b0) := Tab.get s.stk.encAB e (false, false)
  let s := s.modStk (fun x => { x with encAB := Tab.set x.encAB e (a, b) (false, false) })
  let mode := s.rf (Reg.PWM_ENCCFG e) 1 0
  if a0 != a && b0 != b then s.satAdd (Reg.PWM_ENCSTAT e) 63 48 1
  else
    let go := fun (up : Bool) => s.setPos e (if up then s.ioR (Reg.PWM_ENCPOS e) + 1#64 else s.ioR (Reg.PWM_ENCPOS e) - 1#64)
    if a0 != a then (if mode = 0 then (if a then go (!b) else s) else go (a != b))
    else if b0 != b then (if mode = 2 then go (a == b) else s)
    else s
def encIndex (s : State) (e : Nat) : State :=
  let s := (s.ioW (Reg.PWM_ENCIDX e) (s.ioR (Reg.PWM_ENCPOS e))).setB (Reg.PWM_ENCSTAT e) 0
  if s.rb (Reg.PWM_ENCCFG e) 2 then s.setPos e 0#64 else s

/-! Sense scheduling (R384). -/

def sense (s : State) (ch : Nat) : SenseSt := Tab.get s.stk.sense ch {}
def modSense (s : State) (ch : Nat) (f : SenseSt → SenseSt) : State := s.modStk (fun x => { x with sense := Tab.modify x.sense ch {} f })
def snsPort (s : State) (ch : Nat) : Nat := s.rf (Reg.SNS_CFRAME ch) 11 9
def senseDue (s : State) (ch : Nat) : State :=
  if !s.rb (Reg.SNS_CFRAME ch) 14 then s
  else if (s.sense ch).due then s.satAdd (Reg.SNS_PSTAT (s.snsPort ch)) 63 48 1
  else s.modSense ch (fun x => { x with due := true })
/-- The due channel a port serves next. -/
def nextDue (s : State) (port : Nat) : Option Nat :=
  findN 512 (fun ch => (s.sense ch).due && s.rb (Reg.SNS_CFRAME ch) 14 && s.snsPort ch == port)
/-- A CLR write (R387), and a CRING write (R388). -/
def senseClear (s : State) (ch : Nat) : State := (s.wf (Reg.SNS_CSTAT ch) 0 0 0).modSense ch (fun x => { x with fails := 0 })
def cringWrite (s : State) (ch : Nat) (v : W64) : State := (s.ioW (Reg.SNS_CRING ch) v).modSense ch (fun x => { x with ringOff := false })
/-- A channel of the port drives the plausibility input (R387). -/
def senseFault (s : State) (port : Nat) : Bool :=
  (findN 512 (fun ch => s.snsPort ch == port && s.rb (Reg.SNS_CFRAME ch) 16 && s.rb (Reg.SNS_CSTAT ch) 0)).isSome

/-- While FAULT and SAFE of a channel are both 1, the port's input is asserted (R387). -/
def senseInput (s : State) (ch : Nat) : State :=
  if s.rb (Reg.SNS_CSTAT ch) 0 && s.rb (Reg.SNS_CFRAME ch) 16 then s.raiseFault (88 + s.snsPort ch) ((s.owner .sense ch).getD 0) else s

/-! Housekeeping ADC (R391, R392). -/

def hkaConversion (s : State) (k code : Nat) : State :=
  if !(s.rb Reg.HKA_HCTL 16 && s.rb Reg.HKA_HCTL k) then s
  else
    let s := (s.ioW (Reg.HKA_HRAW k) (putFld 11 0 code)).ioW (Reg.HKA_HRES k) (qPay (Config.hkaValue k code) (if k = 8 then 0x40 else 0xAA38))
    let l := s.ioR (Reg.HKA_HLIM k)
    let s := if code < fld l 27 16 ∨ fld l 43 32 < code then
        (let s := s.setB (Reg.HKA_HLIM k) 0
         if bitAt l 4 then s.raiseFault (96 + k) ((s.owner .hka k).getD 0) else s)
      else s
    if (findN 16 (fun j => decide (k < j) && s.rb Reg.HKA_HCTL j)).isNone then s.modStk (fun x => { x with hkaReq := s.now + 100 }) else s

/-! Reset of a partition (R394). -/

def stokerReset (s : State) (p : Nat) : State :=
  let s := forN 8 (fun g s =>
    if s.owner .group g == some p then
      (s.groupChans g).foldl (fun s c => s.ioW (Reg.STK_DEM c) 0#64) (s.groupSafe g 4)
    else s) s
  let s := forN 512 (fun ch s =>
    if s.owner .sense ch == some p then
      (forN 16 (fun j s => s.ioReset (Reg.SNS_CFRAME ch + j)) s).modSense ch (fun _ => {})
    else s) s
  let s := forN 32 (fun k s => if s.owner .pwm k == some p then
    (forN 3 (fun j s => s.ioReset (Reg.PWM_PWCFG k + j)) s).modPwm k (fun _ => {}) else s) s
  let s := forN 8 (fun e s => if s.owner .encoder e == some p then forN 5 (fun j s => s.ioReset (Reg.PWM_ENCCFG e + j)) s else s) s
  forN 16 (fun k s => if s.owner .hka k == some p then s.ioReset (Reg.HKA_HLIM k) else s) s

/-! INTC sources (R395). -/
def stokerSource (s : State) : Bool :=
  fld (s.ioR Reg.STK_SSTAT) 7 0 != 0 || (List.range 4).any (fun w => s.ioR (Reg.STK_RBERR w) != 0#64)
def sensePortSource (s : State) (port : Nat) : Bool :=
  (findN 512 (fun ch => s.snsPort ch == port && (s.ioR (Reg.SNS_CSTAT ch) &&& 0xD#64) != 0#64)).isSome
def encoderSource (s : State) (e : Nat) : Bool := fld (s.ioR (Reg.PWM_ENCSTAT e)) 1 0 != 0
def hkaSource (s : State) : Bool := (List.range 16).any (fun k => s.rb (Reg.HKA_HLIM k) 0)

end State

end Sys2Proof.Machine
end

