-- ==== Sys2Proof/Machine/Periph.lean ====
section
/-!
DEFINITION. The network, service and peripheral interfaces and the GPIO pins (spec 15 R397–R405): the common registers and the octet path,
frames and records, gate control lists and PTP clocks, bus transactions, and the safe levels of GPIO pins (R404, R452).
-/
namespace Sys2Proof.Machine

open Sys2Proof

/-- Index of an instance among all, its base address, and its unit (Table 1-4). -/
def perIdx : PerId → Nat
  | .eth i => i.val | .usb => 4 | .can i => 5 + i.val | .uart i => 9 + i.val | .i2c i => 17 + i.val | .pmb => 21 | .xspi => 22
def perBase : PerId → Nat
  | .eth i => 0xFF00C00000 + 0x10000 * i.val | .usb => 0xFF00C40000 | .can i => 0xFF00C50000 + 0x1000 * i.val
  | .uart i => 0xFF00C60000 + 0x1000 * i.val | .i2c i => 0xFF00C70000 + 0x1000 * i.val | .pmb => 0xFF00C80000 | .xspi => 0xFF00C90000
/-- Words of an instance's register block. -/
def perSize : PerId → Nat
  | .eth _ => 0x10000 | .usb => 0x10000 | _ => 0x1000
/-- The switched domain of an instance; none where it is always on (Table 16-3). -/
def perDomain : PerId → Option Nat
  | .eth i => some (263 + i.val) | .can _ => some 267 | .uart _ => some 267 | .i2c _ => some 267 | .usb => some 268 | _ => none
/-- The INTC source of an instance (Table 7-6). -/
def perSrc : PerId → Nat
  | .eth i => 317 + i.val | .usb => 325 | .can i => 326 + i.val | .uart i => 330 + i.val | .i2c i => 338 + i.val | .pmb => 342 | .xspi => 343
/-- Its transmit and receive DMA request lines (Table 15-2). -/
def perLines : PerId → Option (Nat × Nat)
  | .eth i => some (0x01 + 2 * i.val, 0x02 + 2 * i.val) | .usb => some (0x10, 0x11) | .can i => some (0x18 + 2 * i.val, 0x19 + 2 * i.val)
  | .uart i => some (0x20 + 2 * i.val, 0x21 + 2 * i.val) | .i2c i => some (0x30 + 2 * i.val, 0x31 + 2 * i.val) | .xspi => some (0x40, 0x41)
  | .pmb => none
/-- Instances whose octets come in frames (R398, R399). -/
def perFramed : PerId → Bool
  | .eth _ | .usb | .can _ => true | _ => false
/-- All instances. -/
def perAll : List PerId :=
  (List.finRange 4).map .eth ++ [.usb] ++ (List.finRange 4).map .can ++ (List.finRange 8).map .uart ++ (List.finRange 4).map .i2c ++ [.pmb, .xspi]

/-- The octets of a payload, least significant first; and a payload of up to 8 octets. -/
def octetsOf (n : Nat) (v : W64) : List Octet := (List.range n).map (fun k => BitVec.ofNat 8 (fld v (8 * k + 7) (8 * k)))
def payOf : List Octet → W64
  | [] => 0#64
  | o :: t => (payOf t <<< 8) ||| o.setWidth 64

namespace State

def perSt (s : State) (p : PerId) : PerSt := Tab.get s.pers (perIdx p) {}
def modPer (s : State) (p : PerId) (f : PerSt → PerSt) : State := { s with pers := Tab.modify s.pers (perIdx p) {} f }

/-- Partition 0 and the owner write an instance (R401). -/
def perMayWrite (s : State) (q : Nat) : PerId → Bool
  | .eth i => s.mayWrite q .eth i.val
  | .usb => s.mayWrite q .usb 0
  | .can i => s.mayWrite q .can i.val
  | .uart i => s.mayWrite q .uart i.val
  | .i2c i => s.mayWrite q .i2c i.val
  | .pmb => q == 0
  | .xspi => s.mayWrite q .xspi 0
def perOwner (s : State) : PerId → Option Nat
  | .eth i => s.owner .eth i.val
  | .usb => s.owner .usb 0
  | .can i => s.owner .can i.val
  | .uart i => s.owner .uart i.val
  | .i2c i => s.owner .i2c i.val
  | .pmb => none
  | .xspi => s.owner .xspi 0

def perEn (s : State) (p : PerId) : Bool := s.rb (Reg.PER_PCTL (perBase p)) 0
def perMode (s : State) (p : PerId) : Nat := s.rf (Reg.PER_PCTL (perBase p)) 11 8
def setPstat (s : State) (p : PerId) (bit : Nat) : State := s.setB (Reg.PER_PSTAT (perBase p)) bit
def perLink (s : State) (p : PerId) : Bool := s.rb (Reg.PER_PSTAT (perBase p)) 4
/-- LINK takes a value; a change pulses the source where PINT bit 4 is set. -/
def setLink (s : State) (p : PerId) (b : Bool) : State :=
  if s.perLink p == b then s
  else
    let s := s.wf (Reg.PER_PSTAT (perBase p)) 4 4 b.toNat
    if s.rb (Reg.PER_PINT (perBase p)) 4 then s.pulse (perSrc p) else s

/-- Every register in an address range returns to its reset value, but for those excepted. -/
def resetRange (s : State) (lo n : Nat) (keep : Nat → Bool) : State :=
  ((Tab.keys s.io ++ Tab.keys s.img).filter (fun a => decide (lo ≤ a) && decide (a < lo + n) && !keep a)).foldl (fun s a => s.ioReset a) s

/-- SRST (R401, and PCTL): the buffers empty, every other register returns to its reset value. -/
def perSrst (s : State) (p : PerId) : State :=
  (s.resetRange (perBase p) (perSize p) (fun a => a == Reg.PER_PCTL (perBase p))).modPer p (fun x => { rate := x.rate })
/-- The reset of an instance with its partition, or a shed instance: as SRST, PCTL included. -/
def perReset (s : State) (p : PerId) : State := (s.perSrst p).ioReset (Reg.PER_PCTL (perBase p))

/-- A write of PCTL. -/
def pctlWrite (s : State) (p : PerId) (v : W64) : State :=
  let s := s.ioW (Reg.PER_PCTL (perBase p)) (v &&& (fmask 26 16 ||| fmask 11 8 ||| fmask 2 2 ||| fmask 0 0))
  let s := s.modPer p (fun x => { x with recover := x.recover || bitAt v 0 })
  if bitAt v 1 then s.perSrst p else s

/-! Octets. -/

def rxCount (s : State) (p : PerId) : Nat := ((s.perSt p).rx.map List.length).sum
/-- Octets enqueued for transmission (R398). -/
def perEnqueue (s : State) (p : PerId) (os : List Octet) : State := s.modPer p (fun x => { x with tx := x.tx ++ os })
/-- The end of a frame (R398). -/
def perEof (s : State) (p : PerId) : State :=
  if perFramed p then s.modPer p (fun x => if x.tx.isEmpty then x else { x with frames := x.frames ++ [x.tx], tx := [] }) else s
/-- Up to n received octets, popped unless peeked. -/
def perTake (s : State) (p : PerId) (n : Nat) (peek : Bool) : List Octet × State :=
  match (s.perSt p).rx with
  | [] => ([], s)
  | r :: t =>
    let got := r.take n
    if peek then (got, s)
    else (got, s.modPer p (fun x => { x with rx := if (r.drop n).isEmpty then t else r.drop n :: t }))
/-- Octets received: kept as one record, or dropped where the buffer is full; an empty buffer is not (DEDUCED from RXDROP's words in Table
15-1; UNSAFE, notes/assumptions/66). -/
def perDeliver (s : State) (p : PerId) (os : List Octet) (join : Bool) : State :=
  if s.rxCount p ≠ 0 ∧ Config.rxRoom (perIdx p) < s.rxCount p + os.length then
    (s.satAdd (Reg.PER_PSTAT (perBase p)) 63 48 1).setPstat p 0
  else s.modPer p (fun x => { x with rx :=
    match x.rx.reverse, join with
    | l :: t, true => t.reverse ++ [l ++ os]
    | _, _ => x.rx ++ [os] })

/-- DMA request line n is asserted (R400, R392). -/
def reqLine (s : State) (n : Nat) : Bool :=
  if n = 0x48 then decide (s.now < s.stk.hkaReq)
  else perAll.any (fun p =>
    match perLines p with
    | none => false
    | some (t, r) =>
      (n == t && decide ((s.perSt p).tx.length + ((s.perSt p).frames.map List.length).sum + 8 ≤ Config.txRoom (perIdx p))) ||
      (n == r && (match (s.perSt p).rx with | [] => false | h :: rest => decide (8 ≤ h.length) || !rest.isEmpty || perFramed p)))

/-- The source of an instance (PINT). -/
def perSource (s : State) (p : PerId) : Bool :=
  let e := s.rf (Reg.PER_PINT (perBase p)) 3 0
  (s.rb (Reg.PER_PINT (perBase p)) 5 && !(s.perSt p).rx.isEmpty) || (e &&& s.rf (Reg.PER_PSTAT (perBase p)) 3 0) != 0

/-! Frames (R399, R402). -/

/-- An Ethernet destination passes the address filters (RXCFG, MCF). -/
def ethAccepts (s : State) (i : Nat) (f : List Octet) : Bool :=
  let a := (f.take 6).foldl (fun n o => n * 256 + o.toNat) 0
  let c := s.ioR (Reg.ETH_RXCFG i)
  bitAt c 0 || a == s.rf (Reg.ETH_MACADDR i) 47 0 || (a == 2 ^ 48 - 1 && bitAt c 1) ||
    ((f.headD 0#8).getLsbD 0 && a != 2 ^ 48 - 1 && (bitAt c 2 || (List.range 16).any (fun k =>
      s.rb (Reg.ETH_MCF i k) 63 && s.rf (Reg.ETH_MCF i k) 47 0 == a)))
/-- A CAN identifier passes a valid filter; with no valid filter every frame is kept. -/
def canAccepts (s : State) (i : Nat) (id : BitVec 32) : Bool :=
  let fs := (List.range 64).filter (fun k => s.rb (Reg.CAN_CANFLT i k) 63)
  fs.isEmpty || fs.any (fun k =>
    let f := s.ioR (Reg.CAN_CANFLT i k)
    bitAt f 62 == id.getLsbD 31 && (id.toNat % 2 ^ 29) &&& fld f 28 0 == (fld f 60 32) &&& fld f 28 0)

/-- CAN error counters and states (ISO 11898-1). -/
def canState (s : State) (i : Nat) (tec rec_ : Nat) : State :=
  let st := if 256 ≤ tec then 2 else if 128 ≤ tec || 128 ≤ rec_ then 1 else 0
  let s := s.ioW (Reg.CAN_CANERR i) (putFld 17 16 st ||| putFld 15 8 (min rec_ 255) ||| putFld 7 0 (min tec 255))
  if st = 2 then ((s.setPstat (.can (Fin.ofNat 4 i)) 2).setLink (.can (Fin.ofNat 4 i)) false).modPer (.can (Fin.ofNat 4 i)) (fun x => { x with recover := false }) else s

/-- The record of a received frame (R399). -/
def frameRecord (s : State) (p : PerId) (f : FrameIn) : List Octet :=
  let room := 8 * s.rf (Reg.PER_PCTL (perBase p)) 26 16 - 16
  let trunc := decide (room < f.octets.length)
  let ts := match p with | .eth i => some (s.ioR (Reg.ETH_PTPNS i.val)) | _ => none
  let id := match p with | .can _ => f.canId | _ => 0#32
  let hdr := octetsOf 2 (n64 f.octets.length) ++ octetsOf 2 (putFld 0 0 trunc.toNat ||| putFld 1 1 ts.isSome.toNat) ++
    octetsOf 4 (id.setWidth 64) ++ octetsOf 8 (ts.getD 0#64)
  let body := f.octets.take room
  hdr ++ body ++ List.replicate (room - body.length) 0#8

def frameReceive (s : State) (p : PerId) (f : FrameIn) : State :=
  if !perFramed p || !s.perEn p then s
  else if !f.crcOk then
    let s := s.setPstat p 2
    match p with
    | .can i => s.canState i.val (s.rf (Reg.CAN_CANERR i.val) 7 0) (s.rf (Reg.CAN_CANERR i.val) 15 8 + 1)
    | _ => s
  else
    let ok := match p with
      | .eth i => s.ethAccepts i.val f.octets
      | .can i => s.canAccepts i.val f.canId
      | _ => true
    let s := match p with
      | .can i => s.canState i.val (s.rf (Reg.CAN_CANERR i.val) 7 0) (s.rf (Reg.CAN_CANERR i.val) 15 8 - 1)
      | _ => s
    if ok then s.perDeliver p (s.frameRecord p f) false else s

/-- The traffic class of an Ethernet frame, by the PCP of its VLAN tag. -/
def ethClass (s : State) (i : Nat) (f : List Octet) : Nat :=
  let pcp := if (f.drop 12).take 2 = [0x81#8, 0x00#8] then ((f.drop 14).headD 0#8).toNat / 32 else 0
  s.rf (Reg.ETH_PCPMAP i) (3 * pcp + 2) (3 * pcp)

/-- The time in ns for which the gate of a class stays open from PTPNS on, within the cycle: none where it is closed, and no bound where no
list is active. -/
def gateLeft (s : State) (i cls : Nat) : Option (Option Nat) :=
  let x := s.perSt (.eth (Fin.ofNat 4 i))
  if x.gclLen = 0 || x.gclCycle = 0 then some none
  else
    let t := ((s.ioR (Reg.ETH_PTPNS i)).toNat - x.gclStart) % x.gclCycle
    let r := (List.range x.gclLen).foldl (fun (acc : Nat × Option Nat × Bool) e =>
      let (at_, open_, done) := acc
      let ent := s.ioR (Reg.ETH_GCLACT i e)
      let fin := at_ + fld ent 63 32
      if done || decide (fin ≤ t) then (fin, open_, done)
      else if bitAt ent cls then (fin, some (fin - t), done)
      else (fin, open_, true)) (0, none, false)
    match r.2.1 with
    | some n => some (some n)
    | none => none

/-- A frame may start: with preamble and gap it ends before its gate closes (R402). -/
def gateAllows (s : State) (i : Nat) (f : List Octet) : Bool :=
  match s.gateLeft i (s.ethClass i f) with
  | none => false
  | some none => true
  | some (some n) => decide ((f.length + 4 + 20) * 8000 ≤ n * (s.perSt (.eth (Fin.ofNat 4 i))).rate)

/-- The queued frame that starts next: of the highest class whose gate allows it, the oldest. -/
def nextFrame (s : State) (p : PerId) : Option (List Octet) :=
  let fs := (s.perSt p).frames
  match p with
  | .eth i =>
    let ok := fs.filter (fun f => s.gateAllows i.val f)
    ok.foldl (fun b f => match b with
      | none => some f
      | some g => if s.ethClass i.val g < s.ethClass i.val f then some f else some g) none
  | _ => fs.head?

/-- A queued frame is sent, or fails on the wire. -/
def frameTransmit (s : State) (p : PerId) (fail : Bool) : State :=
  if !perFramed p || !s.perEn p then s
  else match p, fail with
  | .can i, true => s.canState i.val (s.rf (Reg.CAN_CANERR i.val) 7 0 + 8) (s.rf (Reg.CAN_CANERR i.val) 15 8)
  | _, true => (s.setPstat p 1).modPer p (fun x => { x with tx := [] })
  | _, false =>
    match s.nextFrame p with
    | none => s
    | some f =>
      let s := s.modPer p (fun x => { x with frames := x.frames.erase f })
      let s := match p with
        | .eth i => s.modPer p (fun x => { x with stamps :=
            (((payOf (f.take 2)).toNat, s.ioR (Reg.ETH_PTPNS i.val)) :: x.stamps).take 64 })
        | .can i => s.canState i.val (s.rf (Reg.CAN_CANERR i.val) 7 0 - 1) (s.rf (Reg.CAN_CANERR i.val) 15 8)
        | _ => s
      if s.rb (Reg.PER_PCTL (perBase p)) 2 then s.frameReceive p { octets := f, crcOk := true, canId := 0#32 } else s

/-- An octet arrives at a UART or an I2C target. -/
def octetReceive (s : State) (p : PerId) (x : Octet) (ok : Bool) : State :=
  match p with
  | .uart _ =>
    if !s.perEn p then s
    else if (s.perMode p).testBit 0 && (s.perSt p).de && !(s.perMode p).testBit 1 then s
    else if ok then s.perDeliver p [x] true else s.setPstat p 2
  | .i2c _ => if s.perEn p && s.perMode p == 1 then (if ok then s.perDeliver p [x] true else s.setPstat p 2) else s
  | _ => s

/-- An octet leaves the wire. -/
def octetTransmit (s : State) (p : PerId) : State :=
  match p with
  | .uart _ | .i2c _ =>
    if !s.perEn p then s
    else match (s.perSt p).tx with
    | [] => s.modPer p (fun x => { x with de := false })
    | o :: t =>
      let rs := (match p with | .uart _ => true | _ => false) && (s.perMode p).testBit 0
      let s := s.modPer p (fun x => { x with tx := t, de := rs && !t.isEmpty })
      if s.rb (Reg.PER_PCTL (perBase p)) 2 then s.perDeliver p [o] true else s
  | _ => s

/-! Ethernet time (R402). -/

def ptp (s : State) (i : Nat) : Nat := (s.ioR (Reg.ETH_PTPNS i)).toNat
/-- GCLCTL written: SWAP schedules the shadow bank. LEN keeps its value where the new one is above 128, as for a reserved encoding (R10; DESIGN
CHOICE: notes/assumptions/91.md). -/
def gclctlWrite (s : State) (i : Nat) (v : W64) : State :=
  let s := if fld v 23 16 ≤ 128 then s.wf (Reg.ETH_GCLCTL i) 23 16 (fld v 23 16) else s
  if bitAt v 1 then s.setB (Reg.ETH_GCLCTL i) 2 else s
/-- The scheduled list becomes active at the first cycle start at or after BASETIME. -/
def gclActivate (s : State) (i : Nat) : State :=
  if !s.rb (Reg.ETH_GCLCTL i) 2 then s
  else
    let base := (s.ioR (Reg.ETH_GCLBASE i)).toNat
    let cyc := s.rf (Reg.ETH_GCLCYCLE i) 31 0
    let now := s.ptp i
    let t := if now ≤ base || cyc = 0 then max now base else base + (now - base + cyc - 1) / cyc * cyc
    let s := (s.ioW (Reg.ETH_PTPNS i) (n64 t)).wf (Reg.ETH_GCLCTL i) 2 2 0
    let s := s.wf (Reg.ETH_GCLCTL i) 0 0 (1 - s.rf (Reg.ETH_GCLCTL i) 0 0)
    let s := forN 128 (fun e s => s.ioW (Reg.ETH_GCLACT i e) (s.ioR (Reg.ETH_GCLSH i e))) s
    s.modPer (.eth (Fin.ofNat 4 i)) (fun x => { x with gclLen := s.rf (Reg.ETH_GCLCTL i) 23 16, gclCycle := cyc, gclStart := t })
/-- PTPNS passes a whole second or reaches TGT, whichever is next: source 321 + i pulses. -/
def ptpEvent (s : State) (i : Nat) : State :=
  let now := s.ptp i
  let sec := (now / 1000000000 + 1) * 1000000000
  let tgt := (s.ioR (Reg.ETH_TGT i)).toNat
  let t := if now < tgt then min sec tgt else sec
  (s.ioW (Reg.ETH_PTPNS i) (n64 t)).pulse (321 + i)
def ptpStep (s : State) (i : Nat) (v : W64) : State := s.ioW (Reg.ETH_PTPNS i) (s.ioR (Reg.ETH_PTPNS i) + v)
def ethLink (s : State) (i : Fin 4) (up : Bool) (rate : Nat) : State := (s.setLink (.eth i) up).modPer (.eth i) (fun x => { x with rate := if up then rate else 0 })

/-- A bus-off controller recovers (Table 15-3). -/
def canRecover (s : State) (i : Fin 4) : State :=
  if s.rf (Reg.CAN_CANERR i.val) 17 16 == 2 && s.perEn (.can i) && ((s.perMode (.can i)).testBit 3 || (s.perSt (.can i)).recover) then
    (s.ioW (Reg.CAN_CANERR i.val) 0#64).setLink (.can i) true
  else s

/-! Bus transactions. -/

/-- I2CCMD written with START; and the end of the transaction in progress. A write while BUSY is 1 does nothing (DESIGN CHOICE:
notes/assumptions/90.md). -/
def i2cStart (s : State) (i : Fin 4) (v : W64) : State :=
  if !bitAt v 29 || s.rb (Reg.I2C_I2CSTAT i.val) 0 then s
  else (s.ioW (Reg.I2C_I2CSTAT i.val) 1#64).modPer (.i2c i) (fun x => { x with cmd := some v })
def i2cEnd (s : State) (i : Fin 4) (r : BusRes) : State :=
  match (s.perSt (.i2c i)).cmd with
  | none => s
  | some v =>
    let s := s.modPer (.i2c i) (fun x => { x with cmd := none })
    let n := fld v 27 16
    match r.ending with
    | .nack => (s.ioW (Reg.I2C_I2CSTAT i.val) 2#64).setPstat (.i2c i) 2
    | .arbLost => (s.ioW (Reg.I2C_I2CSTAT i.val) 4#64).setPstat (.i2c i) 2
    | _ =>
      let s := s.ioW (Reg.I2C_I2CSTAT i.val) 8#64
      if bitAt v 11 then (if n = 0 then s else s.perDeliver (.i2c i) (r.octets.take n) false)
      else s.modPer (.i2c i) (fun x => { x with tx := x.tx.drop n })

/-- PMBCMD written with GO: refused for a voltage command to CREG (R403); and the end of the transaction. A write while BUSY is 1 does
nothing (DESIGN CHOICE: notes/assumptions/90.md). -/
def pmbStart (s : State) (v : W64) : State :=
  let kind := fld v 26 24
  if !bitAt v 31 || kind = 7 || s.rb Reg.PMB_PMBSTAT 0 then s
  else if fld v 6 0 = s.rf Reg.PMB_PMBCREG 6 0 ∧ (kind = 0 ∨ kind = 1 ∨ kind = 2 ∨ kind = 5) ∧ (fld v 15 8 = 0x01 ∨ fld v 15 8 = 0x02 ∨ fld v 15 8 = 0x21) then
    (s.ioW Reg.PMB_PMBSTAT (putFld 4 4 1)).setPstat .pmb 3
  else (s.ioW Reg.PMB_PMBSTAT 1#64).modPer .pmb (fun x => { x with cmd := some v })
def pmbEnd (s : State) (r : BusRes) : State :=
  match (s.perSt .pmb).cmd with
  | none => s
  | some v =>
    let s := s.modPer .pmb (fun x => { x with cmd := none })
    match r.ending with
    | .nack => (s.ioW Reg.PMB_PMBSTAT (putFld 2 2 1)).setPstat .pmb 2
    | .arbLost => (s.ioW Reg.PMB_PMBSTAT (putFld 2 2 1)).setPstat .pmb 2
    | .pecErr => (s.ioW Reg.PMB_PMBSTAT (putFld 3 3 1 ||| putFld 1 1 1)).setPstat .pmb 2
    | .done =>
      let s := s.ioW Reg.PMB_PMBSTAT (putFld 1 1 1)
      (match fld v 26 24 with
       | 3 => s.ioW Reg.PMB_PMBDATA (payOf (r.octets.take 1))
       | 4 => s.ioW Reg.PMB_PMBDATA (payOf (r.octets.take 2))
       | 5 => s.modPer .pmb (fun x => { x with tx := x.tx.drop (fld v 23 16) })
       | 6 => s.perDeliver .pmb (r.octets.take (fld v 23 16)) false
       | _ => s)

/-- A write of XLEN: LEN is kept; START begins a transfer, but not during another (DESIGN CHOICE: notes/assumptions/89.md). -/
def xspiStart (s : State) (v : W64) : State :=
  let s := s.ioW Reg.XSPI_XLEN (putFld 31 0 (fld v 31 0))
  if bitAt v 63 && !s.rb Reg.XSPI_XFSTAT 0 then (s.setB Reg.XSPI_XFSTAT 0).modPer .xspi (fun x => { x with cmd := some v }) else s
/-- The transfer ends. -/
def xspiEnd (s : State) (r : BusRes) : State :=
  match (s.perSt .xspi).cmd with
  | none => s
  | some v =>
    let s := s.modPer .xspi (fun x => { x with cmd := none })
    let n := fld v 31 0
    let bad := r.ending != .done
    let s := s.ioW Reg.XSPI_XFSTAT (putFld 15 8 r.status.toNat ||| putFld 2 2 bad.toNat ||| putFld 1 1 (r.status.toNat % 2))
    if bad then s.setPstat .xspi 2
    else if s.rb Reg.XSPI_XOP 31 then s.modPer .xspi (fun x => { x with tx := x.tx.drop n })
    else if n = 0 then s else s.perDeliver .xspi (r.octets.take n) false

/-! GPIO (R404, R452). -/

/-- Pin n is held at its safe level by a pending input (R452, R458). -/
def gpioHeld (s : State) (n : Nat) : Bool :=
  s.rb (Reg.SAFE_GPSAFE (n / 32)) (n % 32) &&
  (findN 256 (fun i => s.rb (Reg.SAFE_FPEND (i / 64)) (i % 64) && decide (3 ≤ s.rf (Reg.SAFE_FCFG i) 2 0) &&
    (match s.owner .gpio n with | some p => Tab.get s.saf.concerned i 0 == p + 1 | none => false))).isSome
/-- The level a pin drives, and its pad level as IN shows it; a change that EDGE selects pulses source 128 + n. -/
def gpioLevel (s : State) (n : Nat) : Bool :=
  if s.gpioHeld n then s.rb (Reg.SAFE_GPSLVL (n / 32)) (n % 32) else s.rb (Reg.GPIO_GPCFG n) 6
def gpioRefresh (s : State) (n : Nat) : State :=
  let drives := s.gpioHeld n || (s.rb (Reg.GPIO_GPCFG n) 5 && s.rf (Reg.GPIO_GPCFG n) 1 0 == 0)
  if !drives then s
  else
    let was := s.rb (Reg.GPIO_GPCFG n) 7
    let is := s.gpioLevel n
    let s := s.wf (Reg.GPIO_GPCFG n) 7 7 is.toNat
    let e := s.rf (Reg.GPIO_GPCFG n) 11 10
    if (is && !was && (e == 1 || e == 3)) || (!is && was && (e == 2 || e == 3)) then s.pulse (128 + n) else s
def gpcfgWrite (s : State) (n : Nat) (v : W64) : State :=
  let old := s.ioR (Reg.GPIO_GPCFG n)
  let pull := if fld v 9 8 = 3 then fld old 9 8 else fld v 9 8
  let x := setFld (setFld (setFld old 15 12 (fld v 15 12)) 11 10 (fld v 11 10)) 9 8 pull
  let x := if fld old 1 0 = 0 then setFld (setFld x 6 6 (fld v 6 6)) 5 5 (fld v 5 5) else x
  (s.ioW (Reg.GPIO_GPCFG n) x).gpioRefresh n
/-- GPSET and GPCLR word w: the owned pins of a mask. -/
def gpSetClr (s : State) (q w : Nat) (v : W64) (on : Bool) : State :=
  forN 32 (fun k s =>
    let n := 32 * w + k
    if bitAt v k && s.mayWrite q .gpio n && !s.gpioHeld n then (s.wf (Reg.GPIO_GPCFG n) 6 6 on.toNat).gpioRefresh n else s) s

/-- Reset of a partition (R401): as SRST on each instance it owns. -/
def periphReset (s : State) (q : Nat) : State :=
  perAll.foldl (fun s p => if s.perOwner p == some q then s.perReset p else s) s

end State

end Sys2Proof.Machine
end

