-- ==== Sys2Proof/Machine/Hearth.lean ====
section
/-!
DEFINITION. Hearth, the Damper and the CLK block (spec 16 R406–R429): the event log, resets of the chip and requests for partition resets,
supply monitors with ride-through, domains, core gating, operating points, the thermal guard, Ember, Cold and wake sources.
-/
namespace Sys2Proof.Machine

open Sys2Proof

namespace State

def modHs (s : State) (f : HearthSt → HearthSt) : State := { s with hs := f s.hs }
/-- The core rail is up and the device executes commands of its units. -/
def railUp (s : State) : Bool := s.hs.dev == .run || s.hs.dev == .recovery
/-- Hearth has power. -/
def powered (s : State) : Bool := s.hs.dev != .unpowered
/-- The boundary-scan instruction loaded holds the chip in reset (Table 20-3). -/
def jtagHolds (s : State) : Bool := s.hs.jtag == .extest || s.hs.jtag == .clamp || s.hs.jtag == .highz

/-! The event log (R428). -/

/-- A log record at HLOGPTR.NEXT: CODE and DETAIL, RTC, TIMENS (zero while the core rail is off), and word 3. -/
def logRecord (s : State) (code detail : Nat) (w3 : W64 := 0#64) : State :=
  let n := s.rf Reg.HRTH_HLOGPTR 7 0
  let a := 0xF100000000 + 4 * n
  let ns := if s.railUp then s.ioR Reg.CGL_TIMENS else 0#64
  let ws := [putFld 63 56 code ||| putFld 55 0 detail, s.ioR Reg.HRTH_RTC, ns, w3]
  let s := forN 4 (fun k s => { s with mem := Tab.set s.mem (a + k) (Ecc.encode (fixW (ws.getD k 0#64))) 0#80 }) s
  let s := if n = 255 then s.wrapAdd Reg.HRTH_HLOGPTR 63 32 1 else s
  s.wf Reg.HRTH_HLOGPTR 7 0 ((n + 1) % 256)

/-! Cores. -/

/-- Core reset (R62): every register at its reset value; the pairing of the cluster stays. -/
def coreReset (s : State) (c : Nat) (st : RunSt) : State :=
  let paired := fld (s.crR c CRN.cst) 9 9
  (s.setCore c { run := st }).crSetF c CRN.cst 9 9 paired
/-- A core starts like a reset core at an entry of its partition (R414, R422). -/
def startCoreAt (s : State) (c sel off : Nat) : State :=
  (s.coreReset c .run).modCore c (fun x => { x with ip := { sel := sel, off := off, idx := 0 } })
def startCore (s : State) (c : Nat) : State :=
  let p := s.part (s.corePart c)
  s.startCoreAt c p.entrySel p.entryOff

/-- The cores a partition owns. -/
def coresOf (s : State) (p : Nat) : List Nat := (List.range 64).filter (fun c => s.coreOwned c && s.corePart c == p)
/-- DCORE requests core c. -/
def dcore (s : State) (c : Nat) : Bool := s.rb Reg.DMPR_DCORE c
/-- A core is powered. -/
def corePowered (s : State) (c : Nat) : Bool := (s.core c).run != .off
/-- A source is in service on a core. -/
def servesSource (s : State) (c : Nat) : Bool :=
  (findN 512 (fun n => s.srcInServ n && s.rf (Reg.INTC_SSTAT n) 5 0 == c)).isSome

/-- Every line leaves the L1 caches of a core, dirty data merged. -/
def flushL1 (s : State) (c : Nat) : State :=
  let lines := fun (id : Nat) => ((s.tags.filter (fun e => e.1 / 2 ^ 20 == id && e.2.valid)).map (fun e => e.2.line))
  let s := (lines (cL1D c)).foldl (fun s l => s.evictL1D c l) s
  (lines (cL1I c)).foldl (fun s l => s.dropL1I c l) s

/-- Shuffle of a cache at the power-up of its domain (R218). -/
def shufReset (s : State) (ids : List Nat) : State := { s with shuf := ids.foldl (fun t id => Tab.set t id 0xACE1#16 0xACE1#16) s.shuf }

/-- The caches of cluster k: the L1 caches and descriptor caches of its cores, and its L2. -/
def clusterCaches (k : Nat) : List Nat := cL2 k :: (List.range 8).flatMap (fun j => [cL1I (8 * k + j), cL1D (8 * k + j), cDesc (8 * k + j)])

/-- The copy of the microcode is written back into the WCS and the decode table of cluster k (R206). -/
def wcsRestore (s : State) (k : Nat) : State :=
  { s with ucBad := s.ucBad.filter (fun e => !(decide (k * 2 ^ 14 + 0x2000 ≤ e.1) && decide (e.1 < (k + 1) * 2 ^ 14))) }

/-- A cluster shell powers up: its caches start empty, each with its Shuffle as at reset, and its microcode is restored (R206, R218). -/
def shellUp (s : State) (k : Nat) : State :=
  ((s.shufReset (clusterCaches k)).wcsRestore k).wf (Reg.DMPR_DSTAT ((64 + k) / 64)) k k 1

/-- A cluster shell with no core powered and no scratchpad is gated, its L2 cleaned first (R229, Table 16-3). -/
def shellDown (s : State) (k : Nat) : State :=
  let idle := (List.range 8).all (fun j => !s.corePowered (8 * k + j))
  if s.rb (Reg.DMPR_DSTAT ((64 + k) / 64)) k && idle && s.rf (Reg.L2C_L2CTL k) 19 18 == 0 then
    let lines := (s.tags.filter (fun e => e.1 / 2 ^ 20 == cL2 k && e.2.valid)).map (fun e => e.2.line)
    let s := lines.foldl (fun s l => s.evictL2 k l) s
    let s := (s.vbuf.filter (fun v => v.1 == cL2 k)).foldl (fun s v => s.vbufAck v.1 v.2) s
    s.wf (Reg.DMPR_DSTAT ((64 + k) / 64)) k k 0
  else s

/-- The Damper gates a core whose DCORE bit is clear once it is in Doze with no source in service, its L1D cleaned (R414). -/
def gateCheck (s : State) (c : Nat) : State :=
  if !s.dcore c && (s.core c).run == .run && (s.core c).wait == .doze && !s.servesSource c then
    ((s.flushL1 c).coreReset c .off).shellDown (c / 8)
  else s

/-- A write of DCORE: a bit of a core that no partition owns is not set (R414). -/
def dcoreWrite (s : State) (v : W64) : State :=
  let m := (List.range 64).foldl (fun (m : W64) c => if s.coreOwned c then m ||| fmask c c else m) 0#64
  let s := s.ioW Reg.DMPR_DCORE (v &&& m)
  forN 64 (fun c s => s.gateCheck c) s

/-! Rails (R408). -/

/-- The core voltage of an operating point, in mV: Lean, Balanced, Full (Table 1-5). -/
def pointMv (p : Nat) : Nat := if p = 0 then 650 else if p = 1 then 720 else 850

/-- An enable output rises; the core regulator comes up at the Balanced voltage. -/
def raiseRail (s : State) (r : Rail) : State :=
  if s.hs.rails.contains r then s
  else s.modHs (fun h => { h with rails := h.rails ++ [r], coreMv := if r = .core then pointMv 1 else h.coreMv })

/-- An enable output falls. -/
def dropRail (s : State) (r : Rail) : State :=
  s.modHs (fun h => { h with rails := h.rails.erase r, coreMv := if r = .core then 0 else h.coreMv })

/-- CORE_EN rises, then VDDQ_EN and SERDES_EN. -/
def railsUp (s : State) : State := ((s.raiseRail .core).raiseRail .vddq).raiseRail .serdes

/-! Domains (R413). -/

/-- Channels of DRAM that are populated. -/
def dramChans (s : State) : Nat := if s.rb (Reg.MEMC_MCFG 0) 0 then 2 ^ s.rf (Reg.MEMC_MCFG 0) 9 8 else 0
/-- A stored bit of DSTAT, for the domains whose power-up is an event of its own. -/
def dstatBit (s : State) (k : Nat) : Bool := s.rb (Reg.DMPR_DSTAT (k / 64)) (k % 64)
def setDstat (s : State) (k : Nat) (b : Bool) : State := s.wf (Reg.DMPR_DSTAT (k / 64)) (k % 64) (k % 64) b.toNat
/-- A domain is shed now. -/
def domShed (s : State) (k : Nat) : Bool := s.rb (Reg.DMPR_DSHOFF (k / 64)) (k % 64)
/-- A DIO bit, for the domains it controls. -/
def dioBit (s : State) (k : Nat) : Bool :=
  if k < 267 then s.rb Reg.DMPR_DIO (k - 263) else if k < 269 then s.rb Reg.DMPR_DIO (k - 263) else s.rb Reg.DMPR_DIO 6
/-- Any cycle or refill of Sweep runs or waits (R278). -/
def sweepBusy (s : State) : Bool := (List.range 16).any (fun h => s.heapPhase h != 0 || s.rb (Reg.SWP_HSTAT h) 3)

/-- An I/O domain may be powered: its DIO bit is 1, and a partition owns an instance in it (R15). -/
def dioOn (s : State) (k : Nat) : Bool := s.dioBit k && (k == 272 || perAll.any (fun p => perDomain p == some k && (s.perOwner p).isSome))

/-- Domain k is powered (Table 16-3). -/
def domOn (s : State) (k : Nat) : Bool :=
  s.railUp && !s.domShed k &&
  (if k < 64 then s.corePowered k || (s.isChecker k && s.corePowered (k - 1))
   else if k < 72 then s.dstatBit k
   else if k < 104 then s.rb (Reg.L2C_L2CTL ((k - 72) / 4)) (12 + (k - 72) % 4)
   else if k < 232 then (k - 104) % 4 == 0 || s.rb (Reg.L3C_L3CTL ((k - 104) / 4)) (4 + (k - 104) % 4)
   else if k < 248 then decide (k - 232 < s.rf Reg.MLD_MLANES 12 8)
   else if k = 248 then s.sweepBusy
   else if k < 251 then !s.dealerOff
   else if k < 255 then s.rb (Reg.DMA_ESTAT (k - 251)) 4
   else if k < 259 then s.pMode (k - 255) != 0
   else if k < 263 then decide (k - 259 < s.dramChans)
   else if k < 269 then s.dstatBit k
   else if k < 271 then true
   else if k = 271 then s.sec.sess.phase != .closed || !s.sec.sin.isEmpty || !s.sec.frames.isEmpty || !s.sec.sout.isEmpty
   else if k = 272 then s.dstatBit k
   else false)

/-- DSTATi as it reads. -/
def dstatRead (s : State) (i : Nat) : W64 :=
  (List.range 64).foldl (fun (m : W64) k => if 64 * i + k < 273 && s.domOn (64 * i + k) then m ||| fmask k k else m) 0#64

/-- A cluster shell is required (Table 16-3). -/
def shellNeeded (s : State) (k : Nat) : Bool :=
  (List.range 8).any (fun j => s.coreOwned (8 * k + j) && s.dcore (8 * k + j)) || s.rf (Reg.L2C_L2CTL k) 19 18 != 0

/-- The Debug domain is gated or shed: the trace buffer empties and TRCCTL.EN clears (R498). -/
def trcClear (s : State) : State :=
  let s := s.wf Reg.TRC_TRCCTL 0 0 0
  let s := s.ioW Reg.TRC_TRCSTAT 0#64
  { s with io := Tab.keep s.io (fun a _ => !(decide (0xFF00F48000 ≤ a) && decide (a < 0xFF00F50000))) }

/-- The peripherals of an I/O domain. -/
def domPeriphs (k : Nat) : List PerId := perAll.filter (fun p => perDomain p == some k)

/-! Sessions close (R478). -/

/-- The session closes: Ks is erased. -/
def sessClose (s : State) : State :=
  let was := s.sec.sess.phase == .opened
  let s := { s with sec := { s.sec with sess := {} } }
  if was then ((s.wf Reg.SEC_SECSTAT 0 0 0).wf Reg.SEC_SECSTAT 6 2 0).setB Reg.SEC_SECSTAT 7 else s

/-- A domain whose control bit falls is gated, or is shed (R411, R413). -/
def gateIo (s : State) (k : Nat) : State :=
  let s := (domPeriphs k).foldl (fun s p => s.perSrst p) s
  let s := if k = 268 && s.sec.sess.usb then s.sessClose else s
  let s := if k = 272 then s.trcClear else s
  s.setDstat k false

/-- A write of DIO. -/
def dioWrite (s : State) (v : W64) : State :=
  let s := s.ioW Reg.DMPR_DIO (v &&& fmask 6 0)
  ([263, 264, 265, 266, 267, 268, 272] : List Nat).foldl (fun s k => if !s.dioBit k && s.dstatBit k then s.gateIo k else s) s

/-- A domain completes its power-up (R206, R413, R414). wcsOk: the WCS copy that a shell or a core takes passes its digest. -/
def domainUp (s : State) (k : Nat) (wcsOk : Bool) : State :=
  if !s.railUp || s.domShed k then s
  else if k < 64 then
    if s.coreOwned k && s.dcore k && (s.core k).run == .off && s.dstatBit (64 + k / 8) && !(s.part (s.corePart k)).resetting && !(s.part (s.corePart k)).resetReq then
      (if wcsOk then ((s.shufReset [cL1I k, cL1D k, cDesc k]).wcsRestore (k / 8)).startCore k else s.raiseFault (16 + k / 8))
    else s
  else if k < 72 then
    if s.shellNeeded (k - 64) && !s.dstatBit k then
      if wcsOk then s.shellUp (k - 64) else s.raiseFault (16 + (k - 64))
    else s
  else if 251 ≤ k ∧ k < 255 then
    (if (List.range 16).any (fun j => s.dState (16 * (k - 251) + j) != 0) then s.setB (Reg.DMA_ESTAT (k - 251)) 4 else s)
  else if (263 ≤ k ∧ k < 269) ∨ k = 272 then (if s.dioOn k then s.setDstat k true else s)
  else s

/-! Resets (R423, R424). -/

/-- What a chip reset keeps (R407), every enable output having fallen until the boot raises it (R408, R423): the HRTH registers, the log SRAM, the Hearth secure store, OTP and the flash device. -/
def chipWipe (s : State) (dev : DevSt) : State :=
  { pending := s.pending
    freeCtr := s.freeCtr
    lastRead := s.lastRead
    mem := Tab.keep s.mem (fun a _ => isLog a)
    io := Tab.keep s.io (fun a _ => decide (0xFF00D00000 ≤ a) && decide (a < 0xFF00D10000))
    flash := s.flash
    sec := { otp := s.sec.otp, pwds := s.sec.pwds, fails := s.sec.fails, nexts := s.sec.nexts }
    hs := { dev := dev, resetN := s.hs.resetN, hot := s.hs.hot, vioLost := s.hs.vioLost, jtag := s.hs.jtag, cells := s.hs.cells,
            dbgSt := s.hs.dbgSt, dbgWord := s.hs.dbgWord } }

/-- A chip reset (R423): the cause recorded in HRSTC and in the log. detail: bits 55:8 of the record's DETAIL; mon: the monitor of cause
SUPPLY. -/
def chipReset (s : State) (cause : Nat) (detail : Nat := 0) (mon : Nat := 0) (dev : DevSt := .boot) : State :=
  if !s.powered then s
  else
    let s := s.logRecord 0x01 (cause + 256 * detail)
    let s := (s.satAdd Reg.HRTH_HRSTC 63 48 1).wf Reg.HRTH_HRSTC 7 0 cause
    let s := if cause = 3 then s.wf Reg.HRTH_HRSTC 15 8 mon else s
    let s := (s.wf Reg.HRTH_HSTATE 0 0 0).wf Reg.HRTH_SMSTAT 2 2 0
    s.chipWipe dev

/-- Partition p's cores stop at once and take reset values (R424 step 1). -/
def stopCores (s : State) (p : Nat) : State :=
  (s.coresOf p).foldl (fun s c => if s.corePowered c then (s.withdraw c).coreReset c .held else s) s

/-- A partition reset is requested (R424): the chip resets for partition 0; a request during the partition's reset is ignored. -/
def requestReset (s : State) (p cause detail : Nat) : State :=
  if p = 0 then s.chipReset cause detail
  else
    let x := s.part p
    if !x.defined || x.resetReq || x.resetting then s
    else (s.stopCores p).modPart p (fun x => { x with resetReq := true, resetAt := s.now })

/-- A write of HRESET by partition 0 (R424). -/
def hresetWrite (s : State) (v : W64) : State :=
  if fld v 63 48 != 0x7C1A then s
  else if bitAt v 5 then s.chipReset 7
  else if bitAt v 4 then s.requestReset (fld v 3 0) 7 0
  else s

/-! Supply monitors (R409–R412). -/

def rideThrough (m : Nat) : Bool := m == 0 || decide (4 ≤ m)
/-- Monitors 0 to 3 are ignored while the core rail is off. -/
def monLive (s : State) (m : Nat) : Bool := s.powered && (s.railUp || s.hs.dev == .boot || decide (4 ≤ m))

/-- One sheddable domain stops (R411). -/
def shedDomain (s : State) (k : Nat) : State :=
  if s.domShed k || !s.domOn k then s
  else
    let s := if k < 64 then
        (let s := s.withdraw k
         if (s.core k).run == .run then s.modCore k (fun x => { x with run := .shed }) else s)
      else if 232 ≤ k ∧ k < 248 then s.wf Reg.MLD_MLANES 12 8 (s.rf Reg.MLD_MLANES 12 8 - 1)
      else if (263 ≤ k ∧ k < 269) ∨ k = 272 then (s.gateIo k).setDstat k true
      else s
    (s.setB (Reg.DMPR_DSHOFF (k / 64)) (k % 64)).setB Reg.HRTH_SMSTAT 2

def supplyWarn (s : State) (m : Nat) : State :=
  if !s.monLive m || s.rb Reg.HRTH_SMSTAT (32 + m) then s
  else
    let first := s.rf Reg.HRTH_SMSTAT 41 32 == 0
    let s := (s.setB Reg.HRTH_SMSTAT (32 + m)).setB Reg.HRTH_SMSTAT (12 + m)
    if !rideThrough m then s.logRecord 0x03 (2 ^ m)
    else if first then
      let s := ((s.setB Reg.HRTH_SMSTAT 0).logRecord 0x03 (2 ^ m))
      let shed := (List.range 273).filter (fun k => s.rb (Reg.DMPR_DSHED (k / 64)) (k % 64))
      (shed.reverse.foldl (fun s k => s.shedDomain k) s).satAdd Reg.HRTH_SMSTAT 63 48 1
    else s

def supplyRecovered (s : State) : State :=
  let b := s.rf Reg.HRTH_SMSTAT 41 32
  if !s.powered || b = 0 then s else ((s.wf Reg.HRTH_SMSTAT 41 32 0).setB Reg.HRTH_SMSTAT 1).logRecord 0x04 b

/-- A monitor trips (R410); a lost VIO bank leaves the device in Cold (Table 16-1); in Ember the resume record is lost (R422). -/
def supplyTrip (s : State) (m : Nat) : State :=
  if !s.monLive m then s
  else match s.hs.dev with
    | .ember => s.modHs (fun h => { h with resumeOk := false })
    | .cold => if 4 ≤ m then s.modHs (fun h => { h with vioLost := true }) else s
    | _ =>
      if 4 ≤ m then (s.chipReset 3 0 m .cold).modHs (fun h => { h with vioLost := true }) else s.chipReset 3 0 m

/-- DREEN.ALL (R412). -/
def dreenWrite (s : State) (v : W64) : State :=
  if !bitAt v 0 || s.rf Reg.HRTH_SMSTAT 41 32 != 0 then s
  else
    let shed := (List.range 273).filter (fun k => s.domShed k)
    let s := forN 5 (fun i s => s.ioW (Reg.DMPR_DSHOFF i) 0#64) s
    let s := s.wf Reg.HRTH_SMSTAT 2 2 0
    shed.foldl (fun s k =>
      if k < 64 then s.modCore k (fun x => if x.run == .shed then { x with run := .run } else x)
      else if 232 ≤ k ∧ k < 248 then s.wf Reg.MLD_MLANES 12 8 (s.rf Reg.MLD_MLANES 12 8 + 1)
      else s) s

/-! Operating points and the thermal guard (R416, R417). -/

def oppTarget (s : State) : Nat := min (s.rf Reg.CLK_OPP 1 0) (s.rf Reg.CLK_OPP 9 8)
/-- A transition starts where none runs and the target differs. -/
def oppKick (s : State) : State :=
  if s.rb Reg.CLK_OPP 7 || s.oppTarget == s.rf Reg.CLK_OPP 5 4 then s
  else ((s.setB Reg.CLK_OPP 7).setB Reg.CLK_OPP 6).modHs (fun h => { h with oppTo := some s.oppTarget })
def oppWrite (s : State) (v : W64) : State := (if fld v 1 0 = 3 then s else s.wf Reg.CLK_OPP 1 0 (fld v 1 0)).oppKick
/-- The transition completes, the core rail at the point's voltage; towards a higher point only while monitor 0 is not below warning. -/
def oppDone (s : State) : State :=
  match s.hs.oppTo with
  | none => s
  | some b =>
    if s.rf Reg.CLK_OPP 5 4 < b && s.rb Reg.HRTH_SMSTAT 32 then s
    else (((s.wf Reg.CLK_OPP 5 4 b).wf Reg.CLK_OPP 7 6 0).modHs (fun h => { h with oppTo := none, coreMv := pointMv b })).oppKick

/-- CEIL takes a value: logged, and source 359 pulses. -/
def setCeil (s : State) (v : Nat) : State := (((s.wf Reg.CLK_OPP 9 8 v).logRecord 0x05 v).pulse 359).oppKick

/-- A reading of the junction sensors, every 100 µs. -/
def thermalReading (s : State) (tj : Nat) : State :=
  if !s.railUp then s
  else
    let cfg := s.ioR Reg.CLK_TGCFG
    let s := s.wf Reg.CLK_TGSTAT 13 0 tj
    let h := s.hs
    let st := if fld cfg 27 14 ≤ tj then h.stepCnt + 1 else 0
    let rl := if tj ≤ fld cfg 41 28 then h.relCnt + 1 else 0
    let tr := if fld cfg 55 42 ≤ tj then h.tripCnt + 1 else 0
    let ceil := s.rf Reg.CLK_OPP 9 8
    let s := s.modHs (fun h => { h with stepCnt := st, relCnt := rl, tripCnt := tr, ceilHold := h.ceilHold - 1 })
    let s := if h.ceilHold ≤ 1 && 10 ≤ st && 0 < ceil then
        ((s.satAdd Reg.CLK_TGSTAT 63 48 1).modHs (fun h => { h with stepCnt := 0, ceilHold := 1000 })).setCeil (ceil - 1)
      else if h.ceilHold ≤ 1 && 1000 ≤ rl && ceil < 2 then (s.modHs (fun h => { h with relCnt := 0 })).setCeil (ceil + 1)
      else s
    if tr = 10 then ((s.setB Reg.CLK_TGSTAT 17).raiseFault 78).logRecord 0x06 0 else s

/-- A write of TGCFG: ignored unless RELEASE < STEP < TRIP < 0x210F. -/
def tgcfgWrite (s : State) (v : W64) : State :=
  if fld v 41 28 < fld v 27 14 ∧ fld v 27 14 < fld v 55 42 ∧ fld v 55 42 < 0x210F then s.ioW Reg.CLK_TGCFG (v &&& fmask 55 14) else s

/-- The Hearth sensor reads 150 °C; and, later, below 125 °C. -/
def thermalReset (s : State) : State := if s.powered then (s.chipReset 4 0 0 .cold).modHs (fun h => { h with hot := true }) else s
def thermalRelease (s : State) : State :=
  if s.hs.hot then s.modHs (fun h => { h with hot := false, dev := if h.dev == .cold && !h.vioLost then .boot else h.dev }) else s

/-! Ember, Cold and wake sources (R418–R422). -/

/-- The first reason to refuse an HPWR command of a requester (R418): 1 GROUP, 2 CORES, 3 ENGINES, 4 PORTS, 5 SUPPLY. -/
def hpwrRefusal (s : State) (writer : Option Nat) (ember : Bool) : Nat :=
  if (List.range 8).any (fun g => s.groupArmed g) then 1
  else if ember && (List.range 64).any (fun c => s.corePowered c && writer != some c) then 2
  else if ember && ((List.range 64).any (fun ch => s.dState ch != 0) || s.sweepBusy || s.meld.any (fun e => e.2.rcd.isSome)) then 3
  else if ember && (List.range 4).any (fun p => s.pState p != 0) then 4
  else if s.rf Reg.HRTH_SMSTAT 41 32 != 0 then 5
  else 0

/-- A write of HPWR by partition 0. -/
def hpwrWrite (s : State) (writer : Option Nat) (v : W64) : State :=
  if fld v 63 48 != 0xE4B3 then s.wf Reg.HRTH_HSTATE 11 8 6
  else
    let cmd := fld v 1 0
    if cmd = 0 ∨ cmd = 3 then s
    else
      let r := s.hpwrRefusal writer (cmd = 1)
      let s := s.wf Reg.HRTH_HSTATE 11 8 r
      if r = 0 then s.modHs (fun h => { h with cmd := writer.map (fun c => (cmd, c)) }) else s

/-- Every dirty word goes to memory and every cache line leaves. -/
def flushAll (s : State) : State :=
  let dirty := (Tab.keys s.l1d ++ Tab.keys s.l2 ++ Tab.keys s.l3)
  let s := dirty.foldl (fun s a => let x := s.view a; s.putAt 0 a x) s
  { s with tags := [], vbuf := [], l1i := [], fills := [] }

/-- The accepted command whose writer is in Doze. -/
def sleepReady (s : State) (cmd : Nat) : Bool :=
  match s.hs.cmd with
  | some (k, c) => k == cmd && (s.core c).run == .run && (s.core c).wait == .doze
  | none => false

/-- Entry to Ember (R419): caches cleaned, every core off, buffers on the core rail lost; the registers stand in the resume record. VDDQ_EN
stays asserted (R408). -/
def emberEntry (s : State) : State :=
  if !s.railUp || !s.sleepReady 1 then s
  else
    let s := s.flushAll
    let s := { s with mem := Tab.keep s.mem (fun a _ => isDram a || isLog a) }
    let s := (forN 64 (fun c s => if s.corePowered c then s.coreReset c .off else s) s).sessClose
    let s := (s.trcClear).logRecord 0x07 0
    let quiet := fun (e : Nat × PerSt) => (e.1, { e.2 with tx := [], frames := [], rx := [], cmd := none })
    let s := { s with pers := s.pers.map quiet }
    let s := forN 8 (fun k s => s.setDstat (64 + k) false) s
    let s := (s.dropRail .serdes).dropRail .core
    s.modHs (fun h => { h with dev := .ember, cmd := none, wake := 0, resumeOk := true, emberRtc := (s.ioR Reg.HRTH_RTC).toNat })

/-- Entry to Cold (R420): every rail falls. -/
def coldEntry (s : State) : State :=
  if !s.railUp || !s.sleepReady 2 then s else (s.logRecord 0x07 1).chipWipe .cold

/-- The exit from Cold that a source starts: a cold boot. -/
def coldExit (s : State) (src : Nat) : State :=
  if s.hs.hot || (s.hs.vioLost && src != 10) then s
  else
    let s := (s.wf Reg.HRTH_HSTATE 23 16 (src + 1)).logRecord 0x08 (src + 1)
    s.modHs (fun h => { h with dev := .boot, vioLost := false })

/-- A wake source is enabled. -/
def wakeEnabled (s : State) (src : Nat) : Bool :=
  if src < 8 then s.rb Reg.HRTH_HWAKE src else if src = 8 then s.rb Reg.HRTH_HWAKE 17 else if src = 9 then s.rb Reg.HRTH_HWAKE 18 else true

/-- A wake source asserts (R419–R421). -/
def wakeSource (s : State) (src : Nat) : State :=
  if !s.powered then s
  else
    let s := s.setB Reg.HRTH_HWSRC src
    if !s.wakeEnabled src then s
    else match s.hs.dev with
      | .ember => s.modHs (fun h => { h with wake := if h.wake = 0 then src + 1 else h.wake })
      | .cold => s.coldExit src
      | _ => s.modHs (fun h => { h with cmd := none })

/-- VIO returns after a Cold that its loss caused (R421). -/
def vioReturn (s : State) : State := if s.hs.dev == .cold && s.hs.vioLost then (s.setB Reg.HRTH_HWSRC 10).coldExit 10 else s

/-- The safety watchdog restarts (R465). -/
def swdRestart (s : State) : State :=
  if !s.rb Reg.SAFE_SWDCFG 63 then s
  else
    let s := (s.wf Reg.SAFE_SWDSTAT 63 48 0x5A3C).wf Reg.SAFE_SWDSTAT 32 32 1
    { s with saf := { s.saf with swdAt := s.now, swdRuns := true } }

/-- The exit from Ember (R422) after a number of RTC ticks. digestOk: the record passes its digest. -/
def emberExit (s : State) (ticks : Nat) (digestOk : Bool) : State :=
  if s.hs.dev != .ember || s.hs.wake = 0 then s
  else
    let s := s.ioW Reg.HRTH_RTC (s.ioR Reg.HRTH_RTC + n64 ticks)
    let src := s.hs.wake
    if !s.hs.resumeOk || !digestOk then s.chipReset 9
    else
      let s := s.railsUp.modHs (fun h => { h with dev := .run, wake := 0, resumeOk := false })
      let s := s.ioW Reg.CGL_TIMENS (s.ioR Reg.CGL_TIMENS + n64 (ticks * 1000000000 / 32768))
      let s := ((s.wf Reg.HRTH_HSTATE 0 0 1).wf Reg.HRTH_HSTATE 23 16 src).logRecord 0x08 src
      let p := s.part 0
      let s := s.shufReset ((List.range 32).map cL3)
      let s := forN 8 (fun k s => if s.shellNeeded k then s.shellUp k else s) s
      let s := if p.resumeSel = 0 ∧ p.resumeOff = 0 then s.startCore p.bootCore else s.startCoreAt p.bootCore p.resumeSel p.resumeOff
      s.swdRestart

/-- One second of RTC time (R422): the calibrated RTC advances by 32,768 ticks; the alarm is a wake source (R421). -/
def rtcSecond (s : State) : State :=
  if !s.railUp then s
  else
    let old := (s.ioR Reg.HRTH_RTC).toNat
    let alm := (s.ioR Reg.HRTH_RTCALM).toNat
    let s := s.ioW Reg.HRTH_RTC (n64 (old + 32768))
    if old < alm && alm ≤ old + 32768 then s.wakeSource 8 else s

/-! Power. -/

/-- VHEARTH falls below its threshold: nothing is kept but OTP and the flash device (Table 16-1). -/
def vhearthLoss (s : State) : State :=
  { pending := s.pending, freeCtr := s.freeCtr, flash := s.flash, sec := { otp := s.sec.otp }, hs := { dev := .unpowered } }

/-- VHEARTH becomes valid (R425, R477). -/
def powerOn (s : State) : State :=
  if s.powered then s
  else { s with hs := { s.hs with dev := .boot }, sec := { s.sec with fails := porFails, nexts := porNexts (s.ioR Reg.HRTH_RTC).toNat } }

/-- RESET_N falls, and rises (R423). -/
def resetPin (s : State) : State :=
  if !s.powered then s
  else if s.hs.dev == .cold then s.modHs (fun h => { h with resetN := true })
  else (s.chipReset 2).modHs (fun h => { h with resetN := true })
def resetRelease (s : State) : State := s.modHs (fun h => { h with resetN := false })

/-! INTC sources (R417, R429). -/
def supplySource (s : State) : Bool := s.rf Reg.HRTH_SMSTAT 1 0 != 0
def wakeSrcLevel (s : State) : Bool := s.rf Reg.HRTH_HWSRC 10 0 != 0
def thermalSource (s : State) : Bool := s.rb Reg.CLK_TGSTAT 17

end State

end Sys2Proof.Machine
end

