-- ==== Sys2Proof/Machine/SafeMon.lean ====
section
/-!
DEFINITION. The safety monitor (spec 18 R452–R470): fault inputs and their reactions, the writes of its registers, lockstep mismatches and
tests, the safety watchdog and the task watchdogs.
-/
namespace Sys2Proof.Machine

open Sys2Proof

/-- Fault inputs that never latch (Table 18-1). -/
def inputReserved (k : Nat) : Bool := k == 79 || (decide (165 ≤ k) && decide (k < 168)) || (decide (176 ≤ k) && decide (k < 224))

namespace State

def modSaf (s : State) (f : SafeSt → SafeSt) : State := { s with saf := f s.saf }
def fpend (s : State) (k : Nat) : Bool := s.rb (Reg.SAFE_FPEND (k / 64)) (k % 64)
def fact_ (s : State) (k : Nat) : Nat := s.rf (Reg.SAFE_FCFG k) 2 0
/-- The groups a partition owns, as a mask. -/
def groupsOf (s : State) (p : Nat) : Nat := (List.range 8).foldl (fun m g => if s.owner .group g == some p then m ||| 2 ^ g else m) 0

/-- The partition concerned by an input (R457); part: the owner of the pair or core concerned, for inputs 0 to 15. -/
def concernedBy (s : State) (k part : Nat) : Nat :=
  if k < 16 then part else if 112 ≤ k ∧ k < 160 then k % 16 else if 224 ≤ k then (k - 224) / 2 else s.rf (Reg.SAFE_FCFG k) 19 16

/-- The GPIO pins of a partition follow their safe levels or their outputs again. -/
def refreshPins (s : State) (p : Nat) : State := forN 96 (fun n s => if s.owner .gpio n == some p then s.gpioRefresh n else s) s

/-- An input latches, and its reaction is taken once (R458, R461). -/
def latchInput (s : State) (k part core : Nat) : State :=
  if inputReserved k || s.fpend k then s
  else
    let p := s.concernedBy k part
    let act := s.fact_ k
    let clear := (List.range 4).all (fun w => s.ioR (Reg.SAFE_FPEND w) == 0#64)
    let coreOk := k < 16 || (112 ≤ k && k < 144)
    let s := if clear then
        (s.ioW Reg.SAFE_FREC0 (putFld 63 63 1 ||| putFld 29 24 (if coreOk then core else 0) ||| putFld 19 16 p ||| putFld 10 8 act ||| putFld 7 0 k)).ioW
          Reg.SAFE_FREC1 (n64 s.now)
      else s
    let s := (s.setB (Reg.SAFE_FPEND (k / 64)) (k % 64)).countUn 0x1A 0
    let added := if k < 16 then s.groupsOf p else 0
    let s := s.modSaf (fun x => { x with concerned := Tab.set x.concerned k (p + 1) 0, mask := Tab.set x.mask k added 0 })
    let hold := fun (s : State) =>
      let m := s.rf (Reg.SAFE_FCFG k) 31 24 ||| added
      (forN 8 (fun g s => if m.testBit g then s.groupSafe g 2 else s) s).refreshPins p
    if act = 3 then hold s
    else if act = 4 then (hold s).requestReset p 6 k
    else if act = 5 then s.chipReset 6 k
    else s

/-- FAULT_INPUT_LATCH: an input whose source asserts latches. -/
def faultLatch (s : State) (k : Nat) : State :=
  match s.faultIn.find? (fun e => e.1 == k) with
  | none => s
  | some e => ({ s with faultIn := s.faultIn.erase e } : State).latchInput k e.2.1 e.2.2

/-! Register writes (R459, R460, R463, R470). -/

def slocked (s : State) : Bool := s.rb Reg.SAFE_SLOCK 0
/-- The groups of Table 18-1's default for an input. -/
def defaultMask (s : State) (k : Nat) : Nat :=
  fld (fcfgReset k) 31 24 ||| (if 112 ≤ k ∧ k < 144 then s.groupsOf (k % 16) else 0)

def fcfgWrite (s : State) (k : Nat) (v : W64) : State :=
  if s.slocked then s
  else
    let old := s.ioR (Reg.SAFE_FCFG k)
    let floor := fld old 10 8
    let act := if 6 ≤ fld v 2 0 then fld old 2 0 else if fld v 2 0 < floor then floor else fld v 2 0
    let mask := if floor = 0 then fld v 31 24 else fld v 31 24 ||| s.defaultMask k
    s.ioW (Reg.SAFE_FCFG k) (putFld 31 24 mask ||| putFld 19 16 (fld v 19 16) ||| putFld 10 8 floor ||| putFld 2 0 act)

/-- The source of a pending input still shows its fault (R460). -/
def faultStands (s : State) (k : Nat) : Bool :=
  if k < 8 then (List.range 8).any (fun j => (s.core (8 * k + j)).run == .mismatch)
  else if k = 78 then s.rb Reg.CLK_TGSTAT 17
  else if 80 ≤ k ∧ k < 88 then
    (s.groupChans (k - 80)).any (fun c => s.rb (Reg.STK_RBERR (c / 64)) (c % 64)) || s.rb (Reg.STK_GCTL (k - 80)) 8
  else if 88 ≤ k ∧ k < 96 then s.senseFault (k - 88)
  else if 96 ≤ k ∧ k < 112 then s.rb (Reg.HKA_HLIM (k - 96)) 0
  else if 112 ≤ k ∧ k < 128 then (s.coresOf (k - 112)).any (fun c => (s.core c).run == .collapsed)
  else if 128 ≤ k ∧ k < 144 then (s.coresOf (k - 128)).any (fun c => s.corePowered c && s.cl c == 1)
  else if 160 ≤ k ∧ k < 164 then s.saf.pllLost.testBit (k - 160)
  else if k = 164 then s.saf.refBad
  else false

/-- A w1c write of FPEND word w by partition q. -/
def fpendWrite (s : State) (q w : Nat) (v : W64) : State :=
  forN 64 (fun j s =>
    let k := 64 * w + j
    let p := Tab.get s.saf.concerned k 0
    if bitAt v j && s.fpend k && (q == 0 || p == q + 1) && !s.faultStands k then
      let s := s.wf (Reg.SAFE_FPEND w) j j 0
      let s := s.modSaf (fun x => { x with concerned := Tab.set x.concerned k 0 0, mask := Tab.set x.mask k 0 0 })
      s.refreshPins (p - 1)
    else s) s

def swfltWrite (s : State) (q : Nat) (v : W64) : State :=
  let k := fld v 7 0
  if k = 224 + 2 * q ∨ k = 225 + 2 * q then s.latchInput k q 0 else s

def slockWrite (s : State) (v : W64) : State := if bitAt v 0 then s.setB Reg.SAFE_SLOCK 0 else s
def gpsafeWrite (s : State) (pa : Nat) (v : W64) : State :=
  if s.slocked then s else forN 96 (fun n s => s.gpioRefresh n) (s.ioW pa (v &&& fmask 31 0))

/-! The safety watchdog (R464–R466). -/

def swdcfgWrite (s : State) (v : W64) : State :=
  let wmax := fld v 13 0
  let wmin := fld v 29 16
  if s.slocked || wmax < 100 || 10000 < wmax || wmax < wmin + 100 then s
  else
    let was := s.rb Reg.SAFE_SWDCFG 63
    let s := s.ioW Reg.SAFE_SWDCFG (putFld 63 63 (was || bitAt v 63).toNat ||| (v &&& (fmask 59 56 ||| fmask 29 16 ||| fmask 13 0)))
    if !was && bitAt v 63 then s.swdRestart else s

/-- The latest instant of the current window, in ns. -/
def swdDeadline (s : State) : Nat :=
  s.saf.swdAt + s.rf Reg.SAFE_SWDCFG 13 0 * 1000 * (if s.rb Reg.SAFE_SWDSTAT 32 then 2 else 1)

/-- A kick by partition q. -/
def swdKick (s : State) (q : Nat) (v : W64) : State :=
  if !s.rb Reg.SAFE_SWDCFG 63 || !s.saf.swdRuns || s.rf Reg.SAFE_SWDCFG 59 56 != q then s
  else
    let next := s.rf Reg.SAFE_SWDSTAT 63 48
    let early := !s.rb Reg.SAFE_SWDSTAT 32 && decide (s.now < s.saf.swdAt + s.rf Reg.SAFE_SWDCFG 29 16 * 1000)
    if fld v 15 0 != next || early || decide (s.swdDeadline < s.now) then s.chipReset 5
    else
      let s := (s.wf Reg.SAFE_SWDSTAT 63 48 (if next = 0x5A3C then 0xC3A5 else 0x5A3C)).wf Reg.SAFE_SWDSTAT 32 32 0
      s.modSaf (fun x => { x with swdAt := s.now })

/-- The window ends with no kick. -/
def swdExpiry (s : State) : State :=
  if !s.railUp || !s.rb Reg.SAFE_SWDCFG 63 || !s.saf.swdRuns then s else (s.advanceTo s.swdDeadline).chipReset 5

/-- SWDSTAT as it reads. -/
def swdstatRead (s : State) : W64 :=
  let v := s.ioR Reg.SAFE_SWDSTAT
  if s.saf.swdRuns then setFld v 13 0 (min ((s.now - s.saf.swdAt) / 1000) 16383) else v

/-! Task watchdogs (R467). -/

def tw (s : State) (p : Nat) : Nat × Nat := Tab.get s.saf.tw p (0, 0)
def setTw (s : State) (p : Nat) (x : Nat × Nat) : State := s.modSaf (fun y => { y with tw := Tab.set y.tw p x (0, 0) })
/-- A core of p is in the debug monitor. -/
def inMonitor (s : State) (p : Nat) : Bool := (s.coresOf p).any (fun c => s.corePowered c && s.cl c == 1)
def twcfgWrite (s : State) (p : Nat) (v : W64) : State :=
  let old := s.ioR (Reg.SAFE_TWCFG p)
  let per := if fld v 23 0 = 0 then fld old 23 0 else fld v 23 0
  let x := putFld 63 62 (fld v 63 62) ||| putFld 61 61 (bitAt old 61 && !bitAt v 61).toNat ||| putFld 23 0 per
  let s := s.ioW (Reg.SAFE_TWCFG p) x
  if bitAt v 63 && !bitAt old 63 then s.setTw p (s.now, if s.inMonitor p && !bitAt v 62 then s.now + 1 else 0) else s
def twKick (s : State) (p : Nat) : State := s.setTw p (s.now, if (s.tw p).2 = 0 then 0 else s.now + 1)
def twExpiry (s : State) (p : Nat) : State :=
  if !s.railUp || !s.rb (Reg.SAFE_TWCFG p) 63 || (s.tw p).2 != 0 then s
  else
    let t := (s.tw p).1 + s.rf (Reg.SAFE_TWCFG p) 23 0 * 1000
    let s := s.advanceTo t
    ((s.setB (Reg.SAFE_TWCFG p) 61).setTw p (max t s.now, 0)).raiseFault (144 + p)

/-- A core of partition p enters CL 1 (R467, R468). -/
def monitorEntered (s : State) (c : Nat) : State :=
  let p := s.corePart c
  let s := if (s.tw p).2 = 0 && !s.rb (Reg.SAFE_TWCFG p) 62 then s.setTw p ((s.tw p).1, s.now + 1) else s
  if (s.part p).safety then s.latchInput (128 + p) p c else s
/-- A core of partition p has returned from CL 1: with the last one the counts go on and the safety watchdog restarts (R465, R467). -/
def monitorLeft (s : State) (c : Nat) : State :=
  let p := s.corePart c
  if s.inMonitor p then s
  else
    let (a, f) := s.tw p
    let s := if f = 0 then s else s.setTw p (a + (s.now - (f - 1)), 0)
    if s.rf Reg.SAFE_SWDCFG 59 56 == p then s.swdRestart else s

/-! Lockstep and clocks (R454–R457). -/

/-- A mismatch of pair j (cores 2j and 2j + 1): the first difference is of a kind, after an instruction index. -/
def lockstepMismatch (s : State) (j what index : Nat) : State :=
  let c := 2 * j
  let k := j / 4
  if !s.corePaired c || (s.core c).run != .run then s
  else
    let s := (s.withdraw c).modCore c (fun x => { x with run := .mismatch, micro := none, walk := none, wait := .none })
    let s := if s.rb (Reg.SAFE_LSREC k) 63 then s
      else s.ioW (Reg.SAFE_LSREC k) (putFld 63 63 1 ||| putFld 27 26 (j % 4) ||| putFld 25 24 what ||| putFld 23 0 index)
    (s.setB (Reg.DBG_DBGSTAT c) 0).raiseFault k (s.corePart c) c
def selfTest (s : State) (k : Nat) (ok : Bool) : State :=
  if !s.corePaired (8 * k) then s else if ok then s.countCl k 0x0A 0 else s.raiseFault (168 + k)
def rcCheck (s : State) (ok : Bool) : State :=
  let s := s.modSaf (fun x => { x with refBad := !ok })
  if ok then s else s.raiseFault 164
def pllLoss (s : State) (k : Nat) : State := (s.modSaf (fun x => { x with pllLost := x.pllLost ||| 2 ^ k })).raiseFault (160 + k)
/-- PLLSTAT as it reads (R415). -/
def pllstatRead (s : State) : W64 :=
  let any := fun (lo n : Nat) => (List.range n).any (fun k => s.domOn (lo + k))
  let on := (any 64 8).toNat + 2 * s.railUp.toNat + 4 * (any 259 4).toNat + 8 * (any 255 4 || any 263 4).toNat
  putFld 7 4 on ||| putFld 3 0 (on &&& (15 - s.saf.pllLost % 16))

/-! INTC sources. -/
def safeIrq (s : State) : Bool := (findN 256 (fun k => s.fpend k && s.fact_ k == 1)).isSome
def safeTrump (s : State) : Bool := (findN 256 (fun k => s.fpend k && decide (2 ≤ s.fact_ k) && decide (s.fact_ k ≤ 4))).isSome

end State

end Sys2Proof.Machine
end

