-- ==== Sys2Proof/Machine/DbgReg.lean ====
section
/-!
DEFINITION. Debug, trace and event counters (spec 20 R484–R498): the writes of the DBG block, RSEL and RDAT, comparator tests, trace
records, the counters, and the JTAG instructions that load a state.
-/
namespace Sys2Proof.Machine

open Sys2Proof

namespace State

/-- A write that arms debugging of a core of a safety partition needs DBGOK, or PROVLOCK 0 (R490). -/
def debugOk (s : State) (c : Nat) : Bool :=
  !(s.part (s.corePart c)).safety || s.rb Reg.SEC_SECSTAT 5 || !s.sec.otp.provLock
def dbgMayWrite (s : State) (q c : Nat) : Bool := q == 0 || (s.coreOwned c && s.corePart c == q)
def dbgRefuse (s : State) (c : Nat) : State := s.setB (Reg.DBG_DBGSTAT c) 3

/-- DBGCTL (R489, R490). -/
def dbgctlWrite (s : State) (q c : Nat) (v : W64) : State :=
  if !s.dbgMayWrite q c then s
  else
    let old := s.ioR (Reg.DBG_DBGCTL c)
    if (bitAt v 1 || (bitAt v 3 && !bitAt old 3)) && !s.debugOk c then s.dbgRefuse c
    else
      let s := s.ioW (Reg.DBG_DBGCTL c) (v &&& (fmask 4 3 ||| fmask 0 0))
      if bitAt v 1 then s.setB (Reg.DBG_DBGSTAT c) 1 else s

/-- CMPCTLk; reserved encodings keep the old field (R10). -/
def cmpctlWrite (s : State) (q c k : Nat) (v : W64) : State :=
  if !s.dbgMayWrite q c then s
  else
    let old := s.ioR (Reg.DBG_CMPCTL c k)
    if bitAt v 31 && !bitAt old 31 && !s.debugOk c then s.dbgRefuse c
    else
      let x := v &&& (fmask 31 30 ||| fmask 23 15)
      let x := setFld x 13 8 (if 40 < fld v 13 8 then fld old 13 8 else fld v 13 8)
      let x := setFld x 7 6 (if fld v 7 6 = 3 then fld old 7 6 else fld v 7 6)
      s.ioW (Reg.DBG_CMPCTL c k) (setFld x 2 0 (if 4 ≤ fld v 2 0 then fld old 2 0 else fld v 2 0))

/-! RSEL and RDAT (R492). -/

/-- The register that a number of Table 20-2 names. -/
def dbgReg (s : State) (c n : Nat) : Word :=
  let x := s.core c
  if n < 0x100 then Tab.get x.hands n Word.void
  else if n < 0x108 then Tab.get x.g (n - 0x100) Word.void
  else if 0x110 ≤ n ∧ n < 0x120 then fixN (Tab.get x.sg (n - 0x110) 0)
  else if 0x120 ≤ n ∧ n < 0x128 then Tab.get x.snapG (n - 0x120) Word.void
  else if 0x128 ≤ n ∧ n < 0x140 then Tab.get x.snapHand (n - 0x128) Word.void
  else if 0x140 ≤ n ∧ n < 0x150 then fixN (Tab.get x.snapSg (n - 0x140) 0)
  else if n = 0x150 then fixW x.snapRpt
  else if n = 0x151 then fixW x.snapAsr
  else if n = 0x152 then fixW x.snapFsr
  else if n = 0x200 then fixW (s.cstR c)
  else if 0x200 < n ∧ n < 0x23A then fixW (s.crR c (n - 0x200))
  else fixN 0

/-- A read of RDAT: zero while STOP is 0 and for other readers than partition 0. -/
def rdatRead (s : State) (q c : Nat) : W64 × State :=
  if q != 0 || !s.rb (Reg.DBG_DBGSTAT c) 0 then (0#64, s)
  else
    let w := s.dbgReg c (s.rf (Reg.DBG_RSEL c) 11 0)
    (w.pay, s.wf (Reg.DBG_RSEL c) 23 16 w.tag.toNat)

/-! Trace (R495). -/

/-- Core c is traced and records of a kind are enabled. -/
def traced (s : State) (c kind : Nat) : Bool :=
  let t := s.ioR Reg.TRC_TRCCTL
  bitAt t 0 && fld t 31 26 == c && bitAt t (16 + kind) && s.domOn 272

/-- Capture stops. -/
def trcStop (s : State) : State := (s.wf Reg.TRC_TRCCTL 0 0 0).setB Reg.TRC_TRCSTAT 2

/-- One record: KIND, the level after the event, CAUSE of an entry, and word 1. -/
def trace (s : State) (c kind cl cause : Nat) (w1 : W64) : State :=
  if !s.traced c kind then s
  else
    let i := s.rf Reg.TRC_TRCSTAT 45 32
    let s := if s.rb Reg.TRC_TRCSTAT 1 then s.setB Reg.TRC_TRCSTAT 0 else s
    let s := s.ioW (Reg.TRC_TRCBUF (2 * i)) (putFld 63 60 kind ||| putFld 59 57 cl ||| putFld 56 49 cause ||| putFld 47 0 s.now)
    let s := (s.ioW (Reg.TRC_TRCBUF (2 * i + 1)) w1).wf Reg.TRC_TRCSTAT 45 32 ((i + 1) % 16384)
    if i = 16383 then
      let s := s.setB Reg.TRC_TRCSTAT 1
      if s.rb Reg.TRC_TRCCTL 1 then s else s.trcStop
    else s

/-- TRCCTL; writing EN 1 empties the buffer. -/
def trcctlWrite (s : State) (v : W64) : State :=
  if !s.domOn 272 then s
  else
    let s := s.ioW Reg.TRC_TRCCTL (v &&& (fmask 31 26 ||| fmask 23 17 ||| fmask 2 0))
    if bitAt v 0 then s.wf Reg.TRC_TRCSTAT 45 0 (setFld (s.ioR Reg.TRC_TRCSTAT &&& fmask 2 2) 1 0 0).toNat else s

/-- TRCMARK written by a core. -/
def trcmarkWrite (s : State) (c : Nat) (v : W64) : State := s.trace c 7 (s.cl c) 0 v

/-! Comparators (R485–R488). -/

/-- The address part of a comparator's test. -/
def cmpAddr (s : State) (c k pa : Nat) : Bool :=
  let m := s.rf (Reg.DBG_CMPCTL c k) 13 8
  pa / 2 ^ m == (s.ioR (Reg.DBG_CMPADDR c k)).toNat / 2 ^ m
def cmpOn (s : State) (c k : Nat) : Bool := s.rb (Reg.DBG_DBGCTL c) 0 && s.rb (Reg.DBG_CMPCTL c k) 31

/-- The comparators that the fetch of an instruction hits: pa of its CODE body word, and whether it lies in bits 63:32. -/
def breakHits (s : State) (c pa : Nat) (upper : Bool) : Nat :=
  (List.range 8).foldl (fun m k =>
    let h := s.rf (Reg.DBG_CMPCTL c k) 7 6
    if s.cmpOn c k && s.rf (Reg.DBG_CMPCTL c k) 2 0 == 0 && s.cmpAddr c k pa && (h == 0 || (h == 1 && !upper) || (h == 2 && upper))
    then m + 2 ^ k else m) 0

/-- The comparators that a load or store hits. -/
def watchHits (s : State) (c : Nat) (a : AccRec) : Nat :=
  (List.range 8).foldl (fun m k =>
    let v := s.ioR (Reg.DBG_CMPCTL c k)
    let kind := fld v 2 0
    let vm := s.ioR (Reg.DBG_CMPVMSK c k)
    if s.cmpOn c k && (kind == 3 || kind == (if a.store then 2 else 1)) && s.cmpAddr c k a.pa &&
      (!bitAt v 15 || fld v 23 16 == a.word.tag.toNat) && (a.word.pay &&& vm) == (s.ioR (Reg.DBG_CMPVAL c k) &&& vm)
    then m + 2 ^ k else m) 0

/-- Hits are counted and traced; at CL 2 to 7 they are latched (R488); with STOPHIT capture stops. -/
def recordHits (s : State) (c bits pa : Nat) : State :=
  if bits = 0 || s.cl c == 1 then s
  else
    let s := (s.countCore c 0x1E (popCount 8 bits)).trace c 6 (s.cl c) 0 (putFld 47 40 bits ||| putFld 39 0 pa)
    let s := if s.rb Reg.TRC_TRCCTL 0 && s.rb Reg.TRC_TRCCTL 2 && s.rf Reg.TRC_TRCCTL 31 26 == c then s.trcStop else s
    if s.cl c = 0 then s else s.wf (Reg.DBG_DHIT c) 15 8 (s.rf (Reg.DBG_DHIT c) 15 8 ||| bits)

/-- The loads and stores of the instruction just committed are tested; at CL 0 a hit waits for its boundary (R486). -/
def testWatch (s : State) (c : Nat) : State :=
  let l := (s.core c).accs
  let s := s.modCore c (fun x => { x with accs := [] })
  if !s.rb (Reg.DBG_DBGCTL c) 0 then s
  else l.foldl (fun s a =>
    let b := s.watchHits c a
    let s := s.recordHits c b a.pa
    if b = 0 || s.cl c != 0 then s
    else s.modCore c (fun x => { x with watchAt := match x.watchAt with
      | none => some (a.sel, a.off, b)
      | some (se, o, m) => some (se, o, m ||| b) })) s

/-! Counters (R496, R497). -/

/-- A write of CNTSEL: OVF is w1c. -/
def cntselWrite (s : State) (a : Nat) (v m : W64) : State :=
  let old := s.ioR a
  s.ioW a ((v &&& m) ||| (old &&& fmask 29 29 &&& ~~~v))
/-- A counter pair asserts its source. -/
def overflowed (s : State) (a : Nat) : Bool := s.rb a 29 && s.rb a 30
def coreCounterSource (s : State) (c : Nat) : Bool := (List.range 8).any (fun j => s.overflowed (Reg.DBG_CNTSEL c j))
def clusterCounterSource (s : State) (k : Nat) : Bool := (List.range 8).any (fun j => s.overflowed (Reg.CNTC_CNTSEL k j))
def uncoreCounterSource (s : State) : Bool := (List.range 32).any (fun j => s.overflowed (Reg.CNTU_CNTSEL j))

/-- The DBG instance of a core returns to its reset values (R498). -/
def dbgReset (s : State) (c : Nat) : State := s.resetRange (0xFF00F00000 + 0x1000 * c) 0x1000 (fun _ => false)

/-! JTAG (R493). -/

/-- The rights of Table 20-3. -/
def jtagRights (s : State) : Bool :=
  !s.sec.otp.jtagOff && (s.hs.dev == .run || s.hs.dev == .recovery || s.hs.dev == .boot) && !s.domShed 272 &&
    (!s.sec.otp.provLock || s.rb Reg.SEC_SECSTAT 5)

/-- An instruction that holds the chip in reset is loaded. -/
def jtagHold (s : State) (ir : JtagIr) : State :=
  if !s.jtagRights then s.modHs (fun h => { h with jtag := .bypass })
  else if s.jtagHolds then s.modHs (fun h => { h with jtag := ir })
  else (s.chipReset 8).modHs (fun h => { h with jtag := ir })
/-- SAMPLE/PRELOAD loads the boundary cells. -/
def jtagSample (s : State) (cells : List (Nat × Bool)) : State :=
  s.modHs (fun h => { h with jtag := .sample, cells := cells.foldl (fun t e => Tab.set t e.1 e.2 false) [] })
def jtagRst (s : State) : State :=
  if s.jtagRights then (s.chipReset 8).modHs (fun h => { h with jtag := .bypass }) else s.modHs (fun h => { h with jtag := .bypass })
def jtagBypass (s : State) : State := s.modHs (fun h => { h with jtag := .bypass })
/-- What a boundary cell drives: a HO or HEN pin (field block B) is never driven high (R517). -/
def cellDrives (s : State) (pin : Nat) : Option Bool :=
  if s.hs.jtag == .extest || s.hs.jtag == .clamp then
    (if 3000 ≤ pin ∧ pin < 3264 then some false else some (Tab.get s.hs.cells pin false))
  else none

end State

end Sys2Proof.Machine
end

