-- ==== Sys2Proof/Machine/Image.lean ====
section
/-!
DEFINITION. The Avset configuration image (spec 17 R430–R446): its header, its sections and their fields, and the checks of the loader with
the error codes of Table 17-8. Where several checks fail, the one that this file makes first gives the code (notes/assumptions/70.md).
-/
namespace Sys2Proof.Machine

open Sys2Proof

/-- A loader error: the code of Table 17-8, the section index, and the Meld code of Table 12-7. -/
structure LErr where
  code : Nat
  sec  : Nat := 0xFFFF
  mcode : Nat := 0
  deriving DecidableEq, Repr

/-- A section: its type, its place among the sections, and its value. -/
structure Section where
  typ : Nat
  idx : Nat
  val : List Octet
  deriving DecidableEq, Repr

/-- Little-endian number of octets (R430). -/
def leNat : List Octet → Nat
  | [] => 0
  | o :: t => o.toNat + 256 * leNat t
def octAt (l : List Octet) (lo n : Nat) : List Octet := (l.drop lo).take n
def numAt (l : List Octet) (lo n : Nat) : Nat := leNat (octAt l lo n)

/-- The fields of a value: 8 octets each. -/
def fieldsGo : Nat → List Octet → List W64
  | 0, _ => []
  | k + 1, l => if l.isEmpty then [] else payOf (l.take 8) :: fieldsGo k (l.drop 8)
def fieldsOf (l : List Octet) : List W64 := fieldsGo (l.length / 8) l
/-- Tagged words: 9 octets each, the tag first (R430). -/
def wordsGo : Nat → List Octet → List Word
  | 0, _ => []
  | k + 1, l => ⟨l.getD 0 0#8, payOf ((l.drop 1).take 8)⟩ :: wordsGo k (l.drop 9)
/-- Entries of k fields each. -/
def entriesGo (k : Nat) : Nat → List W64 → List (List W64)
  | 0, _ => []
  | n + 1, l => l.take k :: entriesGo k n (l.drop k)
def fF (l : List W64) (n : Nat) : W64 := l.getD n 0#64
/-- Every bit outside a mask is zero. -/
def within (v m : W64) : Bool := (v &&& ~~~m) == 0#64

namespace Image

abbrev tPINS := 0x0001
abbrev tCHIP := 0x0010
abbrev tPART := 0x0020
abbrev tTAGS := 0x0030
abbrev tUCODE := 0x0038
abbrev tCACH := 0x0040
abbrev tHEAP := 0x0048
abbrev tQUE := 0x0050
abbrev tMELD := 0x0058
abbrev tCGL := 0x0060
abbrev tSAFE := 0x0068
abbrev tHEAT := 0x0070
abbrev tSTOK := 0x0078
abbrev tSENS := 0x0080
abbrev tFIO := 0x0088
abbrev tPERI := 0x0090
abbrev tLOAD := 0x00A0
abbrev tSIGN := 0xFFFF

/-- The types of Table 17-3, notes apart. -/
def knownTypes : List Nat := [tPINS, tCHIP, tPART, tTAGS, tUCODE, tCACH, tHEAP, tQUE, tMELD, tCGL, tSAFE, tHEAT, tSTOK, tSENS, tFIO, tPERI, tLOAD]
def isNote (t : Nat) : Bool := decide (0x7000 ≤ t) && decide (t ≤ 0x7FFF)
/-- Types that may repeat. -/
def repeats (t : Nat) : Bool := t == tPART || t == tHEAP || t == tMELD || t == tLOAD || isNote t

/-! Header (R431). -/

def hTotal (o : List Octet) : Nat := numAt o 8 4
def hFlags (o : List Octet) : Nat := numAt o 6 2
def hReload (o : List Octet) : Bool := (hFlags o).testBit 0
def hRbadv (o : List Octet) : Bool := (hFlags o).testBit 1
def hSvn (o : List Octet) : Nat := numAt o 16 2
def hKey (o : List Octet) : Nat := numAt o 18 1
def hNsect (o : List Octet) : Nat := numAt o 20 2
def hBase (o : List Octet) : List Octet := octAt o 32 8

/-- Step 1 of R442: the header. -/
def checkHeader (o : List Octet) (tuning : Bool) : Except LErr Unit :=
  if octAt o 0 4 != [0x41#8, 0x56#8, 0x53#8, 0x54#8] || numAt o 4 2 != 1 then .error { code := 0x02 }
  else if hTotal o < 136 || 16777216 < hTotal o || hTotal o % 8 != 0 then .error { code := 0x03 }
  else if numAt o 12 2 != 0x8840 || numAt o 14 1 != 1 || numAt o 15 1 != 0 then .error { code := 0x04 }
  else if 4 ≤ hFlags o || numAt o 19 1 != 0 || numAt o 22 2 != 0 || numAt o 40 8 != 0 || numAt o 48 8 != 0 || numAt o 56 8 != 0 ||
      63 < hSvn o || 3 < hKey o || (!tuning && (hBase o).any (· != 0#8)) then .error { code := 0x0C }
  else if hReload o != tuning || (tuning && hRbadv o) then .error { code := 0x19 }
  else .ok ()

/-- The sections (R432), from an offset; n bounds their number. -/
def sectionsGo (o : List Octet) (total : Nat) : Nat → Nat → Nat → Except LErr (List Section)
  | 0, i, _ => .error { code := 0x03, sec := i }
  | n + 1, i, at_ =>
    let typ := numAt o at_ 2
    let len := numAt o (at_ + 4) 4
    let fin := at_ + 8 + (len + 7) / 8 * 8
    if total < at_ + 8 || total < fin || numAt o (at_ + 2) 2 != 0 || (octAt o (at_ + 8 + len) (fin - (at_ + 8 + len))).any (· != 0#8) then
      .error { code := 0x08, sec := i }
    else if typ = tSIGN then (if fin = total && len = 64 then .ok [] else .error { code := 0x08, sec := i })
    else match sectionsGo o total n (i + 1) fin with
      | .error e => .error e
      | .ok l => .ok ({ typ := typ, idx := i, val := octAt o (at_ + 8) len } :: l)

def sections (o : List Octet) : Except LErr (List Section) :=
  match sectionsGo o (hTotal o) (hNsect o + 1) 0 64 with
  | .error e => .error e
  | .ok l => if l.length = hNsect o then .ok l else .error { code := 0x03 }

/-- The instance number by which sections of one repeatable type are ordered. -/
def instOf (x : Section) : Nat :=
  let f := numAt x.val 0 8
  if x.typ = tPART || x.typ = tHEAP then f % 16 else if x.typ = tMELD then f % 8 else 0

/-- The order of R434 between neighbours. -/
def ordered : List Section → Except LErr Unit
  | a :: b :: t =>
    if a.typ < b.typ || (a.typ = b.typ && repeats a.typ && (a.typ = tLOAD || isNote a.typ || instOf a < instOf b)) then ordered (b :: t)
    else .error { code := 0x09, sec := b.idx }
  | _ => .ok ()

def find (l : List Section) (t : Nat) : Option Section := l.find? (fun x => x.typ == t)
def all (l : List Section) (t : Nat) : List Section := l.filter (fun x => x.typ == t)
def fields (x : Section) : List W64 := fieldsOf x.val
/-- The fields of the section of a type; none where it is absent. -/
def flds (l : List Section) (t : Nat) : Option (List W64) := (find l t).map fields

/-! Partitions (R437, R438). -/

structure Own where
  cls   : Nat
  count : Nat
  wr    : Bool
  first : Nat
  deriving DecidableEq, Repr

structure PartF where
  idx     : Nat
  num     : Nat
  f0      : W64
  entry   : W64
  resume  : W64
  grants  : List (Nat × Nat)
  descs   : List (Nat × Desc)
  owns    : List Own
  deriving DecidableEq, Repr

def PartF.safety (p : PartF) : Bool := bitAt p.f0 4
def PartF.bankwin (p : PartF) : Bool := bitAt p.f0 5
def PartF.repLim (p : PartF) : Nat := fld p.f0 11 6
def PartF.tsize (p : PartF) : Nat := fld p.f0 24 12
def PartF.bootCore (p : PartF) : Nat := fld p.f0 30 25
def PartF.owns_ (p : PartF) (cls unit : Nat) : Bool :=
  p.owns.any (fun o => o.cls == cls && decide (o.first ≤ unit) && decide (unit < o.first + o.count))
def PartF.desc (p : PartF) (sel : Nat) : Option Desc := (p.descs.find? (fun e => e.1 == sel)).map (·.2)

def parsePart (x : Section) : Except LErr PartF :=
  let l := fields x
  let ng := fld (fF l 1) 15 0
  let nd := fld (fF l 1) 31 16
  let no := fld (fF l 1) 47 32
  if x.val.length % 8 != 0 || l.length != 4 + 2 * ng + 3 * nd + no then .error { code := 0x08, sec := x.idx }
  else
    let g := entriesGo 2 ng (l.drop 4)
    let d := entriesGo 3 nd (l.drop (4 + 2 * ng))
    let o := l.drop (4 + 2 * ng + 3 * nd)
    .ok { idx := x.idx, num := fld (fF l 0) 3 0, f0 := fF l 0, entry := fF l 2, resume := fF l 3
          grants := g.map (fun e => ((fF e 0).toNat, (fF e 1).toNat))
          descs := d.map (fun e => ((fF e 0).toNat, ⟨fF e 1, fF e 2⟩))
          owns := o.map (fun v => { cls := fld v 63 56, count := fld v 55 32, wr := bitAt v 24, first := fld v 23 0 }) }

/-- Units of an ownership class (Table 17-5); none for an unknown class. -/
def unitsOf (cls : Nat) : Option Nat :=
  match cls with
  | 0x20 => some 64 | 0x21 => some 8 | 0x22 => some 1 | 0x23 => some 1 | 0x24 => some 65536 | 0x27 => some (2 ^ 24)
  | 0x25 => some (2 ^ 24) | 0x26 => some (2 ^ 24) | 0x0D => some 389 | 0x02 => none
  | c => (devMax c).map (· + 1)

def overlap (a b : Own) : Bool := a.cls == b.cls && decide (a.first < b.first + b.count) && decide (b.first < a.first + a.count)
/-- A test on every pair of a list. -/
def anyPair {α : Type} (f : α → α → Bool) : List α → Bool
  | [] => false
  | a :: t => t.any (f a) || anyPair f t

/-- An address is the first word of a block instance, or its last (Table 1-7). -/
def instanceStart (a : Nat) : Bool := match findBlk a with | some (_, _, o) => o == 0 | none => false
def instanceEnd (a : Nat) : Bool := match findBlk a with | some (b, _, o) => o + 1 == b.geom.2.2 | none => false
/-- A grant lies in a region of R437; in I/O space it begins and ends with a whole block instance. -/
def grantOk (p : PartF) (resv : Nat) (g : Nat × Nat) : Bool :=
  let (b, n) := g
  if isDram b then decide (b + n ≤ resv)
  else if isLog b then decide (b + n ≤ 0xF100002000)
  else if isIo b then instanceStart b && instanceEnd (b + n - 1)
  else match spadOf b with
    | some (c, w) => p.owns_ 0x21 c && decide (w + n ≤ 0x100000)
    | none => false
def grantsClash (a b : PartF) : Bool :=
  a.grants.any (fun x => b.grants.any (fun y => !isIo x.1 && decide (x.1 < y.1 + y.2) && decide (y.1 < x.1 + x.2)))

/-- The rules about one partition and the chip fields. -/
def checkPart (paired dcoreV : W64) (resv : Nat) (loads : List (List W64 × List Word)) (p : PartF) : Except LErr Unit :=
  let bad := fun (c : Nat) => (.error { code := c, sec := p.idx } : Except LErr Unit)
  let pairC := fun (c : Nat) => bitAt paired (c / 8)
  if !within p.f0 (fmask 30 0) || p.tsize = 0 || 4096 < p.tsize || p.repLim = 0 || 32 < p.repLim then bad 0x0C
  else if p.descs.any (fun e => p.tsize ≤ e.1) || anyPair (fun (a b : Nat × Desc) => a.1 == b.1) p.descs then bad 0x0C
  else if p.owns.any (fun o => match unitsOf o.cls with | none => true | some n => o.count == 0 || decide (n < o.first + o.count)) then bad 0x0C
  else if p.owns.any (fun o => (o.cls == 0x20 && (List.range o.count).any (fun i => pairC (o.first + i) && (o.first + i) % 2 == 1)) ||
      (o.cls == 0x21 && !((List.range o.count).all (fun i => (List.range 8).any (fun j => p.owns_ 0x20 (8 * (o.first + i) + j)))))) then bad 0x0D
  else if ([0x24, 0x25, 0x26, 0x27] : List Nat).any (fun c => decide (1 < (p.owns.filter (fun o => o.cls == c)).length)) then bad 0x0D
  else if !p.owns_ 0x20 p.bootCore || !bitAt dcoreV p.bootCore then bad 0x0C
  else if p.safety && (p.bankwin || (List.range 64).any (fun c => p.owns_ 0x20 c && !pairC c)) then bad 0x10
  else if !(p.grants.all (grantOk p resv)) then bad 0x0E
  else if p.descs.any (fun e => e.2.v && (!e.2.wellFormed || !grantsCover p.grants (p.grants.length + 1) e.2.base e.2.limit)) then bad 0x0E
  else
    let entryOk := fun (v : W64) => match p.desc (ptrSel v) with
      | none => false
      | some d => d.typ == segCODE && loads.any (fun x =>
          fld (fF x.1 0) 3 0 == p.num && fld (fF x.1 0) 15 4 == ptrSel v && decide ((fF x.1 1).toNat ≤ ptrOff v) &&
          (match x.2[ptrOff v - (fF x.1 1).toNat]? with | some w => w.tag == Tag.hdr && fld w.pay 63 56 == 0x0E | none => false))
    if !entryOk p.entry || (p.resume != 0#64 && !entryOk p.resume) then bad 0x0C else .ok ()

/-! The fixed sections. -/

def need (b : Bool) (c : Nat) (x : Section) : Except LErr Unit := if b then .ok () else .error { code := c, sec := x.idx }

def checkPins (x : Section) : Except LErr Unit := do
  let l := fields x
  let n := fld (fF l 0) 47 32
  need (x.val.length == 8 + 8 * n) 0x08 x
  need (within (fF l 0) (fmask 47 32 ||| fmask 0 0) && (l.drop 1).all (fun v => within v (fmask 11 0) && decide (fld v 7 0 < 96) && fld v 11 10 != 3)) 0x0C x

/-- Domains an image may mark sheddable (R411). -/
def sheddable (k : Nat) : Bool :=
  decide (k < 72) || (decide (232 ≤ k) && decide (k < 248)) || (decide (263 ≤ k) && decide (k < 269)) || k == 272

def checkChip (x : Section) : Except LErr Unit := do
  let l := fields x
  need (x.val.length == 192) 0x08 x
  need (within (fF l 0) (fmask 7 0) && within (fF l 2) (fmask 6 0) && within (fF l 3) (fmask 31 16 ||| fmask 14 8 ||| fmask 1 0) && fld (fF l 3) 1 0 != 3) 0x0C x
  need (within (fF l 4) (fmask 39 0) && (fF l 4).toNat % 8 == 0 && within (fF l 5) (fmask 9 6 ||| fmask 4 4 ||| fmask 2 1) &&
    fld (fF l 5) 9 8 != 3 && fld (fF l 5) 7 6 != 3) 0x0C x
  need (within (fF l 6) (fmask 15 8 ||| fmask 0 0) && fld (fF l 6) 15 8 != 0) 0x0C x
  need (within (fF l 7) (fmask 55 14) && decide (fld (fF l 7) 41 28 < fld (fF l 7) 27 14) && decide (fld (fF l 7) 27 14 < fld (fF l 7) 55 42) &&
    decide (fld (fF l 7) 55 42 < 0x210F)) 0x0C x
  need ((List.range 10).all (fun m =>
    let v := fF l (8 + m)
    v == 0#64 || (within v (fmask 47 0) &&
      (if m = 0 then decide (fld v 47 32 + 20 ≤ fld v 31 16) else decide (fld v 31 16 + 20 ≤ fld v 47 32))))) 0x0C x
  need (within (fF l 18) (fmask 17 0) && (List.range 6).all (fun k => decide (fld (fF l 18) (3 * k + 2) (3 * k) < 3))) 0x0C x
  need ((List.range 320).all (fun k => !bitAt (fF l (19 + k / 64)) (k % 64) || sheddable k)) 0x10 x

def checkTags (x : Section) (slotUsed : Nat → Bool) : Except LErr Unit := do
  let l := fields x
  need (x.val.length == 8 + 8 * (fF l 0).toNat) 0x08 x
  need ((l.drop 1).all (fun v => within v (fmask 16 0) && decide (0xC0 ≤ fld v 7 0) && decide (fld v 15 10 < 48))) 0x0C x
  need (!anyPair (fun (a b : W64) => fld a 7 0 == fld b 7 0) (l.drop 1)) 0x0C x
  need ((l.drop 1).all (fun v => !(bitAt v 8 && bitAt v 16) && !(bitAt v 9 && !slotUsed (fld v 15 10)))) 0x11 x

/-! Microcode (R192, R193, R203–R205). -/

def mField (w : BitVec 128) (hi lo : Nat) : Nat := (w.toNat >>> lo) % 2 ^ (hi + 1 - lo)
def selOk (c : Nat) : Bool := decide (c ≤ 5) || (decide (0x10 ≤ c) && decide (c ≤ 0x1F))
def inWcs (a : Nat) : Bool := decide (0x2000 ≤ a) && decide (a ≤ 0x3FFF)

/-- The WCS addresses a microword can sequence to (R192). -/
def microNext (w : BitVec 128) (ua : Nat) : List Nat :=
  let tgt := mField w 119 106
  if mField w 105 103 == 4 || mField w 105 103 == 5 then []
  else match mField w 127 125 with
    | 0 => [ua + 1]
    | 1 => [tgt]
    | 5 => []
    | 6 => (List.range 16).map (tgt + ·)
    | _ => [tgt, ua + 1]

/-- The places of the WCS words of a routine, from the addresses still to be followed. -/
def routineGo (ws : List (BitVec 128)) : Nat → List Nat → List Nat → List Nat
  | 0, _, seen => seen
  | _ + 1, [], seen => seen
  | k + 1, ua :: todo, seen =>
    if ua < 0x2000 || seen.contains (ua - 0x2000) then routineGo ws k todo seen
    else match ws[ua - 0x2000]? with
      | some w => routineGo ws k (microNext w ua ++ todo) ((ua - 0x2000) :: seen)
      | none => routineGo ws k todo seen

/-- The places of the words that the routine of a decode entry can reach: a word has at most 16 successors. -/
def routineOf (ws : List (BitVec 128)) (e : W64) : List Nat := routineGo ws (17 * ws.length + 1) [fld e 13 0] []

/-- A literal tag of an ALU result (R204): a customer tag only of a slot whose routine the word is in (DEDUCED: notes/assumptions/88.md). -/
def litTagOk (slotOf : Nat → Option Nat) (decs : List (Nat × W64)) (ws : List (BitVec 128)) (i : Nat) (w : BitVec 128) : Bool :=
  let alu := mField w 91 86
  let t := mField w 57 50
  !(alu != 0 && alu != 1 && mField w 60 58 == 3) || ([0x01, 0x02, 0x03, 0x04, 0x05, 0x1B] : List Nat).contains t ||
    (match slotOf t with
     | none => false
     | some k => decs.any (fun e => e.1 == 0xD0 + k && bitAt e.2 31 && (routineOf ws e.2).contains i))

/-- The rules that one microword keeps by itself. -/
def microOk (w : BitVec 128) : Bool :=
  let seq := mField w 127 125
  let cond := mField w 124 120
  let tgt := mField w 119 106
  let act := mField w 105 103
  let cause := mField w 102 95
  let opnd := mField w 94 92
  let alu := mField w 91 86
  let dst := mField w 73 68
  let mop := mField w 67 65
  let tsrc := mField w 60 58
  decide (seq ≤ 6) && (if seq == 2 || seq == 3 then decide (cond ≤ 0x0D) else cond == 0) &&
  (if seq == 1 || seq == 2 || seq == 3 then inWcs tgt else if seq == 4 then inWcs tgt || tgt == 0x40 || tgt == 0x80
   else if seq == 6 then tgt % 16 == 0 && inWcs tgt && inWcs (tgt + 15) else true) &&
  decide (act ≤ 5) &&
  (if act == 5 then ([0x01, 0x02, 0x03, 0x04, 0x07, 0x09] : List Nat).contains cause else cause == 0 && opnd == 0) &&
  decide (alu ≤ 0x12) && selOk (mField w 85 80) && selOk (mField w 79 74) && selOk dst && !(decide (3 ≤ dst) && decide (dst ≤ 5)) &&
  decide (mop ≤ 5) && (mop == 0 || alu == 0) && (mop == 1 || mop == 3 || mField w 64 61 == 0) && decide (tsrc ≤ 4) &&
  mField w 17 0 == 0

structure UcodeF where
  uver  : Nat
  svn   : Nat
  decs  : List (Nat × W64)
  words : List (BitVec 128)
  sig   : List Octet
  body  : List Octet
  deriving DecidableEq, Repr

def parseUcode (x : Section) : Except LErr UcodeF :=
  let l := fields x
  let nd := fld (fF l 0) 29 24
  let nw := fld (fF l 0) 45 32
  if x.val.length != 8 + 8 * nd + 16 * nw + 64 then .error { code := 0x08, sec := x.idx }
  else if !within (fF l 0) (fmask 45 32 ||| fmask 29 0) || 48 < nd || 8192 < nw then .error { code := 0x0C, sec := x.idx }
  else .ok { uver := fld (fF l 0) 15 0, svn := fld (fF l 0) 23 16
             decs := ((l.drop 1).take nd).map (fun v => (fld v 7 0, n64 (fld v 63 32)))
             words := (entriesGo 2 nw (l.drop (1 + nd))).map (fun e => BitVec.ofNat 128 ((fF e 0).toNat + (fF e 1).toNat * 2 ^ 64))
             sig := x.val.drop (x.val.length - 64), body := x.val.take (x.val.length - 64) }

/-- A customer decode entry (R189). -/
def decOk (e : Nat × W64) : Bool :=
  decide (0xD0 ≤ e.1) && fld e.2 26 14 == 0 && (!bitAt e.2 31 || (bitAt e.2 30 && inWcs (fld e.2 13 0)))

/-! The remaining sections (Tables 17-6, 17-7). The owner tests take the partitions. -/

/-- The partition that owns a unit of a class. -/
def ownerOf (ps : List PartF) (cls unit : Nat) : Option Nat := (ps.find? (fun p => p.owns_ cls unit)).map (·.num)
def partNo (ps : List PartF) (n : Nat) : Option PartF := ps.find? (fun p => p.num == n)

def checkCach (x : Section) : Except LErr Unit := do
  let l := fields x
  need (x.val.length == 8 * 78) 0x08 x
  need ((l.take 8).all (fun v => within v (fmask 17 16 ||| fmask 11 8 ||| fmask 0 0) && fld v 17 16 != 3) && ((l.drop 8).take 64).all (fun v => within v (fmask 1 0)) &&
    within (fF l 72) (fmask 3 1) && (l.drop 73).all (fun v => within v (fmask 15 4))) 0x0C x

def checkHeap (x : Section) (ps : List PartF) (others : List (List W64)) : Except LErr Unit := do
  let l := fields x
  let h := fld (fF l 0) 3 0
  let sel := fld (fF l 0) 19 8
  need (x.val.length == 8 * (7 + (fF l 6).toNat)) 0x08 x
  need (within (fF l 0) (fmask 19 0) && within (fF l 1) (fmask 7 4 ||| fmask 1 0) && decide (3 ≤ fld (fF l 1) 7 4) && decide (fld (fF l 1) 1 0 < 3) &&
    within (fF l 2) (fmask 49 0) && within (fF l 3) (fmask 32 0) && within (fF l 4) (fmask 15 0) && decide ((fF l 6).toNat ≤ 64)) 0x0C x
  match partNo ps (fld (fF l 0) 7 4) with
  | none => .error { code := 0x0C, sec := x.idx }
  | some p => do
    let homes := ps.flatMap (fun q => (q.descs.filter (fun e => e.2.v && e.2.typ == segHEAP && e.2.heapId == h)).map (fun e => (q.num, e.1, e.2)))
    need (match homes with | [(q, e, d)] => q == p.num && e == sel && d.base % 131072 == 0 && d.limit % 131072 == 0 | _ => false) 0x15 x
    need ((List.range 64).all (fun c => !bitAt (fF l 5) c || (p.owns_ 0x20 c && !(others.any (fun o => bitAt (fF o 5) c))))) 0x0C x
    need ((l.drop 7).all (fun v => within v (fmask 11 0) && (match p.desc v.toNat with | some d => d.v && d.typ == segDATA | none => false))) 0x0C x

/-- The rules of a queue configuration (Table 11-1), as a number. -/
def queueCfgOk (v : W64) : Bool := within v (fmask 31 0) && cfgOk v.toNat

def checkQue (x : Section) (inRange : Nat → Bool) : Except LErr Unit := do
  let l := fields x
  let es := entriesGo 2 (fF l 0).toNat (l.drop 1)
  need (x.val.length == 8 + 16 * (fF l 0).toNat) 0x08 x
  need (es.all (fun e => within (fF e 0) (fmask 15 0) && inRange (fF e 0).toNat && queueCfgOk (fF e 1))) 0x0C x
  need (!anyPair (fun (a b : List W64) => fF a 0 == fF b 0) es) 0x0C x

/-- A Meld slot and its view (R314, R315). -/
def checkMeld (x : Section) (ps : List PartF) : Except LErr Unit := do
  let l := fields x
  let pre := bitAt (fF l 0) 8
  let nw := if pre then (fF l 23).toNat else 0
  need (x.val.length == 8 * 23 + (if pre then 8 + 9 * nw else 0)) 0x08 x
  need (within (fF l 0) (fmask 27 16 ||| fmask 8 4 ||| fmask 2 0) && (List.range 4).all (fun j =>
    decide (1 ≤ (fF l (1 + j)).toNat) && decide ((fF l (1 + j)).toNat ≤ if j = 0 then 1048576 else 16777216)) &&
    (List.range 18).all (fun j => within (fF l (5 + j)) (fmask 32 0))) 0x0C x
  match partNo ps (fld (fF l 0) 7 4) with
  | none => .error { code := 0x0C, sec := x.idx }
  | some p =>
    match p.desc (fld (fF l 0) 27 16) with
    | none => .error { code := 0x16, sec := x.idx }
    | some d => do
      let n := 16 * ((fF l 2).toNat + (fF l 3).toNat)
      need (d.v && d.typ == segDATA && fld d.w0 59 57 == 4 && fld d.w0 56 54 == 4 && d.limit == n && isDram d.base) 0x16 x
      need (ps.all (fun q => q.descs.all (fun e => (q.num == p.num && e.1 == fld (fF l 0) 27 16) || !e.2.v ||
        !(decide (e.2.base < d.base + n) && decide (d.base < e.2.base + e.2.limit))))) 0x16 x

def checkCgl (x : Section) : Except LErr Unit := do
  let l := fields x
  need (x.val.length == 8 * (4 + 2 * (fF l 3).toNat)) 0x08 x
  need (within (fF l 0) (fmask 55 32 ||| fmask 12 0) && within (fF l 1) (fmask 19 0) && within (fF l 2) (fmask 7 0) &&
    (List.range 4).all (fun p => decide (fld (fF l 2) (2 * p + 1) (2 * p) < 3)) &&
    (entriesGo 2 (fF l 3).toNat (l.drop 4)).all (fun e => within (fF e 0) (fmask 12 0) && within (fF e 1) (fmask 63 63 ||| fmask 52 0) && decide (1 ≤ fld (fF e 1) 52 48) &&
      decide (fld (fF e 1) 52 48 ≤ 24))) 0x0C x

/-- Registers of the SAFE block that the image may set (R470). -/
def safeSettable (off : Nat) : Bool :=
  off == 0 || off == 0x20 || (decide (0x28 ≤ off) && decide (off ≤ 0x2A)) || (decide (0x2C ≤ off) && decide (off ≤ 0x2E)) ||
  (decide (0x40 ≤ off) && decide (off ≤ 0x4F)) || (decide (0x100 ≤ off) && decide (off ≤ 0x1FF))
def checkSafe (x : Section) : Except LErr Unit := do
  let l := fields x
  need (x.val.length == 8 + 16 * (fF l 0).toNat) 0x08 x
  need ((entriesGo 2 (fF l 0).toNat (l.drop 1)).all (fun e => safeSettable (fF e 0).toNat)) 0x0C x

/-- The heater channels of HEAT: channel, phase, group. -/
def heatChans (l : List W64) : List (Nat × Nat × Nat) := (l.drop 1).map (fun v => (fld v 7 0, fld v 9 8, fld v 14 12))
def checkHeat (x : Section) (ps : List PartF) : Except LErr Unit := do
  let l := fields x
  need (x.val.length == 8 + 8 * fld (fF l 0) 24 16) 0x08 x
  need (within (fF l 0) (fmask 24 16 ||| fmask 7 4 ||| fmask 1 0) && fld (fF l 0) 5 4 != 3 && fld (fF l 0) 7 6 != 3 && fld (fF l 0) 1 0 != 3 &&
    (l.drop 1).all (fun v => within v (fmask 14 12 ||| fmask 9 0) && fld v 9 8 != 0) &&
    (heatChans l).all (fun e => (ownerOf ps 0x04 e.2.2).isSome) &&
    !anyPair (fun (a b : Nat × Nat × Nat) => a.1 == b.1) (heatChans l)) 0x0C x

/-- STOK against the channels the heater configuration lists. -/
def checkStok (x : Section) (chans : List Nat) : Except LErr Unit := do
  let l := fields x
  let nn := (fF l 11).toNat
  let es := entriesGo 3 chans.length (l.drop (12 + nn))
  need (decide (nn ≤ 64)) 0x0C x
  need (x.val.length == 8 * (12 + nn + 3 * chans.length)) 0x08 x
  need (within (fF l 0) (fmask 39 0) && decide (fld (fF l 0) 15 0 + 100 ≤ fld (fF l 0) 31 16) && within (fF l 1) (fmask 47 0) &&
    ((l.drop 12).take nn).all (fun v => within v (fmask 11 0)) &&
    es.all (fun e => within (fF e 0) (fmask 31 16 ||| fmask 8 0) && chans.contains (fld (fF e 0) 7 0)) &&
    !anyPair (fun (a b : List W64) => fld (fF a 0) 7 0 == fld (fF b 0) 7 0) es) 0x0C x

/-- The entries of SENS: ports, tables, channels. -/
def sensParts (l : List W64) : List W64 × List (List W64) × List (List W64) :=
  let np := fld (fF l 0) 3 0
  let nt := fld (fF l 0) 14 8
  let nc := fld (fF l 0) 25 16
  ((l.drop 1).take np, entriesGo 20 nt (l.drop (1 + np)), entriesGo 12 nc (l.drop (1 + np + 20 * nt)))
def checkSens (x : Section) (owned : Nat → Bool) : Except LErr Unit := do
  let l := fields x
  let np := fld (fF l 0) 3 0
  let nt := fld (fF l 0) 14 8
  let nc := fld (fF l 0) 25 16
  need (x.val.length == 8 * (1 + np + 20 * nt + 12 * nc)) 0x08 x
  let (ports, tabs, chans) := sensParts l
  need (within (fF l 0) (fmask 25 16 ||| fmask 14 8 ||| fmask 3 0) && decide (nt ≤ 64) && decide (nc ≤ 512) && decide (np ≤ 8) &&
    ports.all (fun v => within v (fmask 23 8 ||| fmask 2 0)) && tabs.all (fun e => within (fF e 0) (fmask 5 0)) &&
    chans.all (fun e =>
      let c0 := fF e 0
      owned (fld c0 8 0) && decide (8 ≤ fld c0 45 40) && decide (fld c0 45 40 ≤ 32) && decide (1 ≤ fld c0 56 51) && decide (fld c0 56 51 ≤ 32) &&
      decide (fld c0 23 17 ≤ 64) && within (fF e 2) (fmask 42 0) && within (fF e 10) (fmask 32 0)) &&
    !anyPair (fun (a b : List W64) => fld (fF a 0) 8 0 == fld (fF b 0) 8 0) chans) 0x0C x

def fioParts (l : List W64) : List (List W64) × List W64 × List W64 :=
  let np := fld (fF l 0) 5 0
  let ne := fld (fF l 0) 11 8
  let nh := fld (fF l 0) 20 16
  (entriesGo 2 np (l.drop 1), (l.drop (1 + 2 * np)).take ne, (l.drop (1 + 2 * np + ne)).take nh)
def checkFio (x : Section) (ps : List PartF) : Except LErr Unit := do
  let l := fields x
  need (x.val.length == 8 * (1 + 2 * fld (fF l 0) 5 0 + fld (fF l 0) 11 8 + fld (fF l 0) 20 16)) 0x08 x
  let (pw, en, hk) := fioParts l
  need (within (fF l 0) (fmask 48 32 ||| fmask 20 16 ||| fmask 11 8 ||| fmask 5 0) &&
    pw.all (fun e => within (fF e 0) (fmask 10 0) && (ownerOf ps 0x05 (fld (fF e 0) 4 0)).isSome) &&
    en.all (fun v => within v (fmask 15 8 ||| fmask 6 4 ||| fmask 2 0) && (ownerOf ps 0x06 (fld v 2 0)).isSome) &&
    hk.all (fun v => within v (fmask 43 16 ||| fmask 4 0) && (ownerOf ps 0x07 (fld v 3 0)).isSome)) 0x0C x
def checkPeri (x : Section) : Except LErr Unit := do
  let l := fields x
  need (x.val.length == 48) 0x08 x
  need (within (fF l 0) (fmask 31 0) && (l.drop 1).all (fun v => within v (fmask 47 0))) 0x0C x

/-- A LOAD section: its fields and its words. -/
def loadParts (x : Section) : List W64 × List Word := (fields x |>.take 3, wordsGo ((x.val.length - 24) / 9) (x.val.drop 24))
def checkLoad (x : Section) (ps : List PartF) (reserved : Tag → Bool) : Except LErr Unit := do
  let (l, ws) := loadParts x
  need (decide (24 ≤ x.val.length) && x.val.length == 24 + 9 * (fF l 2).toNat) 0x08 x
  need (within (fF l 0) (fmask 15 0) && ws.all (fun w => w.tag != Tag.fwd && !reserved w.tag)) 0x0C x
  match (partNo ps (fld (fF l 0) 3 0)).bind (fun p => p.desc (fld (fF l 0) 15 4)) with
  | none => .error { code := 0x0C, sec := x.idx }
  | some d => need (d.v && d.typ != segHEAP && d.typ != segBANK && d.typ != segIO && decide ((fF l 1).toNat + ws.length ≤ d.limit)) 0x0C x
/-- The physical range of a LOAD. -/
def loadRange (ps : List PartF) (x : Section) : Nat × Nat :=
  let (l, ws) := loadParts x
  match (partNo ps (fld (fF l 0) 3 0)).bind (fun p => p.desc (fld (fF l 0) 15 4)) with
  | some d => (d.base + (fF l 1).toNat, ws.length)
  | none => (0, 0)

/-- A test on every section of a list. -/
def each (l : List Section) (f : Section → Except LErr Unit) : Except LErr Unit :=
  l.foldl (fun r x => match r with | .error e => .error e | .ok () => f x) (.ok ())

/-- What the loader has parsed. -/
structure Parsed where
  secs  : List Section
  parts : List PartF
  ucode : Option UcodeF
  deriving DecidableEq, Repr

def parseParts : List Section → Except LErr (List PartF)
  | [] => .ok []
  | x :: t => match parsePart x with
    | .error e => .error e
    | .ok p => match parseParts t with | .error e => .error e | .ok ps => .ok (p :: ps)

/-- Step 5 of R442 for a boot image: every section, against every other. meldOk: the checks of R318 on a preloaded network image. -/
def checkBoot (o : List Octet) (meldOk : List W64 → List Word → Option Nat) : Except LErr Parsed := do
  let secs ← sections o
  each secs (fun x => need (knownTypes.contains x.typ || isNote x.typ) 0x0B x)
  ordered secs
  each (secs.drop 1) (fun x => need (x.typ != tPINS) 0x09 x)
  let chipX ← match find secs tCHIP with | some x => .ok x | none => .error { code := 0x0A }
  let parts ← parseParts (all secs tPART)
  if (partNo parts 0).isNone || ((find secs tHEAT).isSome && (find secs tSTOK).isNone) then .error { code := 0x0A } else .ok ()
  each (all secs tPINS) checkPins
  checkChip chipX
  let chip := fields chipX
  let loads := (all secs tLOAD).map loadParts
  parts.foldl (fun r p => match r with | .error e => .error e | .ok () => checkPart (fF chip 0) (fF chip 1) (fF chip 4).toNat loads p) (.ok ())
  let owns := parts.flatMap (fun p => p.owns.filter (fun w => w.cls != 0x25 && w.cls != 0x26))
  if anyPair overlap owns then .error { code := 0x0D } else .ok ()
  if anyPair grantsClash parts then .error { code := 0x0E } else .ok ()
  let safe := parts.filter (·.safety)
  need ((List.range 72).all (fun k => !bitAt (fF chip (19 + k / 64)) (k % 64) ||
    safe.all (fun p => if k < 64 then !p.owns_ 0x20 k else (List.range 8).all (fun j => !p.owns_ 0x20 (8 * (k - 64) + j))))) 0x10 chipX
  let uc ← match find secs tUCODE with
    | none => .ok none
    | some x => match parseUcode x with | .error e => .error e | .ok u => .ok (some u)
  let slotUsed := fun (n : Nat) => match uc with | none => false | some u => u.decs.any (fun e => e.1 == 0xD0 + n && bitAt e.2 31)
  each (all secs tTAGS) (fun x => checkTags x slotUsed)
  let tags := ((flds secs tTAGS).getD []).drop 1
  let slotOf := fun (t : Nat) => (tags.find? (fun v => fld v 7 0 == t && bitAt v 9)).map (fun v => fld v 15 10)
  match uc, find secs tUCODE with
    | some u, some x => need (u.words.all microOk && u.words.zipIdx.all (fun e => litTagOk slotOf u.decs u.words e.2 e.1) &&
        u.decs.all decOk && !anyPair (fun (a b : Nat × W64) => a.1 == b.1) u.decs) 0x12 x
    | _, _ => .ok ()
  each (all secs tCACH) checkCach
  each (all secs tHEAP) (fun x => checkHeap x parts (((all secs tHEAP).filter (fun y => y.idx != x.idx)).map fields))
  let heaps := (all secs tHEAP).map instOf
  if parts.any (fun p => p.descs.any (fun e => e.2.v && e.2.typ == segHEAP && !heaps.contains e.2.heapId)) then .error { code := 0x15 } else .ok ()
  each (all secs tQUE) (fun x => checkQue x (fun q => (ownerOf parts 0x24 q).isSome))
  each (all secs tMELD) (fun x => checkMeld x parts)
  each (all secs tMELD) (fun x =>
    let l := fields x
    if bitAt (fF l 0) 8 then
      (match meldOk l (wordsGo (fF l 23).toNat (x.val.drop 192)) with
       | none => .ok ()
       | some c => .error { code := 0x16, sec := x.idx, mcode := c })
    else .ok ())
  each (all secs tCGL) checkCgl
  each (all secs tSAFE) checkSafe
  each (all secs tHEAT) (fun x => checkHeat x parts)
  each (all secs tSTOK) (fun x => checkStok x (((flds secs tHEAT).map heatChans).getD [] |>.map (·.1)))
  each (all secs tSENS) (fun x => checkSens x (fun c => (ownerOf parts 0x03 c).isSome))
  each (all secs tFIO) (fun x => checkFio x parts)
  each (all secs tPERI) checkPeri
  let reserved := fun (t : Tag) =>
    (decide (0x1D ≤ t.toNat) && decide (t.toNat ≤ 0xBF)) || t == 0x06#8 || t == 0x07#8 || t == 0x11#8 || t == 0x15#8 || t == 0x16#8 || t == 0x17#8 ||
    (decide (0xC0 ≤ t.toNat) && !tags.any (fun v => fld v 7 0 == t.toNat))
  each (all secs tLOAD) (fun x => checkLoad x parts reserved)
  if anyPair (fun (a b : Nat × Nat) => decide (a.1 < b.1 + b.2) && decide (b.1 < a.1 + a.2)) ((all secs tLOAD).map (loadRange parts)) then
    .error { code := 0x0C } else .ok ()
  let pool := (parts.flatMap (·.owns)).foldl (fun n w => if w.cls = 0x26 then n + 4 * w.count else n) 0
  let tables := parts.foldl (fun n p => n + 2 * p.tsize) 0
  if dramCap (fF chip 5) < (fF chip 4).toNat + tables + pool + hTotal o / 8 then .error { code := 0x0F } else .ok ()
  pure { secs := secs, parts := parts, ucode := uc }

/-- The signature (R433): over every octet before the signature section. -/
def signed (o : List Octet) (key : List Octet) : Bool :=
  let n := hTotal o - 72
  numAt o n 2 == tSIGN && numAt o (n + 4) 4 == 64 && Config.ecdsaVerify key (Config.sha256 (o.take n)) (octAt o (n + 8) 64)

end Image

namespace State

/-- An IMGKEY slot is written and not revoked. -/
def keyUsable (s : State) (k : Nat) : Bool := !(Tab.get s.sec.otp.imgKey k []).isEmpty && !Tab.get s.sec.otp.imgRev k false

/-- Steps 1 to 4 of R442. -/
def checkFront (s : State) (o : List Octet) (tuning : Bool) : Except LErr Unit := do
  Image.checkHeader o tuning
  if o.length < Image.hTotal o then .error { code := 0x01 } else .ok ()
  if !s.keyUsable (Image.hKey o) then .error { code := 0x05 } else .ok ()
  if !Image.signed (o.take (Image.hTotal o)) (Tab.get s.sec.otp.imgKey (Image.hKey o) []) then .error { code := 0x06 } else .ok ()
  if Image.hSvn o < s.sec.otp.imgSvn then .error { code := 0x07 } else .ok ()

/-- Steps 1 to 6 of R442 on a boot image. -/
def checkImage (s : State) (o : List Octet) (meldOk : List W64 → List Word → Option Nat) : Except LErr Image.Parsed := do
  s.checkFront o false
  let p ← Image.checkBoot o meldOk
  match p.ucode with
  | none => .ok ()
  | some u =>
    if s.sec.otp.ucKey.isEmpty || !Config.ecdsaVerify s.sec.otp.ucKey (Config.sha256 u.body) u.sig then .error { code := 0x13 }
    else if u.svn < s.sec.otp.ucSvn then .error { code := 0x14 } else .ok ()
  pure p

end State

end Sys2Proof.Machine
end

