-- ==== Sys2Proof/Machine/Flags.lean ====
section
/-!
DEFINITION. The status registers' computations (spec 05 R107, R127–R129): the raw results of Table 5-4 with the flags N, Z,
C and V of Table 5-5, and the sticky bits of ASR and FSR.
-/
namespace Sys2Proof.Machine

open Sys2Proof

/-- The four raw flags (ASR bits 3:0). -/
structure RawFlags where
  n : Bool
  z : Bool
  c : Bool
  v : Bool
  deriving DecidableEq, Repr

/-- A result lies outside the range of 64-bit two's complement. -/
def outS (i : Int) : Bool := decide (i < -(2 ^ 63 : Int)) || decide ((2 ^ 63 : Int) ≤ i)

/-- N and Z from the result, with C and V of Table 5-5 (R129). -/
def rawFlags (r : W64) (c v : Bool) : RawFlags := { n := bitAt r 63, z := r == 0#64, c := c, v := v }

/-- ADDW, ADDWI (R128, Table 5-5). -/
def addwRes (a b : W64) : W64 × RawFlags :=
  let r := a + b
  (r, rawFlags r (decide (2 ^ 64 ≤ a.toNat + b.toNat)) (outS (a.toInt + b.toInt)))

/-- SUBW. -/
def subwRes (a b : W64) : W64 × RawFlags :=
  let r := a - b
  (r, rawFlags r (decide (a.toNat < b.toNat)) (outS (a.toInt - b.toInt)))

/-- MULW. -/
def mulwRes (a b : W64) : W64 × RawFlags :=
  let r := a * b
  (r, rawFlags r (decide (2 ^ 64 ≤ a.toNat * b.toNat)) (outS (a.toInt * b.toInt)))

/-- NEGW: NEGW of MIN returns MIN. -/
def negwRes (a : W64) : W64 × RawFlags :=
  let r := 0#64 - a
  (r, rawFlags r (a != 0#64) (a == 0x8000000000000000#64))

/-- DIVW of a nonzero divisor: truncated toward zero; MIN ÷ −1 returns MIN. -/
def divwRes (a b : W64) : W64 × RawFlags :=
  let r := w64 (a.toInt.tdiv b.toInt)
  (r, rawFlags r false (a == 0x8000000000000000#64 && b == 0xFFFFFFFFFFFFFFFF#64))

/-- MODW of a nonzero divisor: the sign of a; MIN mod −1 is 0. -/
def modwRes (a b : W64) : W64 × RawFlags :=
  let r := w64 (a.toInt.tmod b.toInt)
  (r, rawFlags r false false)

/-- SHLW, SHRW and SARW by bits 6:0 of the count (R128). -/
def shlwRes (a : W64) (cnt : W64) : W64 := a <<< (cnt.toNat % 128)
def shrwRes (a : W64) (cnt : W64) : W64 := a >>> (cnt.toNat % 128)
def sarwRes (a : W64) (cnt : W64) : W64 := a.sshiftRight (cnt.toNat % 128)
/-- ROLW by b mod 64. -/
def rolwRes (a b : W64) : W64 := a.rotateLeft (b.toNat % 64)
/-- CLZW: 64 for zero. -/
def clzwRes (a : W64) : W64 := if a = 0#64 then 64#64 else n64 (63 - Nat.log2 a.toNat)
/-- POPW. -/
def popwRes (a : W64) : W64 := n64 (popCount 64 a.toNat)

/-- ASR with N, Z, C and V replaced together (R107). -/
def asrWithFlags (asr : W64) (f : RawFlags) : W64 :=
  setFld asr 3 0 (f.n.toNat * 8 + f.z.toNat * 4 + f.c.toNat * 2 + f.v.toNat)

/-- ASR with the sticky QNX and PROM set where the result adds them (R107, R111, R119). -/
def asrSticky (asr : W64) (qnx prom : Bool) : W64 :=
  asr ||| putFld 9 9 qnx.toNat ||| putFld 8 8 prom.toNat

/-- FSR with the sticky flags of a FLO result set (R107, R123). -/
def fsrSticky (fsr : W64) (ff : BitVec 5) : W64 := fsr ||| ff.setWidth 64

end Sys2Proof.Machine
end

