-- ==== Sys2Proof/Machine/Security.lean ====
section
/-!
DEFINITION. The security block (spec 19 R471–R481): frames, openings by role key and by password, lockout, closing, and the commands of a
session. Octet orders and command bodies that the spec does not lay out are those of notes/assumptions/72.md.
-/
namespace Sys2Proof.Machine

open Sys2Proof

/-! REFUSE and REPLY codes (Table 19-4). -/
namespace SC
abbrev ok : Octet := 0x00#8
abbrev badmsg : Octet := 0x01#8
abbrev busy : Octet := 0x02#8
abbrev locked : Octet := 0x03#8
abbrev nocred : Octet := 0x04#8
abbrev auth : Octet := 0x05#8
abbrev role : Octet := 0x06#8
abbrev otp : Octet := 0x07#8
abbrev last : Octet := 0x08#8
abbrev loader : Octet := 0x09#8
end SC

/-- The octets of an ASCII string. -/
def ascii (x : String) : List Octet := x.toList.map (fun c => BitVec.ofNat 8 c.toNat)
def xorOct : List Octet → List Octet → List Octet
  | a :: s, b :: t => (a ^^^ b) :: xorOct s t
  | _, _ => []
/-- The keystream of R476: two blocks, for passwords of up to 64 octets. -/
def keystream (ke : List Octet) : List Octet := Config.hmac ke [0#8] ++ Config.hmac ke [1#8]

namespace State

def modSec (s : State) (f : SecSt → SecSt) : State := { s with sec := f s.sec }
def modSess (s : State) (f : SessSt → SessSt) : State := s.modSec (fun x => { x with sess := f x.sess })
def modOtp (s : State) (f : OtpSt → OtpSt) : State := s.modSec (fun x => { x with otp := f x.otp })
def inRecovery (s : State) : Bool := s.hs.dev == .recovery
def sessOpen (s : State) : Bool := s.sec.sess.phase == .opened
/-- Octets of the random source (R475). -/
def randomOctets (s : State) (n : Nat) : List Octet × State :=
  let (k, s) := s.nextFree
  ((List.range n).map (fun i => (Config.random k).getD i 0#8), s)

/-! Frames (R474). -/

def fType (f : List Octet) : Nat := numAt f 1 1
def fLen (f : List Octet) : Nat := numAt f 4 4
def fSeq (f : List Octet) : Nat := numAt f 8 8
def fBody (f : List Octet) : List Octet := octAt f 16 (fLen f)
def fMac (f : List Octet) : List Octet := f.drop (16 + fLen f)
/-- The MAC of a frame under a key. -/
def macOf (ks f : List Octet) : List Octet := (Config.hmac ks (f.take 16 ++ fBody f)).take 16
/-- A frame is well formed; mac: whether it carries one. -/
def fOk (f : List Octet) (mac : Bool) : Bool :=
  decide (16 ≤ f.length) && numAt f 0 1 == 1 && numAt f 2 2 == 0 && decide (fLen f ≤ 1048576) && decide (1 ≤ fType f) && decide (fType f ≤ 8) &&
    f.length == 16 + fLen f + (if mac then 16 else 0)

/-- A frame sent: TYPE, body; with SEQ and MAC once the session is open. -/
def sendFrame (s : State) (typ : Nat) (body : List Octet) (secured : Bool) : State :=
  let x := s.sec.sess
  let seq := if secured then x.seqOut else 0
  let head := [1#8, BitVec.ofNat 8 typ, 0#8, 0#8] ++ octetsOf 4 (n64 body.length) ++ octetsOf 8 (n64 seq)
  let f := head ++ body
  let f := if secured then f ++ (Config.hmac x.ks f).take 16 else f
  let s := s.modSec (fun y => { y with sout := y.sout ++ f })
  if secured then s.modSess (fun y => { y with seqOut := y.seqOut + 1 }) else s

def refuse (s : State) (code : Octet) : State := s.sendFrame 0x05 [code] false
def reply (s : State) (code : Octet) (data : List Octet := []) : State := s.sendFrame 0x07 (code :: data) s.sessOpen

/-- SIN and SINEND (R483): the writes carry 8 octets each. -/
def sinWrite (s : State) (v : W64) : State := s.modSec (fun x => { x with sin := x.sin ++ octetsOf 8 v })
def sinEnd (s : State) (v : W64) : State :=
  let n := fld v 20 0
  let l := s.sec.sin
  s.modSec (fun x => { x with sin := [], frames := x.frames ++ [(l.take n, (n + 7) / 8 * 8 == l.length)] })
/-- SOUT: the next 8 octets; and the length that is left. -/
def soutRead (s : State) (peek : Bool) : W64 × State :=
  (payOf (s.sec.sout.take 8), if peek then s else s.modSec (fun x => { x with sout := x.sout.drop 8 }))

/-- The frame the block reads next: what the carrier of the recovery service brings, or the oldest frame that SIN has ended. -/
def nextIn (s : State) (carried : List Octet) : Option (List Octet × Bool) :=
  if s.inRecovery then some (carried, true) else s.sec.frames.head?
/-- It has been read. -/
def consume (s : State) : State := if s.inRecovery then s else s.modSec (fun x => { x with frames := x.frames.tail })

/-- The session closes; after a FLASH the chip then resets (R478, R481). -/
def closeSession (s : State) : State :=
  let f := s.sec.sess.flashed
  let s := s.sessClose
  if f then s.chipReset 7 else s

/-- A frame of a type for which a row stands: malformed frames are answered BADMSG; in an open session MAC and SEQ come first (HELLO
apart). The continuation gets the body. -/
def takeFrame (s : State) (carried : List Octet) (mine : List Octet → Bool) (secured : Bool) (k : State → List Octet → State) : State :=
  if !s.railUp then s
  else match s.nextIn carried with
  | none => s
  | some (f, lenOk) =>
    if !lenOk || !fOk f secured then
      (if mine f || !fOk f (!secured) then (s.consume).refuse SC.badmsg else s)
    else if !mine f then s
    else
      let s := s.consume
      if secured then
        (if fMac f != macOf s.sec.sess.ks f || fSeq f != s.sec.sess.seqIn then s.closeSession
         else k (s.modSess (fun x => { x with seqIn := x.seqIn + 1, last := s.now })) (fBody f))
      else k s (fBody f)

/-! Opening (R475–R477). -/

def rtc (s : State) : Nat := (s.ioR Reg.HRTH_RTC).toNat
def lockedOut (s : State) (r : Nat) : Bool := decide (s.rtc < Tab.get s.sec.nexts r 0)
def roleKey (s : State) (r : Nat) : List Octet := if Tab.get s.sec.otp.rkeyRev r false then [] else Tab.get s.sec.otp.rkey r []
def pwdRec (s : State) (r : Nat) : PwdRec := Tab.get s.sec.pwds r {}
def hasCred (s : State) (r method : Nat) : Bool := if method = 0 then !(s.roleKey r).isEmpty else (s.pwdRec r).iter != 0

/-- An AUTH refusal (R477). -/
def authFail (s : State) (r : Nat) : State :=
  let f := min 255 (Tab.get s.sec.fails r 0 + 1)
  let nx := if 5 ≤ f then s.rtc + 32768 * min (2 ^ (f - 5)) 3600 else Tab.get s.sec.nexts r 0
  let s := s.modSec (fun x => { x with fails := Tab.set x.fails r f 0, nexts := Tab.set x.nexts r nx 0, sess := {} })
  s.refuse SC.auth

/-- HELLO of a method (R475, R476). -/
def hello (s : State) (method : Nat) (carried : List Octet) : State :=
  s.takeFrame carried (fun f => fType f == 1 && numAt f 17 1 == method) false (fun s b =>
    let r := numAt b 0 1
    if b.length != (if method = 0 then 18 else 82) || 3 < r then s.refuse SC.badmsg
    else if s.sessOpen then s.refuse SC.busy
    else if s.lockedOut r then s.refuse SC.locked
    else if !s.hasCred r method then s.refuse SC.nocred
    else
      let (nd, s) := s.randomOctets 16
      let (dp, s) := s.randomOctets 32
      let qd := if method = 0 then [] else Config.ecdhPublic dp
      let s := s.modSess (fun _ => { phase := .challenged, role := r, method := method, nh := octAt b 2 16, nd := nd, qh := b.drop 18,
                                     dpriv := if method = 0 then [] else dp, qd := qd, at_ := s.now })
      s.sendFrame 0x02 (nd ++ Config.devId ++ qd) false)

/-- The session opens with its keys. -/
def openSession (s : State) (ks ke : List Octet) : State :=
  let x := s.sec.sess
  let s := s.modSec (fun y => { y with fails := Tab.set y.fails x.role 0 0 })
  let s := s.sendFrame 0x04 (Config.hmac ks (ascii "KS8840-DEV" ++ x.nh)) false
  let s := s.modSess (fun y => { y with phase := .opened, ks := ks, ke := ke, seqIn := 1, seqOut := 1, last := s.now, usb := s.inRecovery })
  let v := s.ioR Reg.SEC_SECSTAT
  let v := setFld (setFld (setFld (setFld v 4 4 x.method) 3 2 x.role) 6 6 s.inRecovery.toNat) 0 0 1
  s.ioW Reg.SEC_SECSTAT (setFld v 7 7 1)

/-- RESPONSE by role key. -/
def roleResponse (s : State) (carried : List Octet) : State :=
  s.takeFrame carried (fun f => fType f == 3 && s.sec.sess.phase == .challenged && s.sec.sess.method == 0) false (fun s b =>
    let x := s.sec.sess
    let k := s.roleKey x.role
    if s.lockedOut x.role then (s.modSess (fun _ => {})).refuse SC.locked
    else if k.isEmpty then (s.modSess (fun _ => {})).refuse SC.nocred
    else if x.at_ + 10000000000 < s.now then s.authFail x.role
    else if b != Config.hmac k (ascii "KS8840-AUTH" ++ Config.devId ++ [BitVec.ofNat 8 x.role] ++ x.nd ++ x.nh) then s.authFail x.role
    else s.openSession (Config.hmac k (ascii "KS8840-SESS" ++ x.nd ++ x.nh)) (Config.hmac k (ascii "KS8840-ENC" ++ x.nd ++ x.nh)))

/-- RESPONSE by password. -/
def pwdResponse (s : State) (carried : List Octet) : State :=
  let mine := fun (f : List Octet) => fType f == 3 && s.sec.sess.phase == .challenged && s.sec.sess.method == 1
  if !s.railUp then s
  else match s.nextIn carried with
  | none => s
  | some (f, lenOk) =>
    if !mine f then s
    else
      let s := s.consume
      let x := s.sec.sess
      let z := Config.ecdhShared x.dpriv x.qh
      let kx := Config.hmac z (ascii "KS8840-PWD" ++ x.qh ++ x.qd ++ x.nd ++ x.nh)
      let ks := Config.hmac kx (ascii "SESS")
      let ke := Config.hmac kx (ascii "ENC")
      let b := fBody f
      if !lenOk || !fOk f true || b.isEmpty || 64 < b.length then s.refuse SC.badmsg
      else if s.lockedOut x.role then (s.modSess (fun _ => {})).refuse SC.locked
      else if (s.pwdRec x.role).iter = 0 then (s.modSess (fun _ => {})).refuse SC.nocred
      else
        let r := s.pwdRec x.role
        if x.at_ + 10000000000 < s.now || fMac f != macOf ks f || Config.pbkdf2 (xorOct b (keystream ke)) r.salt r.iter != r.result then s.authFail x.role
        else s.openSession ks ke

/-- A CLOSE frame; the timeout of 600 s; and SCTL.CLOSE (R478). -/
def closeFrame (s : State) (carried : List Octet) : State :=
  if !s.sessOpen then s else s.takeFrame carried (fun f => fType f == 8) true (fun s _ => s.closeSession)
def sessTimeout (s : State) : State :=
  if s.sessOpen && s.railUp then (s.advanceTo (s.sec.sess.last + 600000000000)).closeSession else s
def sctlClose (s : State) (v : W64) : State := if bitAt v 0 then s.closeSession else s

/-! Commands (R479–R481). -/

/-- A COMMAND frame of a code in an open session; the continuation gets the rest of the body. allowed: whether the role may issue it. -/
def command (s : State) (code : Nat) (carried : List Octet) (allowed : Nat → Bool) (k : State → List Octet → State) : State :=
  if !s.sessOpen then s
  else s.takeFrame carried (fun f => fType f == 6 && numAt f 16 1 == code) true (fun s b =>
    let rec_ := ([0x01, 0x11, 0x18, 0x30, 0x32, 0x20] : List Nat).contains code
    if (s.inRecovery && !rec_) || (!s.inRecovery && code == 0x18) || !allowed s.sec.sess.role then s.reply SC.role else k s (b.drop 1))

/-- OTPSTAT as it reads (spec 19). -/
def otpstatRead (s : State) : W64 :=
  let o := s.sec.otp
  let two := fun (n : Nat) (w r : Nat → Bool) => (List.range n).foldl (fun m k => m + (w k).toNat * 2 ^ (2 * k) + (r k).toNat * 2 ^ (2 * k + 1)) 0
  putFld 49 49 o.jtagOff.toNat ||| putFld 48 48 o.provLock.toNat ||| putFld 47 40 o.ucSvn ||| putFld 39 32 o.imgSvn |||
    putFld 16 16 (!o.ucKey.isEmpty).toNat |||
    putFld 15 8 (two 4 (fun k => !(Tab.get o.rkey k []).isEmpty) (fun k => Tab.get o.rkeyRev k false)) |||
    putFld 7 0 (two 4 (fun k => !(Tab.get o.imgKey k []).isEmpty) (fun k => Tab.get o.imgRev k false))
/-- LOCKFr as it reads. -/
def lockfRead (s : State) (r : Nat) : W64 := putFld 63 56 (Tab.get s.sec.fails r 0) ||| putFld 55 0 (Tab.get s.sec.nexts r 0)

def cmdStatus (s : State) (carried : List Octet) : State :=
  s.command 0x01 carried (fun _ => true) (fun s _ =>
    let o := fun v => octetsOf 8 v
    s.reply SC.ok (o (s.ioR Reg.SYS_IDREV) ++ o (s.ioR Reg.HRTH_HBOOT) ++ o (s.ioR Reg.HRTH_HRSTC) ++ o (s.ioR Reg.SEC_SECSTAT) ++ o s.otpstatRead))
def cmdReadlog (s : State) (carried : List Octet) : State :=
  s.command 0x02 carried (fun _ => true) (fun s _ =>
    let t := forN 1024 (fun i s => s.logScrub (0xF100000000 + i)) s
    t.reply SC.ok ((List.range 1024).flatMap (fun i => octetsOf 8 (s.peekWord (0xF100000000 + i)).1.pay)))
def cmdPreset (s : State) (carried : List Octet) : State :=
  s.command 0x12 carried (fun r => decide (r ≤ 2)) (fun s b =>
    let p := numAt b 0 1
    if b.length != 1 || p = 0 || 15 < p || !(s.part p).defined then s.reply SC.badmsg
    else if (s.part p).safety && s.sec.sess.role == 2 then s.reply SC.role
    else (s.requestReset p 7 0).reply SC.ok)
def cmdSetpwd (s : State) (carried : List Octet) : State :=
  s.command 0x20 carried (fun r => decide (r ≤ 2)) (fun s b =>
    let r := numAt b 0 1
    let iter := numAt b 1 4
    let pw := xorOct (b.drop 5) (keystream s.sec.sess.ke)
    let me := s.sec.sess.role
    if b.length < 6 || 69 < b.length || 3 < r || iter < 1000 || 100000 < iter then s.reply SC.badmsg
    else if !(me == 0 || (me == 1 && decide (2 ≤ r)) || (me == 2 && r == 2)) then s.reply SC.role
    else
      let (salt, s) := s.randomOctets 16
      (s.modSec (fun x => { x with pwds := Tab.set x.pwds r { salt := salt, iter := iter, result := Config.pbkdf2 pw salt iter } {} })).reply SC.ok)
def cmdUnlock (s : State) (carried : List Octet) : State :=
  s.command 0x21 carried (fun r => r == 0) (fun s b =>
    let r := numAt b 0 1
    if b.length != 1 || 3 < r || r = 0 then s.reply SC.badmsg else (s.modSec (fun x => { x with fails := Tab.set x.fails r 0 0 })).reply SC.ok)

/-- The OTP key fields are numbered 0–3 IMGKEY, 4 UCKEY, 5–8 the role keys of OWNER, FACTORY, TECH, VIEW. -/
def otpKey (s : State) (f : Nat) : List Octet :=
  if f < 4 then Tab.get s.sec.otp.imgKey f [] else if f = 4 then s.sec.otp.ucKey else Tab.get s.sec.otp.rkey (f - 5) []
def otpSet (s : State) (f : Nat) (k : List Octet) : State :=
  s.modOtp (fun o => if f < 4 then { o with imgKey := Tab.set o.imgKey f k [] } else if f = 4 then { o with ucKey := k }
    else { o with rkey := Tab.set o.rkey (f - 5) k [] })
def cmdOtpwrite (s : State) (carried : List Octet) : State :=
  s.command 0x30 carried (fun r => r == 0 || (r == 1 && !s.sec.otp.provLock)) (fun s b =>
    let f := numAt b 0 1
    let k := b.drop 1
    if 8 < f || k.length != (if f ≤ 4 then 64 else 32) then s.reply SC.badmsg
    else if !(s.otpKey f).isEmpty || (f = 4 && s.sec.otp.provLock) then s.reply SC.otp
    else (s.otpSet f k).reply SC.ok)
def cmdRevoke (s : State) (carried : List Octet) : State :=
  s.command 0x31 carried (fun r => r == 0) (fun s b =>
    let f := numAt b 0 1
    if b.length != 1 || 8 < f || f = 4 || f = 5 then s.reply SC.badmsg
    else if (s.otpKey f).isEmpty || (if f < 4 then Tab.get s.sec.otp.imgRev f false else Tab.get s.sec.otp.rkeyRev (f - 5) false) then s.reply SC.otp
    else if f < 4 && !((List.range 4).any (fun k => k != f && s.keyUsable k)) then s.reply SC.last
    else (s.modOtp (fun o => if f < 4 then { o with imgRev := Tab.set o.imgRev f true false }
      else { o with rkeyRev := Tab.set o.rkeyRev (f - 5) true false })).reply SC.ok)
def cmdProvlock (s : State) (carried : List Octet) : State :=
  s.command 0x32 carried (fun r => decide (r ≤ 1)) (fun s _ => (s.modOtp (fun o => { o with provLock := true })).reply SC.ok)
def cmdDebug (s : State) (carried : List Octet) : State :=
  s.command 0x38 carried (fun r => decide (r ≤ 2)) (fun s _ => (s.setB Reg.SEC_SECSTAT 5).reply SC.ok)
def cmdJtagoff (s : State) (carried : List Octet) : State :=
  s.command 0x39 carried (fun r => r == 0) (fun s _ => (s.modOtp (fun o => { o with jtagOff := true })).reply SC.ok)

/-- PROVISION: unauthenticated, in the recovery service (R481). -/
def cmdProvision (s : State) (carried : List Octet) : State :=
  if !s.inRecovery || s.sec.sess.phase != .closed then s
  else s.takeFrame carried (fun f => fType f == 6 && numAt f 16 1 == 0x3F) false (fun s b =>
    if b.length != 33 then s.reply SC.badmsg
    else if !(Tab.get s.sec.otp.rkey 1 []).isEmpty then s.reply SC.otp
    else (s.otpSet 6 (b.drop 1)).reply SC.ok)

/-- An answer that carries a loader code: two octets. -/
def loaderReply (s : State) (e : LErr) : State := s.reply SC.loader (octetsOf 2 (n64 e.code))

/-- VERIFY and FLASH: the checks of steps 1 to 6 (R442). -/
def cmdVerify (s : State) (meldOk : List W64 → List Word → Option Nat) (carried : List Octet) : State :=
  s.command 0x11 carried (fun r => decide (r ≤ 2)) (fun s b =>
    match s.checkImage b meldOk with
    | .error e => s.loaderReply e
    | .ok _ => s.reply SC.ok)
def cmdFlash (s : State) (meldOk : List W64 → List Word → Option Nat) (carried : List Octet) : State :=
  s.command 0x18 carried (fun r => decide (r ≤ 1)) (fun s b =>
    let slot := numAt b 0 1
    let img := b.drop 1
    if 1 < slot then s.reply SC.badmsg
    else match s.checkImage img meldOk with
    | .error e => s.loaderReply e
    | .ok _ => (({ s with flash := Tab.set s.flash slot img [] } : State).modSess (fun x => { x with flashed := true })).reply SC.ok)

/-- The checks on a tuning image (R447, R448, R450). -/
def checkTuning (s : State) (o : List Octet) : Except LErr (List Section) := do
  if !s.sec.tune.isEmpty || s.parts.any (fun e => e.2.resetReq || e.2.resetting) then .error { code := 0x1A } else .ok ()
  s.checkFront o true
  if Image.hBase o != s.sec.digest.take 8 then .error { code := 0x19 } else .ok ()
  let secs ← Image.sections o
  Image.ordered secs
  if secs.any (fun x => x.typ != Image.tQUE && x.typ != Image.tSENS && x.typ != Image.tSTOK && !Image.isNote x.typ) then .error { code := 0x19 } else .ok ()
  let chans := (List.range 256).filter (fun c => s.chPhase c != 0)
  Image.each secs (fun x =>
    if x.typ = Image.tQUE then Image.checkQue x (fun q => (s.queueOwner q).isSome)
    else if x.typ = Image.tSENS then Image.checkSens x (fun c => (s.owner .sense c).isSome)
    else if x.typ = Image.tSTOK then Image.checkStok x chans
    else .ok ())
  pure secs
def cmdTune (s : State) (carried : List Octet) : State :=
  s.command 0x10 carried (fun r => r == 1 || r == 2) (fun s b =>
    match s.checkTuning b with
    | .error e => s.loaderReply e
    | .ok secs =>
      let pick := fun (t : Nat) => (Image.all secs t).map (fun x => (t, Image.fields x))
      (s.modSec (fun x => { x with tune := pick Image.tQUE ++ pick Image.tSENS ++ pick Image.tSTOK })).reply SC.ok [0#8, 0#8])

/-- The thermometers rise after the release of an image with RBADV (R445). -/
def rollbackAdvance (s : State) : State :=
  match s.sec.advance with
  | none => s
  | some (a, b) => (s.modOtp (fun o => { o with imgSvn := max o.imgSvn a, ucSvn := max o.ucSvn b })).modSec (fun x => { x with advance := none })

/-- INTC source 362 (R483). -/
def secSource (s : State) : Bool := !s.sec.sout.isEmpty || s.rb Reg.SEC_SECSTAT 7

end State

end Sys2Proof.Machine
end

