-- ==== Sys2Proof/Machine/MeldLoad.lean ====
section
/-!
DEFINITION. Network images (spec 12 R317, R318): the checks of Table 12-7 in their order, and the loading of a network into its slot, at cold
boot, by LOAD, and after a reset of its partition (R335, R339).
-/
namespace Sys2Proof.Machine

open Sys2Proof

/-- A network image that has passed its checks. -/
structure NetImg where
  rels   : List W64
  nodes  : List (W64 × W64 × W64 × W64)
  consts : List Word
  nrule  : Nat
  deriving DecidableEq, Repr

/-- NONE (R317). -/
abbrev mNone : Nat := 0x1FFFFF

/-- Node words by quadruples. -/
def quads : Nat → List W64 → List (W64 × W64 × W64 × W64)
  | 0, _ => []
  | n + 1, l => (l.getD 0 0#64, l.getD 1 0#64, l.getD 2 0#64, l.getD 3 0#64) :: quads n (l.drop 4)

def nKind (q : W64 × W64 × W64 × W64) : Nat := fld q.1 63 60
def nChild (q : W64 × W64 × W64 × W64) : Nat := fld q.1 52 32
def nSib (q : W64 × W64 × W64 × W64) : Nat := fld q.1 20 0
def nRsucc (q : W64 × W64 × W64 × W64) : Nat := fld q.2.1 20 0
def nFirst (q : W64 × W64 × W64 × W64) : Bool := bitAt q.2.2.1 63
def nAmem (q : W64 × W64 × W64 × W64) : Nat := fld q.2.2.1 20 0
def nRnext (q : W64 × W64 × W64 × W64) : Nat := fld q.2.2.2 20 0
/-- Join test k of a JOIN or NOT (Table 12-5): OP, TPOS, TFIELD, FFIELD. -/
def nTest (q : W64 × W64 × W64 × W64) (k : Nat) : Nat × Nat × Nat × Nat :=
  let t := if k = 0 then fld q.2.1 31 16 else fld q.2.1 15 0
  (t / 4096, t / 256 % 8, t / 16 % 8, t % 8)

/-- Relation word r: NF and ENTRY. -/
def relNf (w : W64) : Nat := fld w 63 60
def relEntry (w : W64) : Nat := fld w 20 0

/-- The KIND checks of a node (code 0x05). -/
def nodeKindOk (nconst nrule : Nat) (q : W64 × W64 × W64 × W64) : Bool :=
  let (w0, w1, w2, w3) := q
  let z := fun (v m : W64) => (v &&& ~~~m) == 0#64
  let k := fld w0 63 60
  let testOk := fun (t : Nat) => decide (t / 4096 ≤ 8) && t / 2048 % 2 == 0 && t / 128 % 2 == 0 && t / 8 % 2 == 0
  z w0 (fmask 63 60 ||| fmask 52 32 ||| fmask 20 0 ||| (if k = 7 then fmask 56 56 else 0#64)) &&
  (match k with
   | 1 => z w1 (fmask 63 60 ||| fmask 58 56 ||| fmask 15 0) && w2 == 0#64 && w3 == 0#64 && decide (fld w1 63 60 ≤ 8) && decide (fld w1 15 0 < nconst)
   | 2 => z w1 (fmask 63 60 ||| fmask 58 56 ||| fmask 54 52) && w2 == 0#64 && w3 == 0#64 && decide (fld w1 63 60 ≤ 8)
   | 3 => z w1 (fmask 20 0) && w2 == 0#64 && w3 == 0#64
   | 4 => z w1 (fmask 31 0) && testOk (fld w1 31 16) && testOk (fld w1 15 0) && z w2 (fmask 63 63 ||| fmask 20 0) && z w3 (fmask 20 0)
   | 5 => z w1 (fmask 31 0) && testOk (fld w1 31 16) && testOk (fld w1 15 0) && z w2 (fmask 20 0) && z w3 (fmask 20 0)
   | 6 => w1 == 0#64 && w2 == 0#64 && w3 == 0#64
   | 7 => z w1 (fmask 51 32 ||| fmask 15 8 ||| fmask 3 0) && w2 == 0#64 && w3 == 0#64 && decide (fld w1 51 32 < nrule)
   | _ => false)

section
variable (nodes : List (W64 × W64 × W64 × W64))

def nodeAt (i : Nat) : W64 × W64 × W64 × W64 := nodes.getD i (0#64, 0#64, 0#64, 0#64)
/-- The nodes of a chain from its head; k bounds its length. -/
def chainOf (next : W64 × W64 × W64 × W64 → Nat) : Nat → Nat → List Nat
  | 0, _ => []
  | k + 1, i => if i < nodes.length then i :: chainOf next k (next (nodeAt nodes i)) else []
def sibChain (i : Nat) : List Nat := chainOf nodes nSib nodes.length i
def rChain (i : Nat) : List Nat := chainOf nodes nRnext nodes.length i

/-- An index is NONE or names a node; after: it must also lie beyond node i. -/
def linkOk (i j : Nat) : Bool := j == mNone || (decide (j < nodes.length) && decide (i < j))

/-- Node i's own links are in range and forward. -/
def ownLinks (i : Nat) : Bool :=
  let q := nodeAt nodes i
  let k := nKind q
  linkOk nodes i (nChild q) && linkOk nodes i (nSib q) && (k != 3 || linkOk nodes i (nRsucc q)) &&
    (!(k == 4 || k == 5) || (linkOk nodes i (nRnext q) && decide (nAmem q < nodes.length)))

/-- The kinds the CHILD chain of a kind may hold (Table 12-4). -/
def childKinds : Nat → List Nat
  | 1 => [1, 2, 3] | 2 => [1, 2, 3] | 4 => [6, 7] | 5 => [6, 7] | 6 => [4, 5, 7] | _ => []

/-- In how many of some chains a node lies. -/
def inChains (cs : List (List Nat)) (i : Nat) : Nat := (cs.filter (fun c => c.contains i)).length

/-- The membership rules of code 0x06 for node i, given the ENTRY, CHILD and RSUCC chains. -/
def memberOk (entry child : List (List Nat)) (rs : List (Nat × List Nat)) (i : Nat) : Bool :=
  let q := nodeAt nodes i
  let e := inChains entry i
  let c := inChains child i
  let r := (rs.filter (fun x => x.2.contains i)).length
  match nKind q with
  | 1 => e + c == 1 && r == 0
  | 2 => e + c == 1 && r == 0
  | 3 => e + c == 1 && r == 0
  | 6 => e + c == 1 && r == 0
  | 7 => e == 0 && c == 1 && r == 0
  | _ => e == 0 && r == 1 && c == (if nKind q == 4 && nFirst q then 0 else 1) &&
      rs.any (fun x => x.1 == nAmem q && x.2.contains i)

/-- The count of facts in the token that reaches each node, plus one (0: none does), and the first node that breaks code 0x07. -/
def depths : Nat → Nat → Tab Nat → Option Nat
  | 0, _, _ => none
  | k + 1, i, t =>
    let q := nodeAt nodes i
    let kd := nKind q
    let got := if kd = 4 && nFirst q then 1 else Tab.get t i 0
    if got = 0 then depths k (i + 1) t
    else
      let c := got - 1
      let bad := (kd = 4 || kd = 5) && ((List.range 2).any (fun j => let (op, tpos, _) := nTest q j; op != 0 && decide (c ≤ tpos)) || (kd = 4 && decide (8 ≤ c)))
      if bad then some i
      else
        let out := if kd = 4 then c + 1 else c
        let t := if kd = 4 || kd = 5 || kd = 6 then (sibChain nodes (nChild q)).foldl (fun t j => Tab.set t j (out + 1) 0) t else t
        depths k (i + 1) t
end

/-- The header checks (codes 0x02 and 0x03): NNODES, NREL, NCONST, NRULE, or the code and the word index. -/
def netHeader (ncap : Nat) (h : List W64) : Except (Nat × Nat) (Nat × Nat × Nat × Nat) :=
  let z := fun (j : Nat) (m : W64) => (h.getD j 0#64 &&& ~~~m) == 0#64
  let w := fun (j : Nat) => h.getD j 0#64
  if fld (w 0) 63 32 != 0x4D454C44 || fld (w 0) 31 16 != 1 || !z 0 (fmask 63 16) then .error (0x02, 0)
  else match findN 7 (fun j => !z (j + 1) (([fmask 20 0, fmask 12 0, fmask 16 0, fmask 20 0] : List W64).getD j 0#64)) with
    | some j => .error (0x02, j + 1)
    | none =>
      let nn := (w 1).toNat
      let nr := (w 2).toNat
      let nc := (w 3).toNat
      let nu := (w 4).toNat
      if nn = 0 || ncap < nn then .error (0x03, 1)
      else if nr = 0 || 4096 < nr then .error (0x03, 2)
      else if 65536 < nc then .error (0x03, 3)
      else if nu = 0 || 1048576 < nu then .error (0x03, 4)
      else .ok (nn, nr, nc, nu)

/-- The checks after the sizes (codes 0x04 to 0x07) on the whole image. -/
def netBody (malformed : Word → Bool) (ws : List Word) (nn nr nc nu : Nat) : Except (Nat × Nat) NetImg :=
  let fixed := 8 + nr + 4 * nn
  match findN fixed (fun j => (ws.getD j Word.void).tag != Tag.raww) with
  | some j => .error (0x04, j)
  | none =>
    match findN nc (fun j => let w := ws.getD (fixed + j) Word.void; isStructural w.tag || malformed w) with
    | some j => .error (0x04, fixed + j)
    | none =>
      let rels := (((ws.drop 8).take nr).map (·.pay))
      let nodes := quads nn (((ws.drop (8 + nr)).take (4 * nn)).map (·.pay))
      match findN nr (fun r => let w := rels.getD r 0#64; !((w &&& ~~~(fmask 63 60 ||| fmask 20 0)) == 0#64 && decide (1 ≤ relNf w) && decide (relNf w ≤ 8))) with
      | some r => .error (0x05, 8 + r)
      | none =>
        match findN nn (fun i => !nodeKindOk nc nu (nodeAt nodes i)) with
        | some i => .error (0x05, i)
        | none =>
          match findN nr (fun r => let e := relEntry (rels.getD r 0#64); !(e == mNone || decide (e < nn))) with
          | some r => .error (0x06, 8 + r)
          | none =>
            match findN nn (fun i => !ownLinks nodes i) with
            | some i => .error (0x06, i)
            | none =>
              let entry := rels.map (fun w => sibChain nodes (relEntry w))
              let heads := (List.range nn).map (fun i => (nKind (nodeAt nodes i), sibChain nodes (nChild (nodeAt nodes i))))
              let child := heads.map (·.2)
              let rs := ((List.range nn).filter (fun i => nKind (nodeAt nodes i) == 3)).map (fun i => (i, rChain nodes (nRsucc (nodeAt nodes i))))
              let badIn := fun (ks l : List Nat) => l.find? (fun j => !ks.contains (nKind (nodeAt nodes j)))
              let wrong := (entry.filterMap (badIn [1, 2, 3])) ++ (heads.filterMap (fun e => badIn (childKinds e.1) e.2)) ++ (rs.filterMap (fun e => badIn [4, 5] e.2))
              match wrong with
              | i :: _ => .error (0x06, i)
              | [] =>
                match findN nn (fun i => !memberOk nodes entry child rs i) with
                | some i => .error (0x06, i)
                | none =>
                  match depths nodes nn 0 [] with
                  | some i => .error (0x07, i)
                  | none => .ok { rels := rels, nodes := nodes, consts := (ws.drop fixed).take nc, nrule := nu }

/-- All the checks on an image given as words. -/
def netCheck (ncap : Nat) (malformed : Word → Bool) (ws : List Word) : Except (Nat × Nat) NetImg :=
  if ws.length < 8 then .error (0x01, ws.length)
  else match netHeader ncap ((ws.take 8).map (·.pay)) with
    | .error e => .error e
    | .ok (nn, nr, nc, nu) =>
      if ws.length < 8 + nr + 4 * nn + nc then .error (0x01, ws.length) else netBody malformed ws nn nr nc nu

namespace State

/-- A network stands in its slot: READY, every memory empty. -/
def netInstall (s : State) (n : Nat) (g : NetImg) : State :=
  let s := s.modNet n (fun x => { x with
    rels := g.rels, consts := g.consts, nrule := g.nrule, amem := [], outs := [], rcd := none, undo := none, tests := 0, after := 0
    nodes := (List.range g.nodes.length).map (fun i => (i, g.nodes.getD i (0#64, 0#64, 0#64, 0#64)))
    facts := x.facts.map (fun e => (e.1, ({ e.2 with freedAt := 0, used := false } : MFact))), toks := x.toks.map (fun e => (e.1, ({ e.2 with freedAt := 0, used := false } : MTok))) })
  ((s.wf (Reg.MLD_NSTAT n) 47 16 0).ioW (Reg.MLD_NUSE n) 0#64).setNState n nReady

/-- A load fails (R318). -/
def netFail (s : State) (n : Nat) (e : Nat × Nat) : State :=
  ((s.wf (Reg.MLD_NSTAT n) 23 16 e.1).wf (Reg.MLD_NSTAT n) 47 24 e.2).setNState n nEmpty

/-- A network given as words is checked and loaded. -/
def netLoad (s : State) (n : Nat) (ws : List Word) : State :=
  match netCheck (s.rf (Reg.MLD_NGEOM0 n) 20 0) s.malformed ws with
  | .error e => s.netFail n e
  | .ok g => s.netInstall n g

/-- One word of an image at an offset of a segment of the owner: with its supervisor rights, region state and load barrier (R248, R263). -/
def netWord (s : State) (n sel off : Nat) : Option (Word × State) :=
  let p := s.nOwner n
  match s.engCheck p sel off .read true with
  | .error _ => none
  | .ok (pa, _) =>
    if isIo pa || !s.regionOk pa then none
    else match s.settleTransit pa with
      | none => none
      | some s =>
        let (w, u, s) := s.engRead 1 pa
        if u then none
        else match s.loadBarrier (.eng 5) p w (some pa) true false with
          | (.word w, s) => some (w, s)
          | (.uncorr _, _) => none

/-- k words from an offset: the words, or the index of the first that cannot be read. -/
def netWords (s : State) (n sel : Nat) : Nat → Nat → Nat → Except Nat (List Word × State)
  | 0, _, _ => .ok ([], s)
  | k + 1, off, i =>
    match s.netWord n sel off with
    | none => .error i
    | some (w, s') =>
      match netWords s' n sel k (off + 1) (i + 1) with
      | .error j => .error j
      | .ok (ws, s'') => .ok (w :: ws, s'')

/-- LOADING ends (R316, R318); the reload of a preloaded network after a reset of its partition (R339). -/
def meldLoadComplete (s : State) (n : Nat) : State :=
  if s.nState n == nLoading then
    let r := s.ioR (Reg.MLD_NSRC n)
    let sel := fld r 63 52
    let off := fld r 47 0
    match s.netWords n sel 8 off 0 with
    | .error i => s.netFail n (0x01, i)
    | .ok (h, s) =>
      match netHeader (s.rf (Reg.MLD_NGEOM0 n) 20 0) (h.map (·.pay)) with
      | .error e => s.netFail n e
      | .ok (nn, nr, nc, nu) =>
        match s.netWords n sel (nr + 4 * nn + nc) (off + 8) 8 with
        | .error i => s.netFail n (0x01, i)
        | .ok (b, s) =>
          match netBody s.malformed (h ++ b) nn nr nc nu with
          | .error e => s.netFail n e
          | .ok g => s.netInstall n g
  else
    match (s.net n).reloadAt with
    | some t =>
      if s.nState n == nEmpty then
        let s := (s.advanceTo t).modNet n (fun x => { x with reloadAt := none })
        s.netLoad n (s.net n).preImage
      else s
    | none => s

/-- The check of a preloaded network in an Avset image (R318), with the customer tags as they stand: a code, or none. -/
def preNetCode (s : State) (l : List W64) (ws : List Word) : Option Nat :=
  match netCheck (fF l 1).toNat s.malformed ws with
  | .error e => some e.1
  | .ok _ => none

end State

end Sys2Proof.Machine
end

