-- ==== Sys2Proof/Machine/Boot.lean ====
section
/-!
DEFINITION. The cold boot (spec 16 R425–R427, spec 17 R436, R442): each section of an accepted image applied in TYPE order; tuning images
(R448); and the reset and the release of a partition (R424).
-/
namespace Sys2Proof.Machine

open Sys2Proof

namespace State

/-- The image gives a register its value, which is also the value a reset returns it to. -/
def imgW (s : State) (pa : Nat) (v : W64) : State := ({ s with img := Tab.set s.img pa v (regReset pa) } : State).ioW pa v
/-- A field of a register given by the image. -/
def imgF (s : State) (pa hi lo v : Nat) : State := s.imgW pa (setFld (Tab.get s.img pa (regReset pa)) hi lo v)

/-! Sections (Table 17-6). -/

def applyPins (s : State) (l : List W64) : State :=
  (l.drop 1).foldl (fun s v => (s.imgF (Reg.GPIO_GPCFG (fld v 7 0)) 1 0 (fld v 9 8)).imgF (Reg.GPIO_GPCFG (fld v 7 0)) 9 8 (fld v 11 10)) s

/-- The thresholds of Table 16-2 for monitor m, as SMLIM holds them; nom: the nominal voltages of the VIO banks. -/
def smDefault (m : Nat) (nom : W64) : W64 :=
  let f := fun (w r h : Nat) => putFld 47 32 w ||| putFld 31 16 r ||| putFld 15 0 h
  match m with
  | 0 => f 40 70 15
  | 1 => f 1050 1000 15
  | 2 => f 850 820 10
  | 3 => f 1130 1090 15
  | k =>
    let mv := match fld nom (3 * (k - 4) + 2) (3 * (k - 4)) with | 0 => 1800 | 1 => 2500 | _ => 3300
    f (mv * 92 / 100) (mv * 88 / 100) (mv * 2 / 100)

/-- CHIP (Table 17-4). -/
def applyChip (s : State) (l : List W64) : State :=
  let s := forN 64 (fun c s => s.crSetF c CRN.cst 9 9 (bitAt (fF l 0) (c / 8)).toNat) s
  let s := (s.imgW Reg.DMPR_DCORE (fF l 1)).imgW Reg.DMPR_DIO (fF l 2)
  let s := (s.imgF Reg.CLK_OPP 1 0 (fld (fF l 3) 1 0)).imgF Reg.PMB_PMBCREG 6 0 (fld (fF l 3) 14 8)
  let nch := 2 ^ fld (fF l 5) 9 8
  let s := forN 4 (fun n s => if n < nch then (s.imgW (Reg.MEMC_MCFG n) (fF l 5 ||| 1#64)).imgW (Reg.MEMC_SCRUB n) (fF l 6)
                              else s.imgW (Reg.MEMC_MCFG n) (fF l 5)) s
  let s := s.imgW Reg.CLK_TGCFG (fF l 7)
  let s := forN 10 (fun m s => s.imgW (Reg.HRTH_SMLIM m) (if fF l (8 + m) = 0#64 then smDefault m (fF l 18) else fF l (8 + m))) s
  forN 5 (fun i s => s.imgW (Reg.DMPR_DSHED i) (fF l (19 + i))) s

/-- The resource of an ownership class (Tables 1-4, 17-5). -/
def resOf (cls : Nat) : Option Res :=
  match cls with
  | 0x01 => some .dmaCh | 0x03 => some .sense | 0x04 => some .group | 0x05 => some .pwm | 0x06 => some .encoder | 0x07 => some .hka
  | 0x08 => some .eth | 0x09 => some .can | 0x0A => some .uart | 0x0B => some .i2c | 0x0C => some .gpio | 0x0D => some .source
  | 0x21 => some .spad | 0x22 => some .usb | 0x23 => some .xspi | _ => none

/-- One ownership entry of partition p, whose table has n descriptors (R438). -/
def applyOwn (s : State) (p n : Nat) (o : Image.Own) : State :=
  match resOf o.cls with
  | some r => forN o.count (fun i s =>
      let s := s.setOwner r (o.first + i) p
      if o.cls = 0x0D then s.imgF (Reg.INTC_SCFG (o.first + i)) 51 48 p else s) s
  | none =>
    match o.cls with
    | 0x20 => forN o.count (fun i s =>
        s.imgW (Reg.CORE_CINFO (o.first + i)) (regReset (Reg.CORE_CINFO (o.first + i)) ||| putFld 28 16 n ||| putFld 15 12 p ||| putFld 11 11 1)) s
    | 0x24 => ((s.imgF (Reg.DLR_QRANGE p) 63 63 1).imgF (Reg.DLR_QRANGE p) 32 16 o.count).imgF (Reg.DLR_QRANGE p) 15 0 o.first
    | 0x25 => s.imgF (Reg.DLR_QRANGE p) 62 42 o.count
    | 0x26 => s.imgF (Reg.DLR_QPOOL p) 31 0 o.count
    | 0x27 => s.imgW (Reg.CGL_XRANGE p) (putFld 63 63 1 ||| putFld 62 62 o.wr.toNat ||| putFld 48 24 o.count ||| putFld 23 0 o.first)
    | _ => s

/-- A word the loader writes to memory, which is coherent when a partition is released; the log records are Hearth's (R428). -/
def loadWord (s : State) (pa : Nat) (w : Word) : State :=
  if isLog pa && pa < 0xF100000400 then s else s.putAt 0 pa (Ecc.encode w)

/-- PART: the partition, its segment table at an address of the reserved area (R439), and what it owns. -/
def applyPart (s : State) (base : Nat) (p : Image.PartF) : State :=
  let x : PartSt := { defined := true, safety := p.safety, tsize := p.tsize, segBase := base, repLim := p.repLim, bankWin := p.bankwin,
                      grants := p.grants, entrySel := ptrSel p.entry, entryOff := ptrOff p.entry, resumeSel := ptrSel p.resume,
                      resumeOff := ptrOff p.resume, bootCore := p.bootCore }
  let s := s.modPart p.num (fun _ => x)
  let s := forN p.tsize (fun k s =>
    let d := (p.desc k).getD ⟨0#64, 0#64⟩
    (s.loadWord (base + 2 * k) ⟨Tag.raww, d.w0⟩).loadWord (base + 2 * k + 1) ⟨Tag.raww, d.w1⟩) s
  p.owns.foldl (fun s o => s.applyOwn p.num p.tsize o) s
def applyParts (s : State) : Nat → List Image.PartF → State
  | _, [] => s
  | base, p :: t => applyParts (s.applyPart base p) (base + 2 * p.tsize) t

def applyTags (s : State) (l : List W64) : State :=
  (l.drop 1).foldl (fun s v =>
    let t : CTag := { declared := true, pointer := bitAt v 8, micro := bitAt v 9, slot := fld v 15 10, userMake := bitAt v 16 }
    { s with ctags := Tab.set s.ctags (fld v 7 0) t {} }) s

/-- UCODE: the same content in the WCS of every cluster (R443); the digest of R206. -/
def applyUcode (s : State) (u : Image.UcodeF) : State :=
  let s : State := { s with wcs := ((List.range u.words.length).map (fun i => (0x2000 + i, u.words.getD i 0#128))).filter (fun e => e.2 != 0#128) }
  let dig := Config.sha256 (u.body ++ u.sig)
  forN 8 (fun k s =>
    let s := s.imgW (Reg.MCS_MCSID k) (putFld 47 32 u.uver ||| putFld 16 16 1 ||| putFld 13 0 u.words.length)
    let s := forN 4 (fun i s => s.imgW (Reg.MCS_DIGEST k i) (payOf (octAt dig (8 * i) 8).reverse)) s
    u.decs.foldl (fun s e => s.imgW (Reg.MCS_DEC k e.1) e.2) s) s

/-- CACH; absent: every cache on and every part powered. Current fields take the requested values. -/
def applyCach (s : State) (l : Option (List W64)) : State :=
  let g := fun (n : Nat) (dflt : W64) => match l with | some l => fF l n | none => dflt
  let s := forN 8 (fun k s =>
    let v := g k (putFld 11 8 15 ||| 1#64)
    s.imgW (Reg.L2C_L2CTL k) (v ||| putFld 15 12 (fld v 11 8) ||| putFld 19 18 (fld v 17 16))) s
  let s := forN 64 (fun c s => s.imgW (Reg.L2C_L1CTL (c / 8) (c % 8)) (g (8 + c) 3#64)) s
  forN 32 (fun sl s =>
    let q := g 72 (putFld 3 1 7)
    let s := s.imgW (Reg.L3C_L3CTL sl) (q ||| 1#64 ||| putFld 7 4 (2 * fld q 3 1 + 1))
    forN 5 (fun k s => s.imgW (Reg.L3C_WMASK sl k) (g (73 + k) 0#64 ||| putFld 31 16 (16 * fld (g (73 + k) 0#64) 15 4))) s) s

def applyHeap (s : State) (parts : List Image.PartF) (l : List W64) : State :=
  let h := fld (fF l 0) 3 0
  let p := fld (fF l 0) 7 4
  let sel := fld (fF l 0) 19 8
  let d := ((Image.partNo parts p).bind (fun q => q.desc sel)).getD ⟨0#64, 0#64⟩
  let n := d.limit / 131072
  let s := s.imgW (Reg.SWP_HGEOM h) (putFld 63 52 sel ||| putFld 51 48 p ||| putFld 47 47 1 ||| putFld 46 29 n ||| putFld 22 0 (d.base / 131072))
  let s := s.imgW (Reg.SWP_HCFG h) (fF l 1 ||| putFld 11 8 (fld (fF l 1) 7 4) ||| putFld 3 2 (fld (fF l 1) 1 0))
  let s := ((s.imgW (Reg.SWP_HTRIG h) (fF l 2)).imgW (Reg.SWP_FINQ h) (fF l 3)).imgF (Reg.SWP_FINSTAT h) 47 32 (fld (fF l 4) 15 0)
  let s := s.imgF (Reg.SWP_HSTAT h) 63 46 n
  let s := forN 64 (fun c s => if bitAt (fF l 5) c then (s.imgF (Reg.SWP_AREA c) 60 60 1).imgF (Reg.SWP_AREA c) 59 56 h else s) s
  s.modHeap h (fun x => { x with roots := (l.drop 7).map (fun v => v.toNat) })

/-- QUE: every preset is LIVE (R443); the partition of a number is the one whose range holds it. -/
def applyQue (s : State) (l : List W64) : State :=
  (entriesGo 2 (fF l 0).toNat (l.drop 1)).foldl (fun s e =>
    let q := (fF e 0).toNat
    let c := (fF e 1).toNat
    match s.queueOwner q with
    | none => s
    | some p => (s.modPart p (fun x => { x with presets := x.presets ++ [(q, c)] })).createQueue p q c) s

def applyMeld (s : State) (x : Section) : State :=
  let l := Image.fields x
  let n := fld (fF l 0) 2 0
  let p := fld (fF l 0) 7 4
  let pre := bitAt (fF l 0) 8
  let s := s.imgW (Reg.MLD_NGEOM0 n) (putFld 63 63 1 ||| putFld 62 62 pre.toNat ||| putFld 61 58 p ||| putFld 57 46 (fld (fF l 0) 27 16) |||
    putFld 45 21 (fF l 2).toNat ||| putFld 20 0 (fF l 1).toNat)
  let s := s.imgW (Reg.MLD_NGEOM1 n) (putFld 49 25 (fF l 3).toNat ||| putFld 24 0 (fF l 4).toNat)
  let s := (s.imgW (Reg.MLD_NIQ n) (fF l 5)).imgW (Reg.MLD_NCQ n) (fF l 6)
  let s := forN 16 (fun k s => s.imgW (Reg.MLD_NAGD (16 * n + k)) (fF l (7 + k))) s
  let s := s.setOwner .meldNet n p
  let ws := if pre then wordsGo (fF l 23).toNat (x.val.drop 192) else []
  let s := (s.modNet n (fun m => { m with viewBase := (s.tableDesc p (fld (fF l 0) 27 16)).base, preImage := ws })).viewInit n
  if pre then s.netLoad n ws else s

def applyCgl (s : State) (l : List W64) : State :=
  let s := (s.imgW Reg.CGL_NODECFG (fF l 0)).imgW Reg.CGL_CCTL (fF l 1)
  let s := forN 4 (fun p s => s.imgF (Reg.CGLP_PCFG p) 1 0 (fld (fF l 2) (2 * p + 1) (2 * p))) s
  (entriesGo 2 (fF l 3).toNat (l.drop 4)).foldl (fun s e =>
    s.modCg (fun x => { x with routes := Tab.set x.routes (2 * fld (fF e 0) 11 0 + fld (fF e 0) 12 12) (fF e 1) 0#64 })) s

/-- One register of SAFE, by the rule of its writes; SLOCK is set after the others. -/
def applySafeReg (s : State) (off : Nat) (v : W64) : State :=
  let pa := 0xFF00E00000 + off
  let s := if 0x100 ≤ off then s.fcfgWrite (off - 0x100) v
    else if off = 0x20 then s.swdcfgWrite v
    else if 0x40 ≤ off then s.ioW pa (v &&& (putFld 63 63 1 ||| putFld 62 62 1 ||| fmask 23 0))
    else if off = 0 then s.slockWrite v
    else s.ioW pa (v &&& fmask 31 0)
  s.imgW pa (s.ioR pa)
def applySafe (s : State) (l : List W64) : State :=
  let es := entriesGo 2 (fF l 0).toNat (l.drop 1)
  let s := (es.filter (fun e => fF e 0 != 0#64)).foldl (fun s e => s.applySafeReg (fF e 0).toNat (fF e 1)) s
  (es.filter (fun e => fF e 0 == 0#64)).foldl (fun s e => s.applySafeReg 0 (fF e 1)) s
/-- The groups of a partition join the default masks of its inputs (Table 18-1). -/
def safeDefaults (s : State) : State :=
  forN 32 (fun j s => s.imgF (Reg.SAFE_FCFG (112 + j)) 31 24 (s.groupsOf (j % 16))) s

def applyHeat (s : State) (l : List W64) : State :=
  let s := (s.imgF Reg.STK_SCTL 41 40 (fld (fF l 0) 1 0)).imgF (Reg.STK_ZCCFG 1) 1 0 (fld (fF l 0) 5 4)
  let s := s.imgF (Reg.STK_ZCCFG 2) 1 0 (fld (fF l 0) 7 6)
  (Image.heatChans l).foldl (fun s e =>
    (s.imgF (Reg.STK_CHCFG e.1) 41 40 e.2.1).imgF (Reg.STK_CHCFG e.1) 46 44 e.2.2) s

/-- STOK, with the number of heater channels that its entries follow. A channel that a tuning image does not list is not enabled. -/
def applyStok (s : State) (l : List W64) (nch : Nat) : State :=
  let s := ((s.imgF Reg.STK_SCTL 15 0 (fld (fF l 0) 15 0)).imgF Reg.STK_SCTL 31 16 (fld (fF l 0) 31 16)).imgF Reg.STK_SCTL 39 32 (fld (fF l 0) 39 32)
  let s := forN 3 (fun i s => ((s.imgF (Reg.STK_ZCCFG i) 31 16 (fld (fF l 1) (16 * i + 15) (16 * i))).imgW (Reg.STK_FLOOR i) (fF l (2 + i))) |>.imgW
    (Reg.STK_MCAP i) (fF l (5 + i)) |>.imgW (Reg.STK_MFLOOR i) (fF l (8 + i))) s
  let nn := (fF l 11).toNat
  let s := forN 64 (fun k s => s.imgW (Reg.STK_MNODE k) (if k < nn then putFld 12 12 1 ||| putFld 11 0 (fF l (12 + k)).toNat else 0#64)) s
  let s := s.wf Reg.STK_MSTAT 38 32 nn
  let s := forN 256 (fun c s => if s.chPhase c != 0 then
      ((s.imgF (Reg.STK_CHCFG c) 31 16 0).imgF (Reg.STK_CHCFG c) 8 8 0).imgW (Reg.STK_PRATED c) 0#64 |>.imgW (Reg.STK_IRATED c) 0#64 else s) s
  (entriesGo 3 nch (l.drop (12 + nn))).foldl (fun s e =>
    let v := fF e 0
    let c := fld v 7 0
    (((s.imgF (Reg.STK_CHCFG c) 8 8 (fld v 8 8)).imgF (Reg.STK_CHCFG c) 23 16 (fld v 23 16)).imgF (Reg.STK_CHCFG c) 31 24 (fld v 31 24)) |>.imgW
      (Reg.STK_PRATED c) (fF e 1) |>.imgW (Reg.STK_IRATED c) (fF e 2)) s

/-- The registers of Sense channel ch that its image entry gives (Table 17-7). -/
def applySensChan (s : State) (e : List W64) : State :=
  let ch := fld (fF e 0) 8 0
  let s := (s.imgW (Reg.SNS_CFRAME ch) (fF e 0)).imgW (Reg.SNS_CCMD ch) (putFld 31 0 (fld (fF e 1) 31 0))
  let s := s.imgW (Reg.SNS_CFAULT ch) (putFld 63 32 (fld (fF e 1) 63 32) ||| putFld 31 0 (fld (fF e 2) 31 0))
  let s := s.imgW (Reg.SNS_CPLAUS ch) (putFld 7 0 (fld (fF e 2) 39 32))
  let s := forN 6 (fun j s => s.imgW (Reg.SNS_SCALE ch + j) (fF e (3 + j))) s
  let s := s.imgW (Reg.SNS_CRING ch) (fF e 9)
  (s.imgW (Reg.SNS_CMQ ch) (fF e 10 ||| putFld 42 40 (fld (fF e 2) 42 40))).imgW (Reg.SNS_CFACT ch) (fF e 11)

/-- SENS replaces the whole configuration: a channel that it does not list is undefined. CSTAT, CVAL and CTIME stay; a CRING that it gives
is a write for R388; the counts of R387 restart (R448). -/
def applySens (s : State) (l : List W64) : State :=
  let (ports, tabs, chans) := Image.sensParts l
  let s := forN 8 (fun p s => s.imgW (Reg.SNS_SPCFG p) 0#64) s
  let s := ports.foldl (fun s v => s.imgW (Reg.SNS_SPCFG (fld v 2 0)) (v &&& fmask 23 8)) s
  let s := tabs.foldl (fun s e => forN 19 (fun j s => s.imgW (Reg.SNS_STAB (32 * fld (fF e 0) 5 0 + j)) (fF e (1 + j))) s) s
  let listed := chans.map (fun e => fld (fF e 0) 8 0)
  let s := forN 512 (fun ch s => if listed.contains ch then s else
    if s.ioR (Reg.SNS_CFRAME ch) = n64 ch then s else forN 13 (fun j s => s.imgW (Reg.SNS_CFRAME ch + j) (regReset (Reg.SNS_CFRAME ch + j))) s) s
  let s := chans.foldl (fun s e => s.applySensChan e) s
  listed.foldl (fun s ch => s.modSense ch (fun x => { x with fails := 0, lastR := none, same := 0, ringOff := false })) s

def applyFio (s : State) (l : List W64) : State :=
  let (pw, en, hk) := Image.fioParts l
  let s := pw.foldl (fun s e =>
    let v := fF e 0
    let k := fld v 4 0
    let s := s.imgW (Reg.PWM_PWCFG k) (putFld 0 0 (fld v 5 5) ||| putFld 1 1 (fld v 6 6) ||| putFld 2 2 (fld v 7 7) ||| putFld 6 4 (fld v 10 8))
    ((s.imgW (Reg.PWM_PWPER k) (putFld 31 0 (fld (fF e 1) 31 0))).imgW (Reg.PWM_PWDUTY k) (putFld 31 0 (fld (fF e 1) 63 32))).pwmPeriod k) s
  let s := en.foldl (fun s v => s.imgW (Reg.PWM_ENCCFG (fld v 2 0)) (putFld 1 0 (fld v 5 4) ||| putFld 2 2 (fld v 6 6) ||| putFld 15 8 (fld v 15 8))) s
  let s := s.imgW Reg.HKA_HCTL (putFld 15 0 (fld (fF l 0) 47 32) ||| putFld 16 16 (fld (fF l 0) 48 48))
  hk.foldl (fun s v => s.imgW (Reg.HKA_HLIM (fld v 3 0)) (v &&& (fmask 43 32 ||| fmask 27 16 ||| fmask 4 4))) s

def applyPeri (s : State) (l : List W64) : State :=
  let s := (s.imgW Reg.USB_USBID (fF l 0)).imgW Reg.USB_USBMAC (fF l 1)
  forN 4 (fun n s => s.imgW (Reg.ETH_MACADDR n) (fF l (2 + n))) s

def applyLoad (s : State) (parts : List Image.PartF) (x : Section) : State :=
  let (_, ws) := Image.loadParts x
  let base := (Image.loadRange parts x).1
  forN ws.length (fun i s => s.loadWord (base + i) (ws.getD i Word.void)) s

/-- Step 7 of R442: the sections in TYPE order. -/
def applyImage (s : State) (g : Image.Parsed) : State :=
  let on := fun (t : Nat) (f : State → List W64 → State) (s : State) => match Image.flds g.secs t with | some l => f s l | none => s
  let chip := (Image.flds g.secs Image.tCHIP).getD []
  let s := on Image.tPINS applyPins s
  let s := s.applyChip chip
  let s := (s.applyParts (fF chip 4).toNat g.parts).safeDefaults
  let s := on Image.tTAGS applyTags s
  let s := match g.ucode with | some u => s.applyUcode u | none => s
  let s := s.applyCach (Image.flds g.secs Image.tCACH)
  let s := (Image.all g.secs Image.tHEAP).foldl (fun s x => s.applyHeap g.parts (Image.fields x)) s
  let s := on Image.tQUE applyQue s
  let melds := Image.all g.secs Image.tMELD
  let s := if melds.isEmpty then s else (s.imgF Reg.MLD_MLANES 4 0 16).wf Reg.MLD_MLANES 12 8 16
  let s := melds.foldl (fun s x => s.applyMeld x) s
  let s := on Image.tCGL applyCgl s
  let s := on Image.tSAFE applySafe s
  let s := on Image.tHEAT applyHeat s
  let nch := match Image.flds g.secs Image.tHEAT with | some l => (Image.heatChans l).length | none => 0
  let s := on Image.tSTOK (fun s l => s.applyStok l nch) s
  let s := on Image.tSENS applySens s
  let s := on Image.tFIO applyFio s
  let s := on Image.tPERI applyPeri s
  (Image.all g.secs Image.tLOAD).foldl (fun s x => s.applyLoad g.parts x) s

/-! The release (step 8 of R442; R424, R437). -/

/-- The cores of a partition whose DCORE bits are set start at its entry. -/
def releasePart (s : State) (p : Nat) : State :=
  (s.coresOf p).foldl (fun s c => if s.dcore c then s.startCore c else s) s

/-- The device runs: the domains that the image asks for are powered and every partition is released. -/
def bootRelease (s : State) : State :=
  let s := s.modHs (fun h => { h with dev := .run })
  let s := forN 8 (fun k s => if s.shellNeeded k then s.setDstat (64 + k) true else s) s
  let s := ([263, 264, 265, 266, 267, 268, 272] : List Nat).foldl (fun s k => if s.dioOn k then s.setDstat k true else s) s
  let s := forN 16 (fun p s => s.releasePart p) s
  s.swdRestart.oppKick

/-! Cold boot. -/

/-- A failed slot (R442): HBOOT.ERR and the log. -/
def slotFailed (s : State) (slot : Nat) (e : LErr) : State :=
  (s.wf Reg.HRTH_HBOOT 63 48 e.code).logRecord 0x09 (e.code + e.sec % 65536 * 2 ^ 16 + slot * 2 ^ 32 + e.mcode * 2 ^ 40)

/-- The octets of a slot, where the flash gives them. -/
def slotOctets (s : State) (slot : Nat) : SlotRead → Option (List Octet)
  | .fails => none
  | .held => some (Tab.get s.flash slot [])
  | .gives o => some o

/-- Steps 1 to 6 of R442 on a slot; training: DDR5 initialises and trains. -/
def slotCheck (s : State) (slot : Nat) (r : SlotRead) (training : Bool) : Except LErr (List Octet × Image.Parsed) :=
  match s.slotOctets slot r with
  | none => .error { code := 0x01 }
  | some o =>
    match s.checkFront o false with
    | .error e => .error e
    | .ok () =>
      if !training then .error { code := 0x17 }
      else match s.checkImage o s.preNetCode with
        | .error e => .error e
        | .ok g => .ok (o, g)

/-- An accepted image is applied and its partitions are released. -/
def bootImage (s : State) (slot : Nat) (o : List Octet) (g : Image.Parsed) : State :=
  let s := s.applyImage g
  let s := ((s.wf Reg.HRTH_HBOOT 8 8 slot).wf Reg.HRTH_HBOOT 16 16 0).wf Reg.HRTH_HBOOT 32 32 0
  let usvn := match g.ucode with | some u => u.svn | none => 0
  let s := s.modSec (fun x => { x with digest := Config.sha256 (o.take (Image.hTotal o - 72))
                                       advance := if Image.hRbadv o then some (Image.hSvn o, usvn) else none })
  ((s.wf Reg.HRTH_HSTATE 0 0 0).bootRelease)

/-- COLD_BOOT (R425, R426): the rails rise (R408), then the slot of HBOOT.PREF, then the other; then the recovery service. a, b: what the flash device answers for slots
A and B. -/
def coldBoot (s : State) (a b : SlotRead) (training : Bool) : State :=
  if s.hs.dev != .boot || s.hs.resetN || s.jtagHolds then s
  else
    let pref := s.rf Reg.HRTH_HBOOT 0 0
    let rd := fun (k : Nat) => if k = 0 then a else b
    match s.slotCheck pref (rd pref) training with
    | .ok (o, g) => s.railsUp.bootImage pref o g
    | .error e =>
      let s := s.railsUp.slotFailed pref e
      match s.slotCheck (1 - pref) (rd (1 - pref)) training with
      | .ok (o, g) => s.bootImage (1 - pref) o g
      | .error e =>
        let s := ((s.slotFailed (1 - pref) e).wf Reg.HRTH_HBOOT 16 16 1).modHs (fun h => { h with dev := .recovery })
        s.wf Reg.SEC_SECSTAT 6 6 1

/-! Tuning images (R448–R450). -/

/-- A preset list of a tuning image replaces the partitions' presets; a number that is FREE is created as QNEW would create it. -/
def tuneQue (s : State) (l : List W64) : State :=
  let s := forN 16 (fun p s => if (s.part p).defined then s.modPart p (fun x => { x with presets := [] }) else s) s
  (entriesGo 2 (fF l 0).toNat (l.drop 1)).foldl (fun s e =>
    let q := (fF e 0).toNat
    let c := (fF e 1).toNat
    match s.queueOwner q with
    | none => s
    | some p =>
      let s := s.modPart p (fun x => { x with presets := x.presets ++ [(q, c)] })
      match s.qnew p (some q) c with
      | .ok (_, s) => s
      | .error _ => s) s

/-- TUNING_APPLY: the next section of the accepted image is applied, in the order QUE, SENS, STOK. -/
def tuneStep (s : State) : State :=
  if !s.railUp then s
  else match s.sec.tune with
  | [] => s
  | (t, l) :: rest =>
    let s := s.modSec (fun x => { x with tune := rest })
    if t = Image.tQUE then s.tuneQue l
    else if t = Image.tSENS then s.applySens l
    else s.applyStok l ((List.range 256).filter (fun c => s.chPhase c != 0)).length

/-! Reset of a partition (R424). -/

/-- HCFG takes the requested mode and budget. -/
def applyModes (s : State) (h : Nat) : State :=
  let v := s.ioR (Reg.SWP_HCFG h)
  (s.wf (Reg.SWP_HCFG h) 11 8 (fld v 7 4)).wf (Reg.SWP_HCFG h) 3 2 (fld v 1 0)

/-- Sweep's part (R277): a cycle of the partition's heap segments ends; every region becomes FREE. -/
def sweepReset (s : State) (p : Nat) : State :=
  let s := forN 16 (fun h s =>
    let g := s.ioR (Reg.SWP_HGEOM h)
    if bitAt g 47 && fld g 51 48 == p then
      let s := if s.sweep.heap == some h then
          ({ s with sweep := {} } : State).ioW Reg.SWP_SWSTAT 0#64 else s
      let s := ((s.wf (Reg.SWP_HSTAT h) 3 0 0).wf (Reg.SWP_HSTAT h) 63 46 (fld g 46 29)).wf (Reg.SWP_FINSTAT h) 63 48 0
      (s.modHeap h (fun x => { roots := x.roots, holds := x.holds })).applyModes h
    else s) s
  (s.coresOf p).foldl (fun s c =>
    (s.wf (Reg.SWP_AREA c) 63 63 0).modCore c (fun x => { x with snapBuf := [], hshake := none, evacHold := false, paceNs := 0, paceStop := false })) s

/-- PARTITION_RESET: each unit applies its own rule (R424 step 2); records go out by R17. -/
def partitionReset (s : State) (p : Nat) : State :=
  let x := s.part p
  if !s.railUp || !x.resetReq then s
  else
    let s := s.modPart p (fun x => { x with resetReq := false, resetting := true })
    let s := (s.dealerReset p).dmaReset p
    let s := ((s.meldReset p).corgilReset p).intcReset p
    let s := ((s.stokerReset p).periphReset p).sweepReset p
    let s := (s.coresOf p).foldl (fun s c => s.dbgReset c) s
    let s := s.wf (Reg.SAFE_TWCFG p) 63 63 0
    let s := (s.satAdd Reg.HRTH_HRSTC 47 32 1).wf Reg.HRTH_HRSTC 23 20 p
    s.logRecord 0x02 p

/-- PARTITION_RELEASE: 2 ms after the request, once the presets and the preloaded networks stand again (R424 step 3). -/
def partitionRelease (s : State) (p : Nat) : State :=
  let x := s.part p
  if !s.railUp || !x.resetting then s
  else
    let waitsNet := (List.range 8).any (fun n => s.nDefined n && s.nOwner n == p && (s.net n).reloadAt.isSome)
    if x.presetAt.isSome || waitsNet then s
    else
      let s := (s.advanceTo (x.resetAt + 2000000)).modPart p (fun x => { x with resetting := false })
      (s.coresOf p).foldl (fun s c =>
        if s.dcore c && s.dstatBit (64 + c / 8) then s.startCore c
        else if s.corePowered c then s.coreReset c .off else s) s

end State

end Sys2Proof.Machine
end

