-- ==== Sys2Proof/Machine/Sweep.lean ====
section
/-!
DEFINITION. The Sweep collector (spec 10): requests and phases of a cycle, allocation areas, marking, handshakes, the steps of REF,
selection, evacuation, healing, the pacer, and the registers of a heap segment.
-/
namespace Sys2Proof.Machine

open Sys2Proof

namespace State

def modSweep (s : State) (f : SweepSt → SweepSt) : State := { s with sweep := f s.sweep }

/-- MODECUR and PHCUR of a heap segment (0 Throughput, 1 Paced, 2 Idle-only). -/
def heapMode (s : State) (h : Nat) : Nat := s.rf (Reg.SWP_HCFG h) 3 2
def heapDefined (s : State) (h : Nat) : Bool := s.rb (Reg.SWP_HGEOM h) 47

/-! Requests and allocation (R249, R250, R252). -/

/-- A request of a cycle: no effect while one runs or is pending. -/
def requestCycle (s : State) (h : Nat) : State :=
  if s.heapPhase h != 0 || s.rb (Reg.SWP_HSTAT h) 3 then s else s.setB (Reg.SWP_HSTAT h) 3

def freeRegions (s : State) (h : Nat) : Nat := s.rf (Reg.SWP_HSTAT h) 63 46

/-- A FREE region leaves for another state with an empty entry; FREE falling below TRIGFREE requests a cycle (R252). -/
def takeRegion (s : State) (h r st top : Nat) : State :=
  let before := s.freeRegions h
  let s := (s.setRegState h r st).setRegion h r (putFld 63 61 st ||| putFld 40 23 top)
  let trig := s.rf (Reg.SWP_HTRIG h) 49 32
  if trig ≤ before ∧ s.freeRegions h < trig then s.requestCycle h else s

/-- A region becomes FREE, its entry cleared. -/
def freeRegion (s : State) (h r : Nat) : State :=
  let s := (s.setRegState h r 0).setRegion h r 0#64
  s.modHeap h (fun x => { x with marks := x.marks.filter (fun e => e.1 / 131072 != r) })

/-- The lowest-numbered FREE region. -/
def firstFree (s : State) (h : Nat) : Option Nat := findN (s.heapNreg h) (fun r => s.regState h r == 0)

/-- The region of a core's area becomes FULL and the area holds none. -/
def closeArea (s : State) (c : Nat) : State :=
  if s.rb (Reg.SWP_AREA c) 63 then
    (s.setRegState (s.rf (Reg.SWP_AREA c) 59 56) (s.rf (Reg.SWP_AREA c) 55 38) 2).wf (Reg.SWP_AREA c) 63 63 0
  else s

/-- A refill (R249 step 3): the lowest FREE region becomes the area; false where none is FREE. -/
def refill (s : State) (c : Nat) : Bool × State :=
  let s := s.closeArea c
  let h := s.rf (Reg.SWP_AREA c) 59 56
  match s.firstFree h with
  | none => (false, s)
  | some r => (true, ((((s.countCore c 0x10).takeRegion h r 1 0).wf (Reg.SWP_AREA c) 55 38 r).wf (Reg.SWP_AREA c) 34 17 0).wf (Reg.SWP_AREA c) 63 63 1)

/-- n words at TOP of the core's area. -/
def bumpArea (s : State) (c n : Nat) : Nat × State :=
  let h := s.rf (Reg.SWP_AREA c) 59 56
  let r := s.rf (Reg.SWP_AREA c) 55 38
  let top := s.rf (Reg.SWP_AREA c) 34 17
  (r * 131072 + top, (s.wf (Reg.SWP_AREA c) 34 17 (top + n)).setRegion h r (setFld (s.region h r) 40 23 (top + n)))

/-- The lowest run of k FREE regions. -/
def freeRun (s : State) (h k : Nat) : Option Nat :=
  findN (s.heapNreg h) (fun r => decide (r + k ≤ s.heapNreg h) && (List.range k).all (fun i => s.regState h (r + i) == 0))

/-- An allocation of n words for a core (R249, R250): the heap segment and the offset of the object; none faults ALLOC. -/
def allocRaw (s : State) (c n : Nat) : Option (Nat × Nat) × State :=
  let h := s.rf (Reg.SWP_AREA c) 59 56
  if !s.rb (Reg.SWP_AREA c) 60 then (none, s)
  else if 65536 < n then
    let k := (n + 131071) / 131072
    match s.freeRun h k with
    | none => (none, s.requestCycle h)
    | some r => (some (h, r * 131072), forN k (fun i s =>
        s.takeRegion h (r + i) (if i = 0 then 5 else 6) (min 131072 (n - i * 131072))) s)
  else if s.rb (Reg.SWP_AREA c) 63 && decide (s.rf (Reg.SWP_AREA c) 34 17 + n ≤ 131072) then
    let (o, s) := s.bumpArea c n
    (some (h, o), s)
  else
    match s.refill c with
    | (true, s) => let (o, s) := s.bumpArea c n; (some (h, o), s)
    | (false, s) => (none, s.requestCycle h)

def allocate? (s : State) (c n : Nat) : Option (Nat × Nat) × State :=
  match s.allocRaw c n with
  | (some r, s) => (some r, s.countCore c 0x0F)
  | (none, s) => (none, s)

/-! Registers (R274, R279). -/

/-- A write of HCFG; a reserved value leaves its field (R10). -/
def hcfgWrite (s : State) (h : Nat) (v : W64) : State :=
  let s := if 3 ≤ fld v 7 4 then s.wf (Reg.SWP_HCFG h) 7 4 (fld v 7 4) else s
  let s := if fld v 1 0 != 3 then s.wf (Reg.SWP_HCFG h) 1 0 (fld v 1 0) else s
  if s.heapPhase h = 0 then s.applyModes h else s

/-- A write of HTRIG. -/
def htrigWrite (s : State) (h : Nat) (v : W64) : State :=
  let a := Reg.SWP_HTRIG h
  let s := (s.wf a 49 32 (fld v 49 32)).wf a 31 16 (fld v 31 16)
  let s := if fld v 15 8 != 0 then s.wf a 15 8 (fld v 15 8) else s
  if fld v 7 0 ≤ 100 then s.wf a 7 0 (fld v 7 0) else s

/-- The header of the object at an offset, through one FWD word: its current offset, the word, and whether it can be read. -/
def sweepHeader (s : State) (h off : Nat) : Nat × Word × Bool × State :=
  let (w, u, s) := s.engRead 0 (s.heapBase h + off)
  if !u && w.tag == Tag.fwd then
    let o := ptrOff w.pay
    let (w, u, s) := s.engRead 0 (s.heapBase h + o)
    (o, w, u, s)
  else (off, w, u, s)

/-- A write of FINREG (R268). -/
def finregWrite (s : State) (h : Nat) (v : W64) : State :=
  let bad := fun (s : State) => s.setB (Reg.SWP_FINSTAT h) 2
  if fld v 51 48 != 0 || ptrSel v != s.heapSel h || !s.beginsObj h (ptrOff v) then bad s
  else
    let (o, w, u, s) := s.sweepHeader h (ptrOff v)
    if u || w.tag != Tag.hdr || bitAt w.pay 53 then bad s
    else if s.rf (Reg.SWP_FINSTAT h) 47 32 ≤ (s.heap h).fin.length then s.setB (Reg.SWP_FINSTAT h) 0
    else
      let s := s.engWrite 0 (s.heapBase h + o) ⟨Tag.hdr, setFld w.pay 53 53 1⟩
      (s.modHeap h (fun x => { x with fin := x.fin ++ [⟨BitVec.ofNat 8 (fld w.pay 63 56), ptrPay (ptrSel v) o⟩] })).wrapAdd
        (Reg.SWP_FINSTAT h) 63 48 1

/-- A write of AREAc: HEAP, and REFILL (R249, R279). -/
def areaWrite (s : State) (c : Nat) (v : W64) : State :=
  let h := fld v 59 56
  let s := if s.heapDefined h && s.coreOwned c && s.heapPart h == s.corePart c then
      ((s.closeArea c).wf (Reg.SWP_AREA c) 59 56 h).wf (Reg.SWP_AREA c) 60 60 1
    else s
  if bitAt v 0 && s.rb (Reg.SWP_AREA c) 60 then (s.refill c).2 else s

/-- RENT: the region entry RQRY names, with HELD (R247). -/
def rent (s : State) : W64 :=
  let h := s.rf Reg.SWP_RQRY 21 18
  let r := s.rf Reg.SWP_RQRY 17 0
  if !s.heapDefined h || decide (s.heapNreg h ≤ r) then 0#64
  else setBit (s.region h r) 60 (Tab.get (s.heap h).holds r 0 != 0)

/-- INTC source 351 as a level. -/
def sweepSource (s : State) : Bool :=
  s.rf Reg.SWP_SWERR 34 32 != 0 || (List.range 16).any (fun h => s.heapDefined h && s.rf (Reg.SWP_FINSTAT h) 2 0 != 0)

/-! Marking (R254, R276). -/

/-- Addresses of a range at which some word other than VOID 0 is held. -/
def listedIn (s : State) (lo n : Nat) : List Nat :=
  let k := fun (t : List Nat) => t.filter (fun a => decide (lo ≤ a) && decide (a < lo + n))
  (k s.mem.keys ++ k s.l1d.keys ++ k s.l2.keys ++ k s.l3.keys).eraseDups

/-- A word that marking meets: a reference into h enters the mark queue; a REM word is reported. -/
def scanWord (s : State) (h : Nat) (w : Word) (pa : Nat) : State :=
  if s.malformed w then s.sweepFinding 33 pa
  else if w.tag == Tag.rem then s.reportRem w
  else if s.ptrInto h w || s.retInto h w then s.enqueueMark w
  else s

/-- The word at an address is scanned. -/
def scanAt (s : State) (h pa : Nat) : State :=
  let (w, u, s) := s.engRead 0 pa
  if u then s.sweepFinding 32 pa else s.scanWord h w pa

def scanRange (s : State) (h lo n : Nat) : State := (s.listedIn lo n).foldl (fun s a => s.scanAt h a) s

/-- The object that a reference names: its words, and whether it has a header. -/
def objWords (w : Word) : Nat := if w.tag = Tag.hdr then fld w.pay 39 0 + 1 else 2

/-- One reference is traced: the object it names is marked and the words it traces are scanned. A REM word that a snapshot buffer held is
reported (R254). A reference that names no object's beginning, or the beginning of an object of the other form, is WILD (R276). -/
def traceRef (s : State) (h : Nat) (w : Word) : State :=
  let off := refOff w
  let pa := s.heapBase h + off
  if w.tag == Tag.rem then (if s.malformed w then s.sweepFinding 33 0 else s.reportRem w)
  else if !(s.ptrInto h w || s.retInto h w) then s
  else if s.malformed w then s.sweepFinding 33 0
  else if !s.beginsObj h off then s.sweepFinding 34 pa
  else if s.aboveTams h off || s.marked h off then s
  else
    let (x, u, s) := s.engRead 0 pa
    if u then s.sweepFinding 32 pa
    else if (x.tag == Tag.hdr) == (w.tag == Tag.cons) then s.sweepFinding 34 pa
    else
      let s := ((s.setMark h off).countUn 0x0F 0 (objWords x)).modSweep (fun y => { y with round := y.round + 1 })
      if x.tag = Tag.hdr then
        let skip := if fld x.pay 63 56 = 0x14 then 1 else 0
        s.scanRange h (pa + 1 + skip) (fld x.pay 39 0 - skip)
      else s.scanRange h pa 2

/-- The head of the mark queue is traced. -/
def traceHead (s : State) (h : Nat) : State :=
  match s.sweep.markQ with
  | [] => s
  | w :: t => (s.modSweep (fun x => { x with markQ := t })).traceRef h w

/-- Traces until the mark queue is empty; each object is traced once, so a number of steps suffices that the listed words bound. -/
def traceLoop (s : State) (h : Nat) : Nat → State
  | 0 => s
  | k + 1 => if s.sweep.markQ.isEmpty then s else (s.traceHead h).traceLoop h k

def traceAll (s : State) (h : Nat) : State :=
  let l := (s.listedIn (s.heapBase h) (s.heapNreg h * 131072)).length
  s.traceLoop h (2 * l * l + l + s.sweep.markQ.length + 1)

/-- The memory segments that are roots of h (R254): base and limit of the STACK and BANK segments of its partition and of the DATA segments
on its root list. -/
def rootSegs (s : State) (h : Nat) : List (Nat × Nat) :=
  let p := s.heapPart h
  (List.range (s.part p).tsize).filterMap (fun sel =>
    let d := s.tableDesc p sel
    if d.v && (d.typ == segSTACK || d.typ == segBANK || (d.typ == segDATA && (s.heap h).roots.contains sel)) then some (d.base, d.limit)
    else none)

def itemWords (it : Item) : List Word := [it.w0, it.w1, it.w2, it.w3]

/-- A message to this node that a transaction of a partition sent to itself carries its words as they are (R48, R355). -/
def ownMsg (s : State) (p : Nat) (m : CMsg) : Bool :=
  m.src == m.dst && (s.txn m.txid.toNat).phase == .live && (s.txn m.txid.toNat).part == p

/-- The words the engines hold for a partition (R254): queue items, timers, Meld facts and pushes, DMA descriptors, export entries, and
the transactions and messages of the Corgil node. -/
def engineWords (s : State) (p : Nat) : List Word :=
  ((s.queues.filter (fun e => s.queueOwner e.1 == some p)).flatMap (fun e =>
    e.2.held.flatMap (fun x => itemWords x.2.2))) ++
  ((s.timers.filter (fun e => e.2.armed && e.2.part == p)).flatMap (fun e => itemWords e.2.item)) ++
  ((s.meld.filter (fun e => s.nOwner e.1 == p)).flatMap (fun e => e.2.consts ++ e.2.outs.flatMap (fun x => itemWords x.1) ++
    (match e.2.rcd with | some r => [r.ident] | none => []))) ++
  ((s.dma.filter (fun e => s.owner .dmaCh e.1 == some p)).flatMap (fun e => e.2.desc ++ [e.2.srcP, e.2.dstP] ++
    e.2.recs.flatMap (fun x => itemWords x.1) ++ e.2.late.flatMap (fun x => itemWords x.1))) ++
  ((s.cg.exports.filter (fun e => e.2.phase == .live && e.2.part == p)).map (fun e => e.2.target)) ++
  ((s.cg.txns.filter (fun e => e.2.phase == .live && e.2.part == p)).flatMap (fun e => e.2.refs ++ [e.2.remW, e.2.item0] ++
    ([e.2.msg, e.2.held].flatMap (fun m => match m with | some m => m.body | none => [])) ++
    (match e.2.rcd with | some it => itemWords it | none => []))) ++
  ((s.cg.inbox.filter (fun m => s.ownMsg p m)).flatMap (·.body))

/-- The Meld views of a partition's networks: base and words. -/
def viewRanges (s : State) (p : Nat) : List (Nat × Nat) :=
  (List.range 8).filterMap (fun n =>
    if s.nDefined n && s.nOwner n == p then some ((s.net n).viewBase, 16 * (s.nFcap n + s.nTcap n)) else none)

/-- The memory roots and the engines' words are scanned. -/
def scanRoots (s : State) (h : Nat) : State :=
  let p := s.heapPart h
  let s := (s.rootSegs h ++ s.viewRanges p).foldl (fun s r => s.scanRange h r.1 r.2) s
  let s := (s.engineWords p).foldl (fun s w => s.scanWord h w 0) s
  s.modSweep (fun x => { x with scanned := true })

/-! Handshakes (R258, Table 10-5). -/

/-- Physical hands SHP to CHP of a core, and the number resident (R64). -/
def chp (s : State) (c : Nat) : Nat := s.crF c CRN.chp 3 0
def shp (s : State) (c : Nat) : Nat := s.crF c CRN.shp 3 0
def handN (s : State) (c : Nat) : Nat := (s.chp c + 16 - s.shp c) % 16 + 1

/-- Absent bits of GDS: 8 G, 9 W, 10 C, 11 S, 12 Q (spec 03). -/
def absent (s : State) (c bit : Nat) : Bool := bitAt (s.crR c CRN.gds) bit

/-- The hand registers a handshake scans: the resident hands, and the outs of the current hand, which are the ins of the next (R63, R254). -/
def handKeys (s : State) (c : Nat) : List Nat :=
  if s.absent c 9 then []
  else
    (List.range (s.handN c)).flatMap (fun i => (List.range 16).map (fun k => (s.shp c + i) % 16 * 16 + k)) ++
      (if s.handN c < 16 then (List.range 8).map (fun k => (s.chp c + 1) % 16 * 16 + 8 + k) else [])

/-- A function is applied to every word that a handshake scans; the first argument of the result replaces it. The routine is treated as an
instruction: a word of G or W that it changes marks its group dirty (R81, R258). -/
def mapRegs (s : State) (c : Nat) (f : Word → State → Word × State) : State :=
  let s := if s.absent c 8 then s else forN 8 (fun k s =>
    let old := Tab.get (s.core c).g k Word.void
    let (w, s) := f old s
    let s := s.modCore c (fun x => { x with g := Tab.set x.g k w Word.void })
    if w = old then s else s.dirty c grpG) s
  let s := (s.handKeys c).foldl (fun s k =>
    let old := Tab.get (s.core c).hands k Word.void
    let (w, s) := f old s
    let s := s.modCore c (fun x => { x with hands := Tab.set x.hands k w Word.void })
    if w = old then s else s.dirty c grpW) s
  let s := forN 7 (fun k s =>
    let (w, s) := f ⟨Tag.ret, s.crR c (CRN.save (k + 1) 0)⟩ s
    s.crW c (CRN.save (k + 1) 0) w.pay) s
  let s :=
    let (w, s) := f ⟨Tag.ret, retPay (s.core c).ip⟩ s
    s.modCore c (fun x => { x with ip := { sel := retSel w.pay, off := retOff w.pay, idx := retIdx w.pay } })
  let s := forN 8 (fun k s =>
    let (w, s) := f (Tab.get (s.core c).snapG k Word.void) s
    s.modCore c (fun x => { x with snapG := Tab.set x.snapG k w Word.void })) s
  forN 24 (fun k s =>
    let (w, s) := f (Tab.get (s.core c).snapHand k Word.void) s
    s.modCore c (fun x => { x with snapHand := Tab.set x.snapHand k w Word.void })) s

/-- H1: every reference into h in a register enters the mark queue; a REM word that the scan finds is reported (R254). -/
def scanCoreH1 (s : State) (h c : Nat) : State :=
  s.mapRegs c (fun w s => (w, if w.tag == Tag.rem then s.reportRem w else if s.ptrInto h w || s.retInto h w then s.enqueueMark w else s))

/-- H2: the core's snapshot buffer is drained. -/
def drainCore (s : State) (c : Nat) : State :=
  let b := (s.core c).snapBuf
  (b.foldl (fun s w => s.enqueueMark w) s).modCore c (fun x => { x with snapBuf := [] })

/-- A word held in a register or inside an engine is forwarded as the load barrier does (R263, R264, R271), with what Sweep finds on the way
(R276). -/
def forwardWord (s : State) (who : Who) (h : Nat) (w : Word) : Word × State :=
  if s.ptrInto h w || s.retInto h w then
    if s.malformed w then (w, s.sweepFinding 33 0)
    else if s.heapNreg h * 131072 ≤ refOff w ∨ s.regState h (refOff w / 131072) = 0 then (w, s.sweepFinding 34 (s.heapBase h + refOff w))
    else
      match s.forwardRef who h w with
      | (.word w', s) => (w', s)
      | (.uncorr o, s) => (w, s.sweepFinding 32 (s.heapBase h + o))
  else (w, s)

/-- H3: every reference into h in a register is forwarded. -/
def scanCoreH3 (s : State) (h c : Nat) : State := s.mapRegs c (fun w s => s.forwardWord (.core c) h w)

/-- The scans of a handshake on a core. -/
def handshakeScan (s : State) (h c : Nat) (k : Hshake) : State :=
  match k with
  | .h1 => s.scanCoreH1 h c
  | .h2 => s.drainCore c
  | .h3 => s.scanCoreH3 h c

/-- The cores of a partition that hold roots: powered, and not the checker of a pair. -/
def handCores (s : State) (p : Nat) : List Nat :=
  (s.coresOf p).filter (fun c => !s.isChecker c && (s.core c).run != .off)

/-- The handshake of a phase. -/
def phaseShake (ph : Nat) : Hshake := if ph = 1 then .h1 else if ph = 3 then .h2 else .h3

/-- The pacer withholds requests from a core (R273). -/
def paced (s : State) (h c : Nat) : Bool := s.heapMode h == 1 && (s.core c).paceStop

/-- Sweep requests a handshake from every core of the partition. Those that have stopped it scans itself. -/
def requestShakes (s : State) (h : Nat) (k : Hshake) : State :=
  (s.handCores (s.heapPart h)).foldl (fun s c =>
    if (s.core c).run != .run then s.handshakeScan h c k
    else
      let s := s.modSweep (fun x => { x with waiting := x.waiting ++ [c] })
      if s.paced h c then s else s.modCore c (fun x => { x with hshake := some k })) s

/-! Phases (R253, Table 10-4). -/

def setPhase (s : State) (h ph : Nat) : State :=
  ((s.wf (Reg.SWP_HSTAT h) 2 0 ph).ioW Reg.SWP_SWSTAT (putFld 7 7 1 ||| putFld 6 3 h ||| putFld 2 0 ph)).applyModes h

/-- Sweep itself does the scans of a requested handshake for a core that has stopped since: a collapse, a mismatch or a shed core keeps its
registers; one that is off holds no roots (R258). -/
def settleShakes (s : State) (h : Nat) : State :=
  (s.sweep.waiting.filter (fun c => (s.core c).run != .run)).foldl (fun s c =>
    let s := if (s.core c).run == .off then s else s.handshakeScan h c (phaseShake (s.heapPhase h))
    (s.modSweep (fun x => { x with waiting := x.waiting.erase c })).modCore c (fun x => { x with hshake := none })) s

/-- Idle-only: Sweep advances only while every core of the partition waits or is off (Table 10-7). -/
def sweepMay (s : State) (h : Nat) : Bool :=
  s.heapMode h != 2 || (s.handCores (s.heapPart h)).all (fun c => (s.core c).run != .run || (s.core c).wait != .none)

/-- The running cycle may advance and stands in a phase. -/
def sweepIn (s : State) (ph : Nat) : Option Nat :=
  match s.sweep.heap with
  | none => none
  | some h => if s.railUp && s.heapPhase h == ph && s.sweepMay h then some h else none

/-- SWEEP_CYCLE_START: the pending request of the lowest heap segment starts (R252, R253). -/
def sweepStart (s : State) : State :=
  if !s.railUp || s.sweep.heap.isSome then s
  else match findN 16 (fun h => s.heapDefined h && s.rb (Reg.SWP_HSTAT h) 3) with
    | none => s
    | some h =>
      let s := s.modSweep (fun _ => { heap := some h })
      let s := ((s.wf (Reg.SWP_HSTAT h) 3 3 0).wf (Reg.SWP_HSTAT h) 11 8 0).setPhase h 1
      let s := forN (s.heapNreg h) (fun r s => s.setRegion h r (setFld (s.region h r) 22 5 (s.regTop h r))) s
      let s := s.modHeap h (fun x => { x with marks := [], copies := [], transit := [] })
      let s := s.modCg (fun x => { x with epStart := if x.epStart.contains h then x.epStart else x.epStart ++ [h] })
      s.requestShakes h .h1

/-- The end of a cycle (R253, R279). -/
def sweepEnd (s : State) (h : Nat) : State :=
  let s := (s.setPhase h 0).ioW Reg.SWP_SWSTAT 0#64
  let s := (s.wrapAdd (Reg.SWP_HSTAT h) 31 16 1).countUn 0x11 0
  let s := s.modSweep (fun _ => {})
  let s := s.modCg (fun x => { x with epDone := if x.epStart.contains h && !x.epDone.contains h then x.epDone ++ [h] else x.epDone })
  s.pulse 351

/-- MARK_TRACE. -/
def markTrace (s : State) : State :=
  match s.sweepIn 2 with
  | none => s
  | some h => if !s.sweep.scanned then s.scanRoots h else s.traceHead h

/-- SNAPSHOT_DRAIN: the oldest entry of a buffer (0–63 the cores', 64–79 the engines') enters the mark queue. -/
def snapshotDrain (s : State) (b : Nat) : State :=
  if !s.railUp || s.sweep.heap.isNone then s
  else if b < 64 then
    match (s.core b).snapBuf with
    | [] => s
    | w :: t => (s.enqueueMark w).modCore b (fun x => { x with snapBuf := t })
  else
    match Tab.get s.sweep.bufs (b - 64) [] with
    | [] => s
    | w :: t => (s.enqueueMark w).modSweep (fun x => { x with bufs := Tab.set x.bufs (b - 64) t [] })

/-- The DMA and engine buffers of a partition drain. -/
def drainEngines (s : State) : State :=
  let s := s.sweep.bufs.foldl (fun s e => e.2.foldl (fun s w => s.enqueueMark w) s) s
  s.modSweep (fun x => { x with bufs := [] })

/-- What the snapshot buffers still hold when MEND ends belongs to no later cycle: the REM words are reported, and the rest, which the last round
found marked, goes (R255, R257; DEDUCED: notes/assumptions/81.md). -/
def dropBuffers (s : State) : State :=
  let left := (List.range 64).flatMap (fun c => (s.core c).snapBuf) ++ s.sweep.bufs.flatMap (·.2) ++ s.sweep.markQ
  let s := left.foldl (fun s w => if w.tag == Tag.rem then s.reportRem w else s) s
  let s := forN 64 (fun c s => if (s.core c).snapBuf.isEmpty then s else s.modCore c (fun x => { x with snapBuf := [] })) s
  s.modSweep (fun x => { x with bufs := [], markQ := [] })

/-- MEND_ROUND: after every H2 the engines' buffers are drained and all is traced; a round that marked an object is followed by another
(R257). -/
def mendRound (s : State) : State :=
  match s.sweepIn 3 with
  | none => s
  | some h =>
    let s := s.settleShakes h
    if !s.sweep.waiting.isEmpty || s.sweep.mended then s
    else
      let s := (s.drainEngines.traceAll h).satAdd (Reg.SWP_HSTAT h) 11 8 1
      if s.sweep.round = 0 then s.modSweep (fun x => { x with mended := true })
      else (s.modSweep (fun x => { x with round := 0 })).requestShakes h .h2

/-! REF (R260, R261, R267, R268). -/

/-- The objects from an offset of a region up to a bound, by their headers. -/
def parseObjs (s : State) (h lo hi : Nat) : Nat → List Nat
  | 0 => []
  | k + 1 => if hi ≤ lo then [] else lo :: s.parseObjs h (lo + roundEven (objWords (s.peekWord (s.heapBase h + lo)).1)) hi k

/-- The live objects of h: the marked ones, and those at or above TAMS (R266). -/
def liveObjs (s : State) (h : Nat) : List Nat :=
  (s.heap h).marks.keys ++ (List.range (s.heapNreg h)).flatMap (fun r =>
    let lo := r * 131072 + s.regTams h r
    let hi := r * 131072 + s.regTop h r
    let st := s.regState h r
    if st == 0 || st == 3 || st == 4 || st == 6 then [] else s.parseObjs h lo hi 65536)

/-- Weak clearing. -/
def clearWeak (s : State) (h : Nat) : State :=
  (s.liveObjs h).foldl (fun s off =>
    let pa := s.heapBase h + off
    let (w, u, s) := s.engRead 0 pa
    if u || w.tag != Tag.hdr || fld w.pay 63 56 != 0x14 || fld w.pay 39 0 == 0 then s
    else
      let (x, u, s) := s.engRead 0 (pa + 1)
      if u then s.sweepFinding 32 (pa + 1)
      else if s.ptrInto h x && !s.marked h (ptrOff x.pay) && !s.aboveTams h (ptrOff x.pay) then s.engWrite 0 (pa + 1) nilW
      else s) s

/-- Finalization: each registered object that is not live is marked and traced, and its item is pushed. -/
def finalize (s : State) (h : Nat) : State :=
  (s.heap h).fin.foldl (fun s p =>
    let off := ptrOff p.pay
    if s.marked h off || s.aboveTams h off then s
    else
      let s := (s.enqueueMark p).traceAll h
      let q := s.ioR (Reg.SWP_FINQ h)
      let it : Item := ⟨p, fixN h, fixN (s.rf (Reg.SWP_HSTAT h) 31 16), nilW⟩
      let (r, s) := if bitAt q 32 then s.enginePush (s.heapPart h) (fld q 15 0) (fld q 31 16) it else (some QR.noRight, s)
      match r with
      | some _ => s.setB (Reg.SWP_FINSTAT h) 1
      | none =>
        let (w, u, s) := s.engRead 0 (s.heapBase h + off)
        let s := if u then s.sweepFinding 32 (s.heapBase h + off)
          else s.engWrite 0 (s.heapBase h + off) ⟨w.tag, setFld w.pay 53 53 0⟩
        (s.modHeap h (fun x => { x with fin := x.fin.erase p })).wf (Reg.SWP_FINSTAT h) 63 48 (s.rf (Reg.SWP_FINSTAT h) 63 48 - 1)) s

/-- LIVE, PINS and LARGE of every region, from the marked objects. -/
def recordLive (s : State) (h : Nat) : State :=
  let s := forN (s.heapNreg h) (fun r s =>
    s.setRegion h r (((s.region h r).and (~~~ (fmask 59 59 ||| fmask 58 41 ||| fmask 4 4))))) s
  (s.heap h).marks.keys.foldl (fun s off =>
    let w := (s.peekWord (s.heapBase h + off)).1
    let n := roundEven (objWords w)
    let r := off / 131072
    let s := if w.tag == Tag.hdr && bitAt w.pay 54 then s.setRegion h r (setFld (s.region h r) 59 59 1) else s
    let s := if 4096 < objWords w then s.setRegion h r (setFld (s.region h r) 4 4 1) else s
    forN ((off + n - 1) / 131072 - r + 1) (fun i s =>
      let lo := max off ((r + i) * 131072)
      let hi := min (off + n) ((r + i + 1) * 131072)
      s.setRegion h (r + i) (setFld (s.region h (r + i)) 58 41 (fld (s.region h (r + i)) 58 41 + (hi - lo)))) s) s

/-- The HUGEC regions that follow a HUGE one are freed with it. -/
def freeHuge (s : State) (h r : Nat) : Nat → State
  | 0 => s
  | k + 1 => if s.regState h (r + 1) = 6 then (s.freeRegion h (r + 1)).freeHuge h (r + 1) k else s

/-- Empty regions are freed. -/
def freeEmpty (s : State) (h : Nat) : State :=
  forN (s.heapNreg h) (fun r s =>
    let e := s.region h r
    let held := Tab.get (s.heap h).holds r 0 != 0
    if fld e 63 61 = 2 && fld e 58 41 == 0 && fld e 40 23 == fld e 22 5 && !held then s.freeRegion h r
    else if fld e 63 61 = 5 && !s.marked h (r * 131072) && fld e 22 5 != 0 then (s.freeHuge h r (s.heapNreg h)).freeRegion h r
    else s) s

/-- Candidates of the relocation set, by LIVE and then by index (R261). -/
def candidates (s : State) (h : Nat) : List (Nat × Nat) :=
  let l := (List.range (s.heapNreg h)).filterMap (fun r =>
    let e := s.region h r
    let held := Tab.get (s.heap h).holds r 0 != 0
    if fld e 63 61 == 2 && !held && !bitAt e 59 && fld e 40 23 == fld e 22 5 &&
      decide (fld e 58 41 * 100 ≤ s.rf (Reg.SWP_HTRIG h) 7 0 * 131072) && !(s.heapMode h == 1 && bitAt e 4) then some (fld e 58 41, r)
    else none)
  l.mergeSort (fun a b => decide (a.1 < b.1) || (a.1 == b.1 && decide (a.2 ≤ b.2)))

/-- The candidates taken: RSMAX and the room for copying bound them. -/
def takeSet (room : Nat) : Nat → Nat → List (Nat × Nat) → List (Nat × Nat)
  | 0, _, _ => []
  | _, _, [] => []
  | k + 1, live, (l, r) :: t => if (live + l + 65535) / 65536 ≤ room then (l, r) :: takeSet room k (live + l) t else []

/-- Selection (R261). -/
def selectSet (s : State) (h : Nat) : State :=
  let set := takeSet (s.freeRegions h - s.rf (Reg.SWP_HTRIG h) 31 16) (s.rf (Reg.SWP_HTRIG h) 15 8) 0 (s.candidates h)
  let live := set.foldl (fun n e => n + e.1) 0
  let s := set.foldl (fun s e => s.setRegState h e.2 3) s
  let s := forN ((live + 65535) / 65536) (fun _ s =>
    match s.firstFree h with
    | none => s
    | some r => (s.takeRegion h r 4 0).modHeap h (fun x => { x with copies := x.copies ++ [r] })) s
  s.modSweep (fun x => { x with refStep := 5 })

/-- REF_PHASE: the steps of REF in their order. -/
def refPhase (s : State) : State :=
  match s.sweepIn 4 with
  | none => s
  | some h => if s.sweep.refStep = 5 then s else ((((s.clearWeak h).finalize h).recordLive h).freeEmpty h).selectSet h

def hasEvac (s : State) (h : Nat) : Bool := (findN (s.heapNreg h) (fun r => s.regState h r == 3)).isSome

/-! Evacuation and healing (R262, R266, R271). -/

/-- The next object Sweep reserves itself: a marked one of an EVAC region, neither forwarded nor declined. -/
def nextObj (s : State) (h : Nat) : Option Nat :=
  (s.heap h).marks.keys.find? (fun off =>
    s.regState h (off / 131072) == 3 && !s.sweep.declined.contains off && (s.peekWord (s.heapBase h + off)).1.tag != Tag.fwd)

/-- OBJECT_COPY: the object at the head of the order of reservation is copied; with none in transit, the next object is reserved and
copied, or declined; when none is left EVAC has done its work. -/
def objectCopy (s : State) : State :=
  match s.sweepIn 6 with
  | none => s
  | some h =>
    match (s.heap h).transit with
    | e :: _ => s.copyObject h e
    | [] =>
      if (s.handCores (s.heapPart h)).any (fun c => s.paced h c) then s
      else match s.nextObj h with
        | none => s.modSweep (fun x => { x with evacDone := true })
        | some off =>
          let w := (s.peekWord (s.heapBase h + off)).1
          let tag := if w.tag = Tag.hdr then BitVec.ofNat 8 (fld w.pay 63 56) else Tag.cons
          match s.reserve h off tag with
          | (some _, s) => (match (s.heap h).transit with | e :: _ => s.copyObject h e | [] => s)
          | (none, s) => s.modSweep (fun x => { x with declined := x.declined ++ [off] })

def forwardItem (s : State) (h : Nat) (it : Item) : Item × State :=
  let (a, s) := s.forwardWord (.eng 4) h it.w0
  let (b, s) := s.forwardWord (.eng 4) h it.w1
  let (c, s) := s.forwardWord (.eng 4) h it.w2
  let (d, s) := s.forwardWord (.eng 4) h it.w3
  (⟨a, b, c, d⟩, s)

/-- A function with a state over the members of a list. -/
def mapSt {α β : Type} (f : α → State → β × State) : List α → State → List β × State
  | [], s => ([], s)
  | a :: t, s =>
    let (b, s) := f a s
    let (l, s) := mapSt f t s
    (b :: l, s)

/-- The words of an own-node message forwarded. -/
def forwardMsg (s : State) (h : Nat) (m : CMsg) : CMsg × State :=
  if m.src == m.dst then
    let (b, s) := mapSt (fun w s => s.forwardWord (.eng 7) h w) m.body s
    ({ m with body := b }, s)
  else (m, s)
def forwardMsg? (s : State) (h : Nat) : Option CMsg → Option CMsg × State
  | none => (none, s)
  | some m => let (m, s) := s.forwardMsg h m; (some m, s)

/-- Corgil's part of R271: the transactions of a partition, the messages it has sent to this node, and its export entries. -/
def forwardCorgil (s : State) (h : Nat) : State :=
  let p := s.heapPart h
  let (inbox, s) := mapSt (fun (m : CMsg) s => if s.ownMsg p m then s.forwardMsg h m else (m, s)) s.cg.inbox s
  let s := s.modCg (fun x => { x with inbox := inbox })
  let s := (s.cg.txns.filter (fun e => e.2.phase == .live && e.2.part == p)).foldl (fun s e =>
    let (a, s) := s.forwardWord (.eng 7) h e.2.item0
    let (m, s) := s.forwardMsg? h e.2.msg
    let (r, s) := match e.2.rcd with
      | some it => let (it, s) := s.forwardItem h it; (some it, s)
      | none => (none, s)
    s.modTxn e.1 (fun x => { x with item0 := a, msg := m, rcd := r })) s
  (s.cg.exports.filter (fun e => e.2.phase == .live && e.2.part == p)).foldl (fun s e =>
    let (w, s) := s.forwardWord (.eng 7) h e.2.target
    s.modCg (fun x => { x with exports := Tab.modify x.exports e.1 {} (fun y => { y with target := w }) })) s

/-- The fact fields of a partition's networks are forwarded in their views (R336). -/
def forwardViews (s : State) (h : Nat) : State :=
  (s.viewRanges (s.heapPart h)).foldl (fun s r => (s.listedIn r.1 r.2).foldl (fun s pa =>
    let (w, u, s) := s.engRead 1 pa
    if u then s.sweepFinding 32 pa
    else
      let (v, s) := s.forwardWord (.eng 5) h w
      if v = w then s else s.engWrite 1 pa v) s) s

/-- Every engine forwards the pointers into h that it holds (R271). -/
def forwardEngines (s : State) (h : Nat) : State :=
  let p := s.heapPart h
  let s := (s.queues.filter (fun e => s.queueOwner e.1 == some p)).foldl (fun s e =>
    let (l, s) := mapSt (fun (x : Option Nat × Nat × Item) s => let (it, s) := s.forwardItem h x.2.2; ((x.1, x.2.1, it), s)) e.2.held s
    s.modQueue e.1 (fun x => { x with held := l })) s
  let s := (s.timers.filter (fun e => e.2.armed && e.2.part == p)).foldl (fun s e =>
    let (it, s) := s.forwardItem h e.2.item
    s.setTimer e.1 { s.timer e.1 with item := it }) s
  let s := (s.meld.filter (fun e => s.nOwner e.1 == p)).foldl (fun s e =>
    let (consts, s) := mapSt (fun w s => s.forwardWord (.eng 5) h w) e.2.consts s
    let (outs, s) := mapSt (fun (x : Item × MDest) s => let (it, s) := s.forwardItem h x.1; ((it, x.2), s)) e.2.outs s
    let (rcd, s) := match e.2.rcd with
      | some r => let (w, s) := s.forwardWord (.eng 5) h r.ident; (some { r with ident := w }, s)
      | none => (none, s)
    s.modNet e.1 (fun x => { x with consts := consts, outs := outs, rcd := rcd })) s
  let s := (s.dma.filter (fun e => s.owner .dmaCh e.1 == some p)).foldl (fun s e =>
    let (desc, s) := mapSt (fun w s => s.forwardWord (.eng (e.1 / 16)) h w) e.2.desc s
    let (a, s) := s.forwardWord (.eng (e.1 / 16)) h e.2.srcP
    let (b, s) := s.forwardWord (.eng (e.1 / 16)) h e.2.dstP
    let (recs, s) := mapSt (fun (x : Item × Bool) s => let (it, s) := s.forwardItem h x.1; ((it, x.2), s)) e.2.recs s
    let (late, s) := mapSt (fun (x : Item × Bool × Nat × Nat) s => let (it, s) := s.forwardItem h x.1; ((it, x.2), s)) e.2.late s
    s.modDma e.1 (fun x => { x with desc := desc, srcP := a, dstP := b, recs := recs, late := late })) s
  (s.forwardCorgil h).forwardViews h

/-- The word at an address is healed: a reference into an EVAC region whose object moved takes the new offset. -/
def healAt (s : State) (h pa : Nat) : State :=
  let (w, u, s) := s.engRead 0 pa
  if u then s.sweepFinding 32 pa
  else if !(s.ptrInto h w || s.retInto h w) then s
  else if s.malformed w then s.sweepFinding 33 pa
  else
    let st := s.regState h (refOff w / 131072)
    if !s.beginsObj h (refOff w) then s.sweepFinding 34 pa
    else if st != 3 then s
    else
      let (x, u, s) := s.engRead 0 (s.heapBase h + refOff w)
      if u then s.sweepFinding 32 (s.heapBase h + refOff w)
      else if x.tag != Tag.fwd then s
      else
        let o := ptrOff x.pay
        s.engWrite 0 pa (if w.tag = Tag.ret then ⟨Tag.ret, setFld w.pay 51 24 o⟩ else ⟨w.tag, setFld w.pay 47 0 o⟩)

def healRange (s : State) (h lo n : Nat) : State := (s.listedIn lo n).foldl (fun s a => s.healAt h a) s

/-- A marked object stayed in an EVAC region. -/
def keptIn (s : State) (h r : Nat) : Bool :=
  (s.heap h).marks.keys.any (fun off => off / 131072 == r && (s.peekWord (s.heapBase h + off)).1.tag != Tag.fwd)

/-- REMAP_SCAN (R266). -/
def remapScan (s : State) : State :=
  match s.sweepIn 7 with
  | none => s
  | some h =>
    if s.sweep.remapped then s
    else
      let s := (s.rootSegs h ++ s.viewRanges (s.heapPart h)).foldl (fun s r => s.healRange h r.1 r.2) s
      let s := s.forwardEngines h
      let (fin, s) := mapSt (fun w s => s.forwardWord (.eng 4) h w) (s.heap h).fin s
      let s := s.modHeap h (fun x => { x with fin := fin })
      let s := (s.liveObjs h).foldl (fun s off =>
        let pa := s.heapBase h + off
        let w := (s.peekWord pa).1
        if w.tag = Tag.fwd then s else if w.tag = Tag.hdr then s.healRange h (pa + 1) (fld w.pay 39 0) else s.healRange h pa 2) s
      let s := forN (s.heapNreg h) (fun r s =>
        let st := s.regState h r
        if st = 3 then (if s.keptIn h r then s.setRegState h r 2 else s.freeRegion h r)
        else if st = 4 then (if s.regTop h r = 0 then s.freeRegion h r else s.setRegState h r 2)
        else s) s
      (s.modHeap h (fun x => { x with copies := [] })).modSweep (fun x => { x with remapped := true })

/-- SWEEP_PHASE_END: the phase ends where its condition of Table 10-4 holds. -/
def sweepPhaseEnd (s : State) : State :=
  match s.sweep.heap with
  | none => s
  | some h =>
    if !s.railUp || !s.sweepMay h then s
    else
      let s := s.settleShakes h
      let done := s.sweep.waiting.isEmpty
      match s.heapPhase h with
      | 1 => if done then s.setPhase h 2 else s
      | 2 =>
        if s.sweep.scanned && s.sweep.markQ.isEmpty then
          ((s.setPhase h 3).modSweep (fun x => { x with round := 0, mended := false })).requestShakes h .h2
        else s
      | 3 => if s.sweep.mended then s.dropBuffers.setPhase h 4 else s
      | 4 =>
        if s.sweep.refStep != 5 then s
        else if s.hasEvac h then (s.setPhase h 5).requestShakes h .h3 else s.sweepEnd h
      | 5 => if done then (s.forwardEngines h).setPhase h 6 else s
      | 6 =>
        if s.sweep.evacDone && (s.heap h).transit.isEmpty then
          (s.coresOf (s.heapPart h)).foldl (fun s c =>
            s.modCore c (fun x => { x with evacHold := false })) (s.setPhase h 7)
        else s
      | 7 => if s.sweep.remapped then s.sweepEnd h else s
      | _ => s

/-- PACER_THRESHOLD (R273): a core's total over the trailing 1 ms takes a value; at 100 µs requests stop, below 50 µs they go on, and a
request that was withheld is made. -/
def pacerThreshold (s : State) (c ns : Nat) : State :=
  let stop := if 100000 ≤ ns then true else if ns < 50000 then false else (s.core c).paceStop
  let s := s.modCore c (fun x => { x with paceNs := ns, paceStop := stop })
  match s.sweep.heap with
  | none => s
  | some h =>
    let ph := s.heapPhase h
    if s.railUp && !s.paced h c && s.sweep.waiting.contains c && (s.core c).hshake.isNone && (ph == 1 || ph == 3 || ph == 5) then
      s.modCore c (fun x => { x with hshake := some (phaseShake ph) })
    else s

end State

end Sys2Proof.Machine
end

