-- ==== Sys2Proof/Machine/CacheReg.lean ====
section
/-!
DEFINITION. The cache and memory-controller registers (spec 09 R223–R229, R240–R242), the transitions of R19 that they request, and the
events of the caches and memory: fills, acknowledgements, scrubs, error injection and background initialisation.
-/
namespace Sys2Proof.Machine

open Sys2Proof

namespace State

/-! Enables (R223). -/

/-- The lines a cache holds, with their places. -/
def linesOf (s : State) (id : Nat) : List (Nat × Nat × Nat) :=
  (s.tags.filter (fun e => e.1 / 2 ^ 20 == id && e.2.valid)).map (fun e => (e.1 % 2 ^ 20 / 32, e.1 % 32, e.2.line))

/-- Every line of a cache is cleaned into the next level and leaves, with the copies above it; its victim buffer is acknowledged. -/
def emptyCache (s : State) (id : Nat) : State :=
  let s := (s.linesOf id).foldl (fun s e =>
    let line := e.2.2
    match levelOf id with
    | 0 => s.dropL1I id line
    | 1 => s.evictL1D (id - 64) line
    | 2 => s.evictL2 (id - 128) line
    | _ => s.evictL3 line) s
  (s.vbuf.filter (fun v => v.1 == id)).foldl (fun s v => s.vbufAck v.1 v.2) s

/-- A line at a place leaves with the copies above it (R221). -/
def emptyWay (s : State) (id way : Nat) : State :=
  (s.linesOf id).foldl (fun s e =>
    if e.2.1 == way then (if levelOf id = 2 then s.evictL2 (id - 128) e.2.2 else s.evictL3 e.2.2) else s) s

/-- A write of L1CTLj of cluster k: a clear empties the cache first. -/
def l1ctlWrite (s : State) (k j : Nat) (v : W64) : State :=
  let a := Reg.L2C_L1CTL k j
  let c := 8 * k + j
  let s := if s.rb a 1 && !bitAt v 1 then s.emptyCache (cL1D c) else s
  let s := if s.rb a 0 && !bitAt v 0 then s.emptyCache (cL1I c) else s
  s.wf a 1 0 (fld v 1 0)

/-- A write of L2CTL.EN. -/
def l2enWrite (s : State) (k : Nat) (on : Bool) : State :=
  let a := Reg.L2C_L2CTL k
  let s := if s.rb a 0 && !on then
      (s.emptyCache (cL2 k))
    else s
  s.wf a 0 0 on.toNat

/-! Requested and current fields (R19, R226–R229). -/

def modeKey : ModeSel → Option Nat
  | .l2split k => some k.val
  | .l2power k => some (8 + k.val)
  | .l3power n => some (16 + n.val)
  | .wmask n r => some (64 + 5 * n.val + r.val)
  | _ => none

/-- The requested and the current value of a transition's key. -/
def modeReq (s : State) (key : Nat) : Nat :=
  if key < 8 then s.rf (Reg.L2C_L2CTL key) 17 16
  else if key < 16 then s.rf (Reg.L2C_L2CTL (key - 8)) 11 8
  else if key < 48 then 2 * s.rf (Reg.L3C_L3CTL (key - 16)) 3 1 + 1
  else 16 * s.rf (Reg.L3C_WMASK ((key - 64) / 5) ((key - 64) % 5)) 15 4
def modeCur (s : State) (key : Nat) : Nat :=
  if key < 8 then s.rf (Reg.L2C_L2CTL key) 19 18
  else if key < 16 then s.rf (Reg.L2C_L2CTL (key - 8)) 15 12
  else if key < 48 then s.rf (Reg.L3C_L3CTL (key - 16)) 7 4
  else s.rf (Reg.L3C_WMASK ((key - 64) / 5) ((key - 64) % 5)) 31 16

/-- A transition starts where none runs and the request differs from the current value. -/
def modeKick (s : State) (key : Nat) : State := s.modeStart key (s.modeReq key) (s.modeCur key)

/-- Way pairs in scratchpad use, requested or current, count down from pair 3. -/
def spadCount (s : State) (k : Nat) : Nat :=
  max (max (s.rf (Reg.L2C_L2CTL k) 19 18) (s.rf (Reg.L2C_L2CTL k) 17 16)) (s.modeTarget k 0)

/-- A write of SPREQ: the reserved value, and a pair without power, leave it (R229). -/
def spreqWrite (s : State) (k n : Nat) : State :=
  let a := Reg.L2C_L2CTL k
  let pwr := s.rf a 15 12 &&& s.rf a 11 8
  if n = 3 || (List.range n).any (fun i => !pwr.testBit (3 - i)) then s else (s.wf a 17 16 n).modeKick k

/-- A write of PWRREQ (R229). -/
def pwrreqWrite (s : State) (k m : Nat) : State :=
  let sp := s.spadCount k
  let bad := (List.range sp).any (fun i => !m.testBit (3 - i))
  let none := (List.range (4 - sp)).all (fun i => !m.testBit i)
  if bad || none then s else (s.wf (Reg.L2C_L2CTL k) 11 8 m).modeKick (8 + k)

/-- A write of L2CTL: EN and PWRREQ for partition 0, SPREQ for it or the scratchpad's owner (R242). -/
def l2ctlWrite (s : State) (q k : Nat) (v : W64) : State :=
  let s := if s.mayWrite q .spad k then s.spreqWrite k (fld v 17 16) else s
  if q = 0 then (s.pwrreqWrite k (fld v 11 8)).l2enWrite k (bitAt v 0) else s

/-- A write of L3CTL.QREQ. -/
def l3ctlWrite (s : State) (n : Nat) (v : W64) : State := (s.wf (Reg.L3C_L3CTL n) 3 1 (fld v 3 1)).modeKick (16 + n)

/-- A write of WMASKr: ignored where REQ would share a way with another mask (R228). -/
def wmaskWrite (s : State) (n r : Nat) (v : W64) : State :=
  let m := fld v 15 4
  if (List.range 5).any (fun k => k != r && (s.rf (Reg.L3C_WMASK n k) 15 4 &&& m) != 0) then s
  else (s.wf (Reg.L3C_WMASK n r) 15 4 m).modeKick (64 + 5 * n + r)

/-- Words of a scratchpad pair (its index in the window) become VOID. -/
def wipePair (s : State) (k i : Nat) : State :=
  let lo := 0xF000000000 + k * 0x100000 + i * 65536
  { s with mem := s.mem.filter (fun e => !(decide (lo ≤ e.1) && decide (e.1 < lo + 65536))) }

/-- A transition completes (R19, R226, R228, R229): ways that leave cache use are cleaned and invalidated, new scratchpad words are VOID, and
the current field takes the value the transition started for. -/
def modeDone (s : State) (key : Nat) : State :=
  match Tab.get s.modeTo key 0 with
  | 0 => s
  | t + 1 =>
    let cur := s.modeCur key
    let s := s.modeOver key
    let s :=
      if key < 8 then
        let s := forN (t - cur) (fun i s =>
          (((s.emptyWay (cL2 key) (2 * (3 - (cur + i)))).emptyWay (cL2 key) (2 * (3 - (cur + i)) + 1))).wipePair key (cur + i)) s
        let s := forN (cur - t) (fun i s => s.wipePair key (t + i)) s
        s.wf (Reg.L2C_L2CTL key) 19 18 t
      else if key < 16 then
        let k := key - 8
        let s := forN 8 (fun w s => if cur.testBit (w / 2) && !t.testBit (w / 2) then s.emptyWay (cL2 k) w else s) s
        s.wf (Reg.L2C_L2CTL k) 15 12 t
      else if key < 48 then
        let n := key - 16
        let s := forN 16 (fun w s => if cur.testBit (w / 4) && !t.testBit (w / 4) then s.emptyWay (cL3 n) w else s) s
        s.wf (Reg.L3C_L3CTL n) 7 4 t
      else
        let n := (key - 64) / 5
        let s := forN 16 (fun w s => if t.testBit w && !cur.testBit w then s.emptyWay (cL3 n) w else s) s
        s.wf (Reg.L3C_WMASK n ((key - 64) % 5)) 31 16 t
    s.modeKick key

/-- A requested number of Meld lanes takes effect, less the lanes that are shed (R19, R334, R411). -/
def lanesDone (s : State) : State :=
  let a := Reg.MLD_MLANES
  let t := s.modeTarget 244 (s.rf a 4 0)
  let s := (s.modeOver 244).wf a 12 8 (t - ((List.range 16).filter (fun k => s.domShed (232 + k))).length)
  s.modeStart 244 (s.rf a 4 0) t

/-- MODE_TRANSITION_COMPLETE (R19). -/
def modeComplete (s : State) (m : ModeSel) : State :=
  if !s.railUp then s
  else
    match m with
    | .sweepMode h => if s.heapDefined h && s.heapPhase h == 0 then s.applyModes h else s
    | .meldLanes => s.lanesDone
    | .corgilPort p => s.portModeDone p
    | .opPoint => s.oppDone
    | m => match modeKey m with | some k => s.modeDone k | none => s

/-! Errors found in the arrays (R233–R235). -/

/-- The register that records errors of a cache, and the fields of a location. -/
def errReg (id : Nat) : Nat :=
  if id < 64 then Reg.L2C_L2ERR (id / 8)
  else if id < 128 then Reg.L2C_L2ERR ((id - 64) / 8)
  else if id < 136 then Reg.L2C_L2ERR (id - 128)
  else Reg.L3C_L3ERR (id - 136)

/-- The safety input of a cache's UE and TPD (Table 18-1). -/
def errInput (id : Nat) : Nat :=
  if id < 64 then 24 + id / 8 else if id < 128 then 24 + (id - 64) / 8 else if id < 136 then 24 + (id - 128) else 32 + (id - 136)

/-- UE (47) or TPD (46) arises: its location is recorded where both were clear, and the safety input asserts. -/
def arrayError (s : State) (id bit set way : Nat) : State :=
  let a := errReg id
  let s := if s.rf a 47 46 = 0 then
      (if id < 136 then
        (((s.wf a 31 30 (levelOf id)).wf a 29 27 (if id < 128 then id % 8 else 0)).wf a 26 23 way).wf a 22 11 set
       else (s.wf a 14 11 way).wf a 10 0 set)
    else s
  (s.setB a bit).raiseFault (errInput id)

/-- The word address at a place of an L2 in scratchpad use (Table 9-4). -/
def spadAddr (k set way word : Nat) : Nat := 0xF000000000 + k * 0x100000 + (3 - way / 2) * 65536 + (way % 2 * 4096 + set) * 8 + word

/-- The word that a level holds of an address, clean or dirty: what the levels below hold where its own table lists none. -/
def viewFrom (s : State) (lvl pa : Nat) : Stored :=
  let m := Tab.get s.mem pa 0#80
  let c3 := (Tab.get s.l3 pa none).getD m
  let c2 := (Tab.get s.l2 pa none).getD c3
  if lvl = 3 then c3 else if lvl = 2 then c2 else (Tab.get s.l1d pa none).getD c2

/-- A word of a dirty line is poisoned in its cache; a newer copy above it stands (R232, R233). -/
def poisonAt (s : State) (lvl pa : Nat) : State :=
  let x := some (Ecc.poison (Ecc.decode (s.viewFrom lvl pa)).1)
  if lvl = 1 then { s with l1d := Tab.set s.l1d pa x none }
  else if lvl = 2 then { s with l2 := Tab.set s.l2 pa x none }
  else { s with l3 := Tab.set s.l3 pa x none }

/-- A corrected L1 or L2 error is counted by the cluster (Table 20-6). -/
def countFix (s : State) (id : Nat) : State :=
  if id < 64 then s.countCl (id / 8) 0x08 0 else if id < 128 then s.countCl ((id - 64) / 8) 0x08 0
  else if id < 136 then s.countCl (id - 128) 0x08 0 else s

/-- A line that may be dirty is invalidated without write-back in the cache at fault, with the copies above it (R212, R234): what it and they
held is lost, and the levels below keep theirs. -/
def loseLine (s : State) (id line : Nat) : State :=
  let lvl := levelOf id
  let drop := fun (s : State) (l : Nat) => forN 8 (fun w s =>
    let pa := 8 * line + w
    if l = 1 then { s with l1d := Tab.set s.l1d pa none none }
    else if l = 2 then { s with l2 := Tab.set s.l2 pa none none } else { s with l3 := Tab.set s.l3 pa none none }) s
  let l1 := fun (s : State) (c : Nat) =>
    let s := if s.holds (cL1D c) line then ((drop s 1).modTag (cL1D c) line (fun _ => {})).clearResvCore c line else s
    if s.holds (cL1I c) line then s.dropL1I c line else s
  let l2 := fun (s : State) (k : Nat) =>
    if s.holds (cL2 k) line then (drop ((List.range 8).foldl (fun s j => l1 s (8 * k + j)) s) 2).modTag (cL2 k) line (fun _ => {}) else s
  match lvl with
  | 1 => ((drop s 1).modTag id line (fun _ => {})).clearResvCore (id - 64) line
  | 2 => l2 s (id - 128)
  | _ => (drop ((List.range 8).foldl l2 s) 3).modTag id line (fun _ => {})

/-- An uncorrectable data error at a place (R233). -/
def dataUncorr (s : State) (id set way word : Nat) : State :=
  let e := s.tagAt id set way
  if levelOf id = 2 && decide (3 - way / 2 < s.spadPairs (id - 128)) && decide (way < 8) then
    let pa := spadAddr (id - 128) set way word
    ({ s with mem := Tab.set s.mem pa (Ecc.poison (s.peekWord pa).1) 0#80 } : State).arrayError id 47 set way
  else if !e.valid then s
  else if e.dirty then (s.poisonAt (levelOf id) (8 * e.line + word)).arrayError id 47 set way
  else
    let s := (s.satAdd (errReg id) 63 48 1).countFix id
    match levelOf id with
    | 0 => forN 8 (fun w s => { s with l1i := Tab.set s.l1i (id * 2 ^ 40 + 8 * e.line + w) (some (s.view (8 * e.line + w))) none }) s
    | 1 => (s.evictL1D (id - 64) e.line).allocate id e.line [0, 1, 2, 3] false
    | 2 => (s.evictL2 (id - 128) e.line).allocate id e.line (s.l2Ways (id - 128)) e.excl
    | _ => (s.evictL3 e.line).fillL3 5 e.line

/-- A parity error of a tag entry (R234). -/
def tagParity (s : State) (id set way : Nat) : State :=
  let e := s.tagAt id set way
  if !e.valid then s.setB (errReg id) 45
  else
    let line := e.line
    match levelOf id with
    | 0 => (s.dropL1I id line).setB (errReg id) 45
    | lvl =>
      let above := decide (lvl = 3) && (!(s.l2Holders line).isEmpty)
      if !e.dirty && !above then
        let s := if lvl = 1 then s.evictL1D (id - 64) line else if lvl = 2 then s.evictL2 (id - 128) line else s
        (s.setTag id set way {}).setB (errReg id) 45
      else (s.loseLine id line).arrayError id 46 set way

/-- The number of a cache array. -/
def arrayNum : ArrayId → Nat
  | .l1i c => cL1I c | .l1d c => cL1D c | .l2 k => cL2 k | .l3 n => cL3 n

/-- CACHE_ARRAY_SCRUB (R235): what a scrub finds is handled by R233 and R234; a place outside the array holds nothing. -/
def arrayScrub (s : State) (arr : ArrayId) (f : ArrayFinding) : State :=
  let id := arrayNum arr
  let inside := fun (set way : Nat) => decide (way < waysOf id) && decide (set < (if id < 128 then 128 else if id < 136 then 4096 else 2048))
  if !s.railUp then s
  else
    match f with
    | .none => s
    | .dataSingle set way _ => if inside set way then (s.satAdd (errReg id) 63 48 1).countFix id else s
    | .dataUncorr set way word => if inside set way then s.dataUncorr id set way word else s
    | .tagParity set way => if inside set way then s.tagParity id set way else s

/-- INTC source 356 (R243). -/
def cacheSource (s : State) : Bool :=
  (List.range 8).any (fun k => s.rf (Reg.L2C_L2ERR k) 47 45 != 0) || (List.range 32).any (fun n => s.rf (Reg.L3C_L3ERR n) 47 45 != 0)

/-! The memory controller. -/

/-- The channel of a populated DRAM address. -/
def chanOf (s : State) (pa : Nat) : Option Nat := if pa < s.dramWords then some (s.channelOf pa) else none

/-- A write of SCRUB (R240): PERIOD 0 is reserved. -/
def scrubWrite (s : State) (n : Nat) (v : W64) : State :=
  let a := Reg.MEMC_SCRUB n
  let s := if fld v 15 8 != 0 then s.wf a 15 8 (fld v 15 8) else s
  s.wf a 0 0 (fld v 0 0)

/-- A scrub read of a DRAM word (R239, R240). -/
def scrubWord (s : State) (n pa : Nat) : State :=
  let x := Tab.get s.mem pa 0#80
  let a := Reg.MEMC_MERR n
  match Ecc.decode x with
  | (_, .ok) => s
  | (w, .corrected) =>
    let was := s.rf a 63 48
    let s := (s.satAdd a 63 48 1).countUn 0x06 n
    let s := if was = 0xFFFE then s.pulse (352 + n) else s
    { s with mem := Tab.set s.mem pa (Ecc.encode w) 0#80 }
  | (_, .uncorr) =>
    let s := s.satAdd a 31 16 1
    let s := if s.rb a 47 then s
      else
        let (sy, p) := Ecc.syndrome x
        ((s.ioW (Reg.MEMC_MUEADDR n) (putFld 63 63 p ||| putFld 62 56 sy ||| putFld 39 0 pa)).wf a 46 46 1).setB a 47
    s.raiseFault (64 + n)

/-- PATROL_SCRUB: one pass over the populated lines of a channel; lines that hold VOID words with payload zero hold no error. -/
def patrolScrub (s : State) (n : Nat) : State :=
  if !s.railUp || !s.rb (Reg.MEMC_SCRUB n) 0 || !s.rb (Reg.MEMC_MCFG n) 0 || !s.rb Reg.HRTH_HBOOT 32 then s
  else
    let s := (s.mem.keys.filter (fun a => s.chanOf a == some n)).foldl (fun s a => s.scrubWord n a) s
    s.wrapAdd (Reg.MEMC_SCRUB n) 63 48 1

/-- A write of MINJ (R241). -/
def minjWrite (s : State) (q n : Nat) (v : W64) : State :=
  let pa := fld v 39 0
  let posA := fld v 61 55
  let posB := fld v 54 48
  if q != 0 || s.chanOf pa != some n || 79 < posA || 79 < posB then s
  else
    let s := s.ccinv pa
    let x := Tab.get s.mem pa 0#80
    let flip := fun (y : Stored) (k : Nat) => y ^^^ BitVec.ofNat 80 (2 ^ k)
    let y : Stored := match fld v 63 62 with
      | 0 => 0#80
      | 1 => flip x posA
      | 2 => flip (flip x posA) posB
      | _ => Ecc.poison (Ecc.decode x).1
    ({ s with mem := Tab.set s.mem pa y 0#80 } : State).clearResv (pa / 8)

/-- DRAM_BACKGROUND_INIT (R427): a channel finishes; words that were never written read VOID before and after. -/
def dramInit (s : State) (n : Nat) : State :=
  if !s.railUp || !s.rb (Reg.MEMC_MCFG n) 0 then s
  else
    let s := s.modHs (fun x => { x with initDone := if x.initDone.contains n then x.initDone else x.initDone ++ [n] })
    if (List.range 4).all (fun k => !s.rb (Reg.MEMC_MCFG k) 0 || s.hs.initDone.contains k) then s.setB Reg.HRTH_HBOOT 32 else s

/-- INTC sources 352–355 (R243). -/
def dramSource (s : State) (n : Nat) : Bool := s.rb (Reg.MEMC_MERR n) 47

/-! Control stores (R207). -/

/-- The owner of the first owned core of a cluster. -/
def clusterOwner (s : State) (k : Nat) : Nat :=
  match findN 8 (fun j => s.coreOwned (8 * k + j)) with
  | some j => s.corePart (8 * k + j)
  | none => 0

/-- An uncorrectable microword: MCSERR and the safety input. -/
def microUncorr (s : State) (k ua part : Nat) : State :=
  let a := Reg.MCS_MCSERR k
  let s := if s.rb a 32 then s else s.wf a 13 0 ua
  (s.setB a 32).raiseFault (8 + k) part

/-- MICROWORD_SCRUB. -/
def microScrub (s : State) (k : Nat) (f : MicroFinding) : State :=
  if !s.domOn (64 + k) then s
  else
    match f with
    | .none => s
    | .single _ => s.satAdd (Reg.MCS_MCSERR k) 63 48 1
    | .uncorr ua =>
      ({ s with ucBad := Tab.set s.ucBad (k * 2 ^ 14 + ua.toNat) true false } : State).microUncorr k ua.toNat (s.clusterOwner k)

/-! Fills and acknowledgements (R165, R215, R219). -/

/-- LINE_FILL: the i-th outstanding fill of a prefetch arrives and its line is placed. -/
def lineFill (s : State) (i : Nat) : State :=
  match s.fills[i]? with
  | none => s
  | some (c, line, write) =>
    let s : State := { s with fills := s.fills.eraseIdx i }
    if s.implemented (8 * line) then (s.portFill (s.l1dOn c) c (8 * line) write false).2 else s

/-- WRITEBACK_ACK: the i-th entry of the victim buffers is acknowledged. -/
def writebackAck (s : State) (i : Nat) : State :=
  match s.vbuf[i]? with
  | none => s
  | some v => s.vbufAck v.1 v.2

end State

end Sys2Proof.Machine
end

