-- ==== Sys2Proof/Machine/Io.lean ====
section
/-!
DEFINITION. Register access (spec 00 R7–R10, spec 01 R21–R30): the access codes, the off-domain accesses of R25, who may write and read each
register, and the effect of each write and read; and the INTC's view of the level sources (spec 07 Table 7-6).
-/
namespace Sys2Proof.Machine

open Sys2Proof

namespace State

/-- The switched domain that a block instance lies in, where it is not the uncore (Table 16-3, R498). I2C is taken as serial: it lies in domain
267 (DEDUCED: notes/assumptions/82.md). -/
def blkDomain : Blk → Nat → Option Nat
  | .bETH, i => some (263 + i)
  | .bCAN, _ => some 267
  | .bUART, _ => some 267
  | .bI2C, _ => some 267
  | .bUSB, _ => some 268
  | .bTRC, _ => some 272
  | _, _ => none

/-- An access to the block instance is one of R25: its domain is off, or it is the CORE or DBG instance of a checker core. -/
def offAccess (s : State) (b : Blk) (i : Nat) : Bool :=
  (match blkDomain b i with | some k => !s.domOn k | none => false) ||
  ((b == .bCORE || b == .bDBG) && s.isChecker i)

/-- The device records an off-domain access (R25). -/
def recordOff (s : State) (pa : Nat) : State :=
  if s.rb Reg.SYS_STAT 0 then s else (s.ioW Reg.SYS_OFFADDR (putFld 39 0 pa)).setB Reg.SYS_STAT 0

/-- The rw bits of a mask take v's bits; the w1c bits of a mask are cleared where v has 1 (R7). -/
def rwPut (s : State) (pa : Nat) (m v : W64) : State := s.ioW pa ((s.ioR pa &&& ~~~m) ||| (v &&& m))
def w1cPut (s : State) (pa : Nat) (m v : W64) : State := s.ioW pa (s.ioR pa &&& ~~~(v &&& m))
/-- A write by the access codes of a register's fields. -/
def genPut (s : State) (pa : Nat) (r : RegSpec) (v : W64) : State := (s.rwPut pa r.rw v).w1cPut pa r.w1c v

/-- A field that keeps its value where the new one is reserved (R10). -/
def keepFld (old v : W64) (hi lo : Nat) (ok : Nat → Bool) : W64 := if ok (fld v hi lo) then v else setFld v hi lo (fld old hi lo)

/-! Writes. -/

/-- SWP (R279). -/
def swpWrite (s : State) (q pa : Nat) (r : RegSpec) (k : Nat) (v : W64) : State :=
  let own := s.heapDefined k && (q == 0 || s.heapPart k == q)
  match r.off with
  | 0x0001 => s.w1cPut pa r.w1c v
  | 0x0008 => s.rwPut pa r.rw v
  | 0x0100 => if own then s.hcfgWrite k v else s
  | 0x0101 => if own then s.htrigWrite k v else s
  | 0x0103 => if own && bitAt v 0 then s.requestCycle k else s
  | 0x0105 => if own then s.rwPut pa r.rw v else s
  | 0x0106 => if own then s.finregWrite k v else s
  | 0x0107 => if own then s.w1cPut pa r.w1c v else s
  | 0x0800 => if q == 0 || (s.coreOwned k && s.corePart k == q) then s.areaWrite k v else s
  | _ => s

/-- DMA (R313). -/
def dmaWrite (s : State) (q pa i : Nat) (r : RegSpec) (k : Nat) (v : W64) : State :=
  let ch := 16 * i + k
  let own := s.mayWrite q .dmaCh ch
  match r.off with
  | 0x0100 => let s := if own then s.rwPut pa (r.rw &&& ~~~fmask 16 16) v else s
              if q = 0 then s.rwPut pa (fmask 16 16) v else s
  | 0x0101 => if own then s.rwPut pa r.rw (keepFld (s.ioR pa) v 47 0 (fun n => n % 8 == 0)) else s
  | 0x0102 => if own then s.dmaCmd ch v else s
  | 0x0103 => if own then s.w1cPut pa r.w1c v else s
  | _ => s

/-- MLD (R340). -/
def mldWrite (s : State) (q pa : Nat) (r : RegSpec) (k : Nat) (v : W64) : State :=
  let own := fun (n : Nat) => s.nDefined n && (q == 0 || s.nOwner n == q)
  match r.off with
  | 0x0000 => if q = 0 then s.mlanesWrite v else s
  | 0x0001 => if q = 0 then s.w1cPut pa r.w1c v else s
  | 0x0102 => if own k && s.nState k == nEmpty then s.rwPut pa r.rw v else s
  | 0x0103 => if own k then s.meldCmd k v else s
  | 0x0200 => if own (k / 16) then s.rwPut pa r.rw v else s
  | _ => if own k then s.genPut pa r v else s

/-- CGL (R367). -/
def cglWrite (s : State) (q pa : Nat) (r : RegSpec) (v : W64) : State :=
  match r.off with
  | 0x0001 => if q = 0 then s.rwPut pa r.rw (keepFld (s.ioR pa) v 15 0 (fun n => decide (10 ≤ n) && decide (n ≤ 2000))) else s
  | 0x0002 => if q = 0 then s.w1cPut pa r.w1c v else s
  | 0x0020 => s.rwPut pa r.rw v
  | 0x0030 => if q = 0 then s.rwPut pa r.rw v else s
  | 0x0031 => if q = 0 then s.rtentWrite v else s
  | _ => s

/-- INTC (R179, R180). A requester that is no core has no CLAIM and no EOI. -/
def intcWrite (s : State) (req : Req) (q : Nat) (r : RegSpec) (k : Nat) (v : W64) : State :=
  match r.off with
  | 0x0010 => s.raiseDoorbell q (fld v 8 0)
  | 0x1000 => s.writeScfg q k v
  | 0x1200 => s.writeSmask q k v
  | 0x1400 => s.writeSstat q k v
  | 0x4200 => if req = .core ⟨k % 64, Nat.mod_lt k (by decide)⟩ then s.eoi k (fld v 8 0) else s
  | _ => s

/-- STK (R393, R396). -/
def stkWrite (s : State) (q pa : Nat) (r : RegSpec) (k : Nat) (v : W64) : State :=
  let own := s.mayWrite q .group (s.chGroup k)
  match r.off with
  | 0x0000 => if q = 0 then s.sctlWrite v else s
  | 0x0001 => if q = 0 then s.w1cPut pa r.w1c v else s
  | 0x0004 => if q = 0 then s.zccfgWrite k v else s
  | 0x0010 => if q = 0 then s.qtyWrite pa dimA v else s
  | 0x0014 => if q = 0 then s.qtyWrite pa dimA v else s
  | 0x0018 => if q = 0 then s.qtyWrite pa dimA v else s
  | 0x0040 => if q = 0 then s.rwPut pa r.rw v else s
  | 0x0084 => s.rberrWrite q k v
  | 0x0090 => s.gctlWrite q k v
  | 0x1000 => if own then s.rwPut pa r.rw v else s
  | 0x1001 => if own then s.qtyWrite pa dimW v else s
  | 0x1002 => if own then s.qtyWrite pa dimA v else s
  | 0x1003 => if own then s.demWrite k v else s
  | _ => s

/-- SNS (R393). -/
def snsWrite (s : State) (q pa : Nat) (r : RegSpec) (k : Nat) (v : W64) : State :=
  let own := s.mayWrite q .sense k
  match r.off with
  | 0x0000 => if q = 0 then s.rwPut pa r.rw v else s
  | 0x0008 => s
  | 0x0100 => if q = 0 && decide (k % 32 < 19) then s.rwPut pa r.rw v else s
  | 0x1000 => if own then (s.rwPut pa r.rw v).senseInput k else s
  | 0x100A => if own then s.cringWrite k v else s
  | 0x100D => if own then (let s := s.w1cPut pa r.w1c v; if bitAt v 1 then s.senseClear k else s) else s
  | _ => if own then s.genPut pa r v else s

/-- PWM (R382, R383, R393). -/
def pwmBlkWrite (s : State) (q pa : Nat) (r : RegSpec) (k : Nat) (v : W64) : State :=
  let p := s.mayWrite q .pwm k
  let e := s.mayWrite q .encoder k
  match r.off with
  | 0x0000 => if p then s.rwPut pa r.rw v else s
  | 0x0001 => if p then s.pwmWrite k false v else s
  | 0x0002 => if p then s.pwmWrite k true v else s
  | 0x0100 => if e then s.rwPut pa r.rw (keepFld (s.ioR pa) v 1 0 (fun n => n != 3)) else s
  | 0x0101 => if e then s.setPos k v else s
  | _ => if e then s.genPut pa r v else s

/-- The peripheral instance of a block. -/
def perOf (b : Blk) (i : Nat) : Option PerId :=
  match b with
  | .bETH => some (.eth (Fin.ofNat 4 i)) | .bUSB => some .usb | .bCAN => some (.can (Fin.ofNat 4 i)) | .bUART => some (.uart (Fin.ofNat 8 i))
  | .bI2C => some (.i2c (Fin.ofNat 4 i)) | .bPMB => some .pmb | .bXSPI => some .xspi | _ => none

/-- A peripheral instance (R398, R401, R405): n octets accompany a DMA access of DATA. -/
def perWrite (s : State) (p : PerId) (pa : Nat) (r : RegSpec) (k : Nat) (v : W64) (n : Nat) : State :=
  let old := s.ioR pa
  match p, r.off with
  | _, 0x0000 => s.pctlWrite p v
  | _, 0x0001 => s.w1cPut pa r.w1c v
  | _, 0x0002 => s.rwPut pa r.rw v
  | _, 0x0008 => s.perEnqueue p (octetsOf n v)
  | _, 0x0009 => s.perEof p
  | _, 0x0011 => s.perEnqueue p (octetsOf (k + 1) v)
  | .eth _, 0x0121 => s.rwPut pa r.rw (keepFld old v 31 0 (fun x => decide (x ≤ 1000000) || decide (2 ^ 32 - 1000000 ≤ x)))
  | .eth i, 0x0122 => s.ptpStep i.val v
  | .eth i, 0x0130 => s.gclctlWrite i.val v
  | .uart _, 0x0100 => s.rwPut pa r.rw (keepFld old v 15 0 (fun x => decide (64 ≤ x)))
  | .uart _, 0x0101 => s.rwPut pa r.rw (keepFld old (keepFld old v 6 5 (fun x => x != 3)) 3 0 (fun x => decide (5 ≤ x) && decide (x ≤ 9)))
  | .i2c _, 0x0100 => s.rwPut pa r.rw (keepFld old v 1 0 (fun x => x != 3))
  | .i2c i, 0x0101 => s.i2cStart i v
  | .pmb, 0x0101 => s.pmbStart v
  | .xspi, 0x0100 => s.rwPut pa r.rw (keepFld old v 18 16 (fun x => decide (x ≤ 4)))
  | .xspi, 0x0102 => s.xspiStart v
  | _, _ => s.genPut pa r v

/-- HRTH, for partition 0. -/
def hrthWrite (s : State) (req : Req) (pa : Nat) (r : RegSpec) (v : W64) : State :=
  match r.off with
  | 0x0001 => s.hpwrWrite (match req with | .core c => some c.val | _ => none) v
  | 0x0021 => s.hresetWrite v
  | _ => s.genPut pa r v

/-- SAFE (R460, R463, R464, R467, R470). -/
def safeWrite (s : State) (q pa : Nat) (r : RegSpec) (k : Nat) (v : W64) : State :=
  match r.off with
  | 0x0000 => if q = 0 then s.slockWrite v else s
  | 0x0008 => s.fpendWrite q k v
  | 0x0010 => s
  | 0x0020 => if q = 0 then s.swdcfgWrite v else s
  | 0x0021 => s.swdKick q v
  | 0x0023 => s.swfltWrite q v
  | 0x0028 => if q = 0 then s.gpsafeWrite pa v else s
  | 0x002C => if q = 0 then s.gpsafeWrite pa v else s
  | 0x0040 => if q = 0 || q = k then s.twcfgWrite k v else s
  | 0x0050 => if q = 0 || q = k then s.twKick k else s
  | 0x0100 => if q = 0 then s.fcfgWrite k v else s
  | _ => s

/-- SEC, for partition 0. -/
def secWrite (s : State) (pa : Nat) (r : RegSpec) (v : W64) : State :=
  match r.off with
  | 0x0008 => s.sinWrite v
  | 0x0009 => s.sinEnd v
  | 0x0018 => s.sctlClose v
  | _ => s.genPut pa r v

/-- DBG of core i (R485–R492, R497). -/
def dbgWrite (s : State) (q pa i : Nat) (r : RegSpec) (k : Nat) (v : W64) : State :=
  let own := s.dbgMayWrite q i
  match r.off with
  | 0x0000 => s.dbgctlWrite q i v
  | 0x0003 => if q = 0 then s.rwPut pa r.rw v else s
  | 0x0010 => s.cmpctlWrite q i k v
  | 0x0040 => if own then s.cntselWrite pa v r.rw else s
  | _ => if own then s.genPut pa r v else s

/-- A register write by a requester whose block instance accepts it. n: the octets that a DMA access of DATA carries, else 8. -/
def blkWrite (s : State) (req : Req) (pa : Nat) (v : W64) (n : Nat) (b : Blk) (i : Nat) (r : RegSpec) (k : Nat) : State :=
  let q := s.reqPart req
  match b with
  | .bSYS => if q = 0 then s.genPut pa r v else s
  | .bCORE => if r.off = 1 && bitAt v 0 && (q == 0 || (s.coreOwned i && s.corePart i == q)) then s.modCore i (fun x => { x with dcache := [] }) else s
  | .bMCS => if q = 0 then s.w1cPut pa r.w1c v else s
  | .bL2C =>
    (match r.off with
     | 0x0000 => s.l2ctlWrite q i v
     | 0x0008 => if q = 0 || (s.coreOwned (8 * i + k) && s.corePart (8 * i + k) == q) then s.l1ctlWrite i k v else s
     | _ => if q = 0 then s.w1cPut pa r.w1c v else s)
  | .bL3C =>
    if q != 0 then s
    else (match r.off with | 0x0000 => s.l3ctlWrite i v | 0x0008 => s.wmaskWrite i k v | _ => s.w1cPut pa r.w1c v)
  | .bMEMC =>
    if q != 0 then s
    else (match r.off with | 0x0001 => s.scrubWrite i v | 0x0004 => s.minjWrite q i v | _ => s.w1cPut pa r.w1c v)
  | .bSWP => s.swpWrite q pa r k v
  | .bDLR => (match r.off with | 0x0000 => if q = 0 then s.w1cPut pa r.w1c v else s | 0x0040 => s.rwPut pa r.rw v | _ => s)
  | .bDMA => s.dmaWrite q pa i r k v
  | .bMLD => s.mldWrite q pa r k v
  | .bCGL => s.cglWrite q pa r v
  | .bCGLP => if q != 0 then s else if r.off = 0 then s.pcfgWrite i v else s.w1cPut pa r.w1c v
  | .bINTC => s.intcWrite req q r k v
  | .bSTK => s.stkWrite q pa r k v
  | .bSNS => s.snsWrite q pa r k v
  | .bPWM => s.pwmBlkWrite q pa r k v
  | .bHKA =>
    (match r.off with
     | 0x0000 => if q = 0 then s.rwPut pa r.rw v else s
     | 0x0030 => if s.mayWrite q .hka k then s.genPut pa r v else s
     | _ => s)
  | .bGPIO =>
    (match r.off with
     | 0x0000 => s.gpSetClr q k v true
     | 0x0004 => s.gpSetClr q k v false
     | _ => if s.mayWrite q .gpio k then s.gpcfgWrite k v else s)
  | .bHRTH => if q = 0 then s.hrthWrite req pa r v else s
  | .bDMPR =>
    if q != 0 then s
    else (match r.off with | 0x0018 => s.dcoreWrite v | 0x0019 => s.dioWrite v | 0x001A => s.dreenWrite v | _ => s)
  | .bCLK =>
    if q != 0 then s
    else (match r.off with | 0x0000 => s.oppWrite v | 0x0002 => s.tgcfgWrite v | _ => s.w1cPut pa r.w1c v)
  | .bSAFE => s.safeWrite q pa r k v
  | .bSEC => if q = 0 then s.secWrite pa r v else s
  | .bDBG => s.dbgWrite q pa i r k v
  | .bTRC =>
    (match r.off with
     | 0x0000 => if q = 0 then s.trcctlWrite v else s
     | 0x0001 => if q = 0 then s.w1cPut pa r.w1c v else s
     | 0x0002 => (match req with | .core c => s.trcmarkWrite c.val v | _ => s)
     | _ => s)
  | .bCNTC => if q != 0 then s else if r.off = 0 then s.cntselWrite pa v r.rw else s.rwPut pa r.rw v
  | .bCNTU => if q != 0 then s else if r.off = 0 then s.cntselWrite pa v r.rw else s.rwPut pa r.rw v
  | b =>
    (match perOf b i with
     | some p => if s.perMayWrite q p then s.perWrite p pa r k v n else s
     | none => s)

/-- A register write (R21, R24, R25); the word's tag has been checked (R23). -/
def ioWriteN (s : State) (req : Req) (pa : Nat) (v : W64) (n : Nat) : State :=
  match findBlk pa with
  | none => s
  | some (b, i, off) =>
    if s.offAccess b i then s.recordOff pa
    else match findReg b.regs off with
      | none => s
      | some (r, k) => s.blkWrite req pa v n b i r k
def ioWrite (s : State) (req : Req) (pa : Nat) (v : W64) : State := s.ioWriteN req pa v 8

/-! Reads. -/

/-- SELF of a requester (R29). -/
def selfRead (s : State) (req : Req) : W64 :=
  let base := putFld 31 20 (if s.rb Reg.CGL_NODECFG 12 then s.rf Reg.CGL_NODECFG 11 0 else 0) ||| putFld 19 16 (s.reqPart req)
  match req with
  | .core c => base ||| putFld 15 15 (s.corePaired c.val).toNat ||| putFld 13 8 c.val
  | _ => base ||| putFld 14 14 1

/-- The timestamp of a transmitted frame that TXTSQ names (R402). -/
def stamp (s : State) (p : PerId) (base : Nat) : Option W64 :=
  ((s.perSt p).stamps.find? (fun e => e.1 == s.rf (base + 0x124) 15 0)).map (·.2)

/-- The decode entry of a long opcode of the base instruction set (R188, Table 8-1): V by Table 4-3, SUP by R99, REP by R95; MICRO, YLD and an
ENTRY in the ROM are fixed at manufacture. -/
def romEntry (op : Nat) : W64 :=
  let r := Config.romDecode op
  let v := longAssigned op
  putFld 31 31 v.toNat ||| putFld 29 29 (longSup op).toNat ||| putFld 28 28 (longRep op).toNat |||
    (if v && bitAt r 30 then r &&& (fmask 30 30 ||| fmask 27 27 ||| fmask 12 0) else 0#64)

/-- The value of a register whose reads are computed; otherwise the stored one. -/
def regValue (s : State) (req : Req) (q pa : Nat) (b : Blk) (i : Nat) (r : RegSpec) (k : Nat) : W64 :=
  let raw := s.ioR pa &&& ~~~r.wo
  match b, r.off with
  | .bSYS, 0x0001 => s.selfRead req
  | .bMCS, 0x0100 => if k < 0xD0 then romEntry k else raw
  | .bSWP, 0x0009 => s.rent
  | .bDLR, 0x0041 => s.qinfo q
  | .bDLR, 0x0100 => if q = 0 || (s.coreOwned k && s.corePart k == q) then raw else 0#64
  | .bDMA, _ => raw
  | .bMLD, 0x0000 => raw
  | .bMLD, 0x0001 => raw
  | .bMLD, 0x0200 => if q = 0 || s.nOwner (k / 16) == q then raw else 0#64
  | .bMLD, _ => if q = 0 || s.nOwner k == q then raw else 0#64
  | .bCGL, 0x0021 => let x := s.rf Reg.CGL_XQRY 23 0; if q = 0 || s.xOwner x == some q then s.xent0 x else 0#64
  | .bCGL, 0x0022 => let x := s.rf Reg.CGL_XQRY 23 0; if q = 0 || s.xOwner x == some q then (s.xent x).target.pay else 0#64
  | .bCGL, 0x0031 => s.rtentRead
  | .bINTC, 0x1000 => if (s.srcOwner k).isSome then raw else 0#64
  | .bINTC, 0x1200 => if (s.srcOwner k).isSome then raw else 0#64
  | .bINTC, 0x1400 => if (s.srcOwner k).isSome then raw else 0#64
  | .bSTK, 0x001C => qPay (s.allowance k) dimA
  | .bDMPR, 0x0000 => s.dstatRead k
  | .bCLK, 0x0001 => s.pllstatRead
  | .bSAFE, 0x0022 => s.swdstatRead
  | .bSEC, 0x0011 => putFld 20 0 s.sec.sout.length
  | .bSEC, 0x0020 => s.otpstatRead
  | .bSEC, 0x0028 => s.lockfRead k
  | .bTRC, _ => if q = 0 then raw else 0#64
  | .bETH, 0x0124 => setBit raw 63 (s.stamp (.eth (Fin.ofNat 4 i)) (Reg.ETH_TXTSQ i - 0x124)).isSome
  | .bETH, 0x0125 => (s.stamp (.eth (Fin.ofNat 4 i)) (Reg.ETH_TXTSQ i - 0x124)).getD 0#64
  | _, _ => raw

/-- A register read (R7, R21, R23, R25): its payload; the rc fields are cleared unless the read carries the peek qualifier. n: the octets of a
DMA access of DATA, else 8. -/
def ioReadN (s : State) (req : Req) (pa : Nat) (peek : Bool) (n : Nat) : W64 × State :=
  match findBlk pa with
  | none => (0#64, s)
  | some (b, i, off) =>
    if s.offAccess b i then (0#64, s.recordOff pa)
    else match findReg b.regs off with
      | none => (0#64, s)
      | some (r, k) =>
        let q := s.reqPart req
        match b, r.off with
        | .bINTC, 0x4000 =>
          if peek then s.claim (k / 8) (k % 8) true
          else (match req with
           | .core c => if c.val = k / 8 then s.claim c.val (k % 8) false else (0#64, s)
           | _ => (0#64, s))
        | .bSEC, 0x0010 => s.soutRead peek
        | .bDBG, 0x0004 => s.rdatRead q i
        | b, off =>
          match perOf b i with
          | some p =>
            if off = 0x0008 then
              (let (os, s) := s.perTake p n peek; (payOf os, s))
            else (s.regValue req q pa b i r k, if peek then s else s.ioW pa (s.ioR pa &&& ~~~r.rc))
          | none =>
            let v := s.regValue req q pa b i r k
            -- a reader who is shown zero takes nothing
            (v, if peek || r.rc == 0#64 || (v == 0#64) then s else s.ioW pa (s.ioR pa &&& ~~~r.rc))
def ioRead (s : State) (req : Req) (pa : Nat) (peek : Bool) : W64 × State := s.ioReadN req pa peek 8

/-! The INTC sources (Table 7-6). -/

/-- Level of GPIO pin n as source 128 + n sees it: the pad level while EDGE is 0. -/
def gpioSource (s : State) (n : Nat) : Bool := s.rf (Reg.GPIO_GPCFG n) 11 10 == 0 && s.rb (Reg.GPIO_GPCFG n) 7

/-- The level that a unit drives on a source; false for the sources that only pulse. -/
def sourceRaw (s : State) (n : Nat) : Bool :=
  if n < 64 then false
  else if n < 128 then s.coreCounterSource (n - 64)
  else if n < 224 then s.gpioSource (n - 128)
  else if n < 288 then false
  else if n < 296 then s.sensePortSource (n - 288)
  else if n < 304 then s.encoderSource (n - 296)
  else if n < 307 then false
  else if n = 307 then s.stokerSource
  else if n = 308 then s.hkaSource
  else if n < 317 then false
  else if n < 321 then s.perSource (.eth (Fin.ofNat 4 (n - 317)))
  else if n < 325 then false
  else if n = 325 then s.perSource .usb
  else if n < 330 then s.perSource (.can (Fin.ofNat 4 (n - 326)))
  else if n < 338 then s.perSource (.uart (Fin.ofNat 8 (n - 330)))
  else if n < 342 then s.perSource (.i2c (Fin.ofNat 4 (n - 338)))
  else if n = 342 then s.perSource .pmb
  else if n = 343 then s.perSource .xspi
  else if n < 348 then s.corgilPortSource (n - 344)
  else if n = 348 then s.corgilSource
  else if n = 349 then s.rf Reg.DLR_DSTAT 2 0 != 0
  else if n = 350 then s.meldSource
  else if n = 351 then s.sweepSource
  else if n < 356 then s.dramSource (n - 352)
  else if n = 356 then s.cacheSource
  else if n = 357 then s.supplySource
  else if n = 358 then s.wakeSrcLevel
  else if n = 359 then s.thermalSource
  else if n = 360 then s.safeIrq
  else if n = 361 then s.safeTrump
  else if n = 362 then s.secSource
  else if n = 363 then s.rb Reg.TRC_TRCSTAT 2
  else if n < 372 then s.clusterCounterSource (n - 364)
  else if n = 372 then s.uncoreCounterSource
  else if n < 389 then s.rb (Reg.SAFE_TWCFG (n - 373)) 61
  else if n = 511 then s.routeFail
  else false

/-- INTC_SOURCE_ASSERT: a pulse that waits is one edge; else the source's level is sampled (R182). -/
def sourceAssert (s : State) (n : Nat) : State :=
  if !s.railUp then s
  else if s.pulses.contains n then ({ s with pulses := s.pulses.erase n } : State).assertEdge n
  else s.assertLevel n (s.sourceRaw n)

end State

end Sys2Proof.Machine
end

