-- ==== Sys2Proof/Machine/Mem.lean ====
section
/-!
DEFINITION. Memory as an instruction, a micro-routine, a DMA channel or an engine reaches it (spec 06 R131–R133, spec 02 R37, R38, R54): the
check of R76 and the order of R132, loads with the load barrier, stores with the write barrier, object headers and elements, bignums,
and new objects (R149, R249). A computation here either completes or ends at once with a fault or a wait; the state keeps what it
has done by then (a healed word, a counted error).
-/
namespace Sys2Proof.Machine

open Sys2Proof

/-- Why a computation ends: a fault, or a wait for what another agent does (R156, R158, R163, R265). -/
inductive Abort where
  | exn (e : Exn)
  | wait (w : WaitSt)
  deriving DecidableEq, Repr

/-- A computation over the state that can end early. -/
abbrev MM := EStateM Abort State

/-- Raise a fault. -/
def fault {α : Type} (e : Exn) : MM α := throw (.exn e)

/-- Raise a fault where a condition fails. -/
def need (b : Bool) (e : Exn) : MM Unit := if b then pure () else fault e

/-- Change the state. -/
def upd (f : State → State) : MM Unit := modify f

/-- Use a function of the state that answers a value and a new state. -/
def ask {α : Type} (f : State → α × State) : MM α := modifyGet f

/-- Run a computation: the state it leaves, and its value or why it ended. -/
def MM.run {α : Type} (m : MM α) (s : State) : Except Abort α × State :=
  match EStateM.run m s with
  | .ok a s => (.ok a, s)
  | .error e s => (.error e, s)

/-- Who accesses memory: the requester, its partition, whether it has the rights of supervisor mode, and whether its register reads carry
the peek qualifier (R491). -/
structure Ctx where
  who  : Who
  part : Nat
  sup  : Bool
  req  : Req
  peek : Bool := false
  deriving DecidableEq, Repr

/-- A word that has passed the check of R76. -/
structure Loc where
  sel  : Nat
  off  : Nat
  pa   : Nat
  desc : Desc
  deriving DecidableEq, Repr

namespace Ctx

/-- The descriptor a requester uses: a core's cached copy, an engine the table's. -/
def desc (x : Ctx) (s : State) (sel : Nat) : Desc :=
  match x.who with
  | .core c => s.coreDesc c sel
  | .eng _ => s.tableDesc x.part sel

/-- A core's use of a selector brings its descriptor into the descriptor cache. -/
def touch (x : Ctx) (s : State) (sel : Nat) : State :=
  match x.who with
  | .core c => if sel < (s.part x.part).tsize then s.touchDesc c sel else s
  | .eng _ => s

/-- The check of R76. -/
def resolve (x : Ctx) (sel off : Nat) (a : Acc) : MM Loc := do
  upd (fun s => x.touch s sel)
  let s ← get
  match s.checkDesc x.part sel (x.desc s sel) off a x.sup with
  | .ok pa => pure ⟨sel, off, pa, x.desc s sel⟩
  | .error e => fault (.at e sel off)

/-- A segment-offset access lies in no FREE, EVAC or COPY region (R248). -/
def offsetOk (_x : Ctx) (l : Loc) : MM Unit := do
  let s ← get
  need (s.regionOk l.pa) (.at .segRights l.sel l.off)

/-- The offset of a segment access, which must not be negative (R76: an offset is below LIMIT). -/
def resolveI (x : Ctx) (sel : Nat) (off : Int) (a : Acc) : MM Loc := do
  if 0 ≤ off then x.resolve sel off.toNat a
  else do
    upd (fun s => x.touch s sel)
    let s ← get
    match s.checkDesc x.part sel (x.desc s sel) (2 ^ 64) a x.sup with
    | .ok _ => fault (.at .segLimit sel (off % 2 ^ 48).toNat)
    | .error e => fault (.at e sel (off % 2 ^ 48).toNat)

/-- A core's load or store as the comparators see it (R485). -/
def note (x : Ctx) (store : Bool) (l : Loc) (w : Word) : MM Unit :=
  match x.who with
  | .core c => upd (fun s => s.modCore c (fun k => { k with accs := k.accs ++ [⟨store, l.sel, l.off, l.pa, w⟩] }))
  | .eng _ => pure ()

/-- Wait until the object whose copy contains the word has been copied (R262, R265). -/
def settle (_x : Ctx) (pa : Nat) : MM Unit := do
  let s ← get
  match s.settleTransit pa with
  | some s => set s
  | none => throw (.wait .none)

/-- The word at a location as it stands; MEM_UNCORR where it is uncorrectable (R132 step 6). In I/O space, a register read (R23). -/
def readRaw (x : Ctx) (l : Loc) : MM Word := do
  if isIo l.pa then
    let v ← ask (fun s => s.ioRead x.req l.pa x.peek)
    pure (fixW v)
  else do
    x.settle l.pa
    let (w, bad) ← ask (fun s => let (w, u, s) := s.whoRead x.who l.pa l.desc.uncached; ((w, u), s))
    if bad then fault (.at .memUncorr l.sel l.off) else pure w

/-- A word that has been read is delivered through the load barrier (R38, R256, R263, R264, R267). -/
def deliver (x : Ctx) (w : Word) (pa : Option Nat) (byOffset weak0 : Bool) : MM Word := do
  let r ← ask (fun s => s.loadBarrier x.who x.part w pa byOffset weak0)
  match r with
  | .word w => pure w
  | .uncorr o => fault (.at .memUncorr (ptrSel w.pay) o)

/-- A load: the word, through the load barrier, as the comparators see it. -/
def load (x : Ctx) (l : Loc) (byOffset : Bool := false) (weak0 : Bool := false) : MM Word := do
  let w ← x.readRaw l
  let w ← if isIo l.pa then pure w else x.deliver w (some l.pa) byOffset weak0
  x.note false l w
  pure w

/-- A word whose store R37 forbids in user mode (R132 step 3). Supervisor code may store any word it holds, a FWD word too (DEDUCED:
notes/assumptions/95.md). -/
def srcOk (x : Ctx) (w : Word) : MM Unit := need (x.sup || !isStructural w.tag) (.of .priv)

/-- The log ring, where only Hearth's stores act (R428). -/
def ring (pa : Nat) : Bool := isLog pa && decide (pa < 0xF100000400)

/-- The checks of a store after R76 (R132 steps 6 and 7, R246); in I/O space, of the word's tag (R23). The operand that holds the word is
opnd. -/
def storeChk (x : Ctx) (l : Loc) (w : Word) (opnd : Nat) : MM Unit := do
  if isIo l.pa then need (w.tag == Tag.fix || w.tag == Tag.raww) (.of .tag opnd)
  else if ring l.pa then pure ()
  else do
    let old ← x.readRaw l
    need (x.sup || !isStructural old.tag) { Exn.at .priv l.sel l.off with mtag := old.tag }
    let s ← get
    need (s.storeOk x.part w l.sel l.desc l.pa) (.at .segRights l.sel l.off)

/-- A store that has passed its checks: the write barrier's logging (R255) and the write. -/
def storeDo (x : Ctx) (l : Loc) (w : Word) : MM Unit := do
  if isIo l.pa then upd (fun s => s.ioWrite x.req l.pa w.pay)
  else if ring l.pa then pure ()
  else upd (fun s => (s.storeLog x.who x.part (s.peekWord l.pa).1 l.pa).whoWrite x.who l.pa l.desc.uncached w)
  x.note true l w

def store (x : Ctx) (l : Loc) (w : Word) (opnd : Nat) : MM Unit := do
  x.storeChk l w opnd
  x.storeDo l w

/-! Objects (R51–R55). -/

/-- A pointer operand: a local-pointer tag and a well-formed payload (R52). -/
def ptrArg (_x : Ctx) (w : Word) (opnd : Nat) : MM Unit := do
  let s ← get
  need (s.isPtr w.tag && !s.malformed w) (.of .tag opnd)

/-- Where the object at an offset lies now: a FWD word in an EVAC region names its copy (R51, R54, R263). -/
def follow (x : Ctx) (sel off : Nat) : MM Nat := do
  let s ← get
  match s.cycleHeap x.part with
  | some h =>
    if s.heapSel h == sel && decide (5 ≤ s.heapPhase h) && s.regState h (off / 131072) == 3 then
      let w := (s.peekWord (s.heapBase h + off)).1
      pure (if w.tag = Tag.fwd then ptrOff w.pay else off)
    else pure off
  | none => pure off

/-- A word that a list of uncommitted stores may hold (R193). -/
def readOver (x : Ctx) (sh : Nat → Option Word) (l : Loc) : MM Word :=
  match sh l.pa with
  | some w => pure w
  | none => x.readRaw l

/-- The header of an object (R54): its offset now, and its payload. sh: uncommitted stores that the access sees. -/
def header (x : Ctx) (p : Word) (opnd : Nat) (a : Acc := .read) (sh : Nat → Option Word := fun _ => none) : MM (Nat × W64) := do
  let sel := ptrSel p.pay
  let l ← x.resolve sel (ptrOff p.pay) a
  let off ← x.follow sel (ptrOff p.pay)
  let l ← if off = l.off then pure l else x.resolve sel off a
  let w ← x.readOver sh l
  need (w.tag == Tag.hdr && fld w.pay 63 56 == p.tag.toNat) (.of .tag opnd)
  pure (off, w.pay)

/-- SIZE of a header (Table 2-12). -/
def size (h : W64) : Nat := fld h 39 0

/-- A word of a CONS cell: both words are resolved (R132 step 4). -/
def cellLoc (x : Ctx) (p : Word) (i : Nat) (a : Acc) : MM Loc := do
  let sel := ptrSel p.pay
  let l0 ← x.resolve sel (ptrOff p.pay) a
  let off ← x.follow sel (ptrOff p.pay)
  let l0 ← if off = l0.off then pure l0 else x.resolve sel off a
  let l1 ← x.resolve sel (off + 1) a
  pure (if i = 0 then l0 else l1)

/-- The body word that a pointer and an index name (R54, R132 steps 4 and 5), and whether it is word 0 of a WEAK. po and io are the operand
numbers of the pointer and the index. -/
def elemLoc (x : Ctx) (p : Word) (po : Nat) (i : Int) (io : Nat) (store : Bool) (sh : Nat → Option Word := fun _ => none) :
    MM (Loc × Bool) := do
  let a := if store then Acc.write else Acc.read
  if p.tag = Tag.cons then
    need (i == 0 || i == 1) (.obj .segLimit io (ptrSel p.pay) (ptrOff p.pay))
    let l ← x.cellLoc p i.toNat a
    pure (l, false)
  else do
    let (off, h) ← x.header p po .read sh
    need (decide (0 ≤ i) && decide (i < (size h : Int))) (.obj .segLimit io (ptrSel p.pay) off)
    need (!(store && bitAt h 55)) (.obj .segRights po (ptrSel p.pay) off)
    let l ← x.resolve (ptrSel p.pay) (off + 1 + i.toNat) a
    pure (l, p.tag == Tag.weak && i == 0)

/-- Element i of an object. -/
def loadElem (x : Ctx) (p : Word) (po : Nat) (i : Int) (io : Nat) : MM Word := do
  let (l, wk) ← x.elemLoc p po i io false
  x.load l false wk

/-- Word i of a CONS cell. -/
def loadCell (x : Ctx) (p : Word) (i : Nat) : MM Word := do
  let l ← x.cellLoc p i .read
  x.load l

/-! Bignums (R58). -/

/-- The limbs of a BIG, least significant first. -/
def limbs (x : Ctx) (sel off n opnd : Nat) : Nat → MM (List W64)
  | 0 => pure []
  | k + 1 => do
    let l ← x.resolve sel (off + 1 + (n - (k + 1))) .read
    let w ← x.load l
    need (w.tag == Tag.raww) (.of .tag opnd)
    let t ← limbs x sel off n opnd k
    pure (w.pay :: t)

end Ctx

/-- The two's-complement value of limbs, least significant first. -/
def limbVal : List W64 → Int
  | [] => 0
  | [a] => a.toInt
  | a :: t => a.toNat + 2 ^ 64 * limbVal t

/-- The limbs of a value, in the least number of them that holds it, from 2 on (R58). -/
def limbCount (i : Int) : Nat := max 2 ((Nat.log2 (if i < 0 then (-(i + 1)).toNat else i.toNat) + 1) / 64 + 1)
def limbsOf (i : Int) : List W64 := (List.range (limbCount i)).map (fun k => w64 (i.fdiv (2 ^ (64 * k) : Nat)))

/-- The value lies in the FIX range. -/
def isFixI (i : Int) : Bool := decide (-(2 ^ 63 : Int) ≤ i) && decide (i < (2 ^ 63 : Int))

namespace Ctx

/-- The value of a BIG operand; TAG where it is not in normal form (R58, R130). -/
def bigVal (x : Ctx) (w : Word) (opnd : Nat) : MM Int := do
  x.ptrArg w opnd
  let (off, h) ← x.header w opnd
  let n := size h
  need (decide (2 ≤ n)) (.of .tag opnd)
  let ls ← x.limbs (ptrSel w.pay) off n opnd n
  let v := limbVal ls
  need (!isFixI v && decide (limbVal (ls.take (n - 1)) ≠ v)) (.of .tag opnd)
  pure v

/-- The numeric value of an operand (R109); TAG for a tag with none, a malformed CHR or a BIG not in normal form. -/
def numOf (x : Ctx) (w : Word) (opnd : Nat) : MM Num := do
  if w.tag = Tag.fix then pure (.int w.pay.toInt)
  else if w.tag = Tag.flo then pure (.flo w.pay)
  else if w.tag = Tag.qty then pure (.qty (sfld w.pay 63 18) (fld w.pay 17 0))
  else if w.tag = Tag.big then do
    let i ← x.bigVal w opnd
    pure (.int i)
  else if w.tag = Tag.chr then do
    let s ← get
    need (!s.malformed w) (.of .tag opnd)
    pure (.chr w.pay.toNat)
  else fault (.of .tag opnd)

/-! New objects (R149, R249–R251). -/

/-- n words from the allocation area of a core: the heap segment and the offset; ALLOC where it holds none. -/
def allocWords (_x : Ctx) (c n : Nat) : MM (Nat × Nat) := do
  let r ← ask (fun s => s.allocate? c n)
  match r with
  | some a => pure a
  | none => fault (.of .alloc)

/-- An initialising store of a new object: it logs nothing (R251). -/
def initWord (x : Ctx) (h off : Nat) (w : Word) : MM Unit :=
  upd (fun s => s.whoWrite x.who (s.heapBase h + off) false w)

/-- The header of a new object (R149, R251). -/
def newHeader (kind sz aux : Nat) : Word :=
  ⟨Tag.hdr, putFld 63 56 kind ||| putFld 55 55 (kind == 0x0E).toNat ||| putFld 51 51 (decide (65536 < State.roundEven (sz + 1))).toNat |||
    putFld 47 40 aux ||| putFld 39 0 sz⟩

/-- A new object of a kind and a size with its body; body word i is the list's, else the kind's fill. -/
def newObj (x : Ctx) (c kind sz aux : Nat) (body : List Word) : MM Word := do
  let (h, off) ← x.allocWords c (State.roundEven (sz + 1))
  x.initWord h off (newHeader kind sz aux)
  let fill : Word := if kind = 0x0B ∨ kind = 0x10 then ⟨Tag.raww, 0#64⟩ else Word.void
  upd (fun s => forN sz (fun i s => s.whoWrite x.who (s.heapBase h + off + 1 + i) false ((body[i]?).getD fill)) s)
  let s ← get
  pure ⟨BitVec.ofNat 8 kind, ptrPay (s.heapSel h) off⟩

/-- A new CONS cell. -/
def newCell (x : Ctx) (c : Nat) (a b : Word) : MM Word := do
  let (h, off) ← x.allocWords c 2
  x.initWord h off a
  x.initWord h (off + 1) b
  let s ← get
  pure ⟨Tag.cons, ptrPay (s.heapSel h) off⟩

/-- An integer as a word in normal form: a FIX, or a new BIG (R110, R112). -/
def intWord (x : Ctx) (c : Nat) (i : Int) : MM Word :=
  if isFixI i then pure (fixI i)
  else
    let ls := limbsOf i
    x.newObj c 0x10 ls.length 0 (ls.map (fun p => ⟨Tag.raww, p⟩))

/-- A numeric result as a word. -/
def numWord (x : Ctx) (c : Nat) (n : Num) : MM Word :=
  match n with
  | .int i => x.intWord c i
  | .flo w => pure ⟨Tag.flo, w⟩
  | .qty v d => pure ⟨Tag.qty, setFld (putFld 17 0 d) 63 18 (v % 2 ^ 46).toNat⟩
  | .chr k => pure ⟨Tag.chr, n64 k⟩

end Ctx

end Sys2Proof.Machine
end

