-- ==== Sys2Proof/Machine/Dma.lean ====
section
/-!
DEFINITION. The DMA transfers (spec 11 R299–R313, spec 10 R270): the start of a descriptor with its checks, the movement of one block of words,
octets or fill words, the choice of a channel at a block boundary, and the records.
-/
namespace Sys2Proof.Machine

open Sys2Proof

/-- A command that acts while the core rail is up; the units it concerns are off otherwise (R406, Table 16-1). -/
def whenUp (s : State) (f : State → State) : Host.Outcome State Fault Refusal := .next (if s.railUp then f s else s)

/-! Fields of the control word (Table 11-6). -/
def ctlOp (c : W64) : Nat := fld c 3 2
def ctlSmode (c : W64) : Nat := fld c 7 6
def ctlDmode (c : W64) : Nat := fld c 9 8
def ctlSfix (c : W64) : Bool := bitAt c 10
def ctlDfix (c : W64) : Bool := bitAt c 11
def ctlReq (c : W64) : Nat := fld c 23 16

/-- Word i of the channel's descriptor. -/
def DmaSt.word (x : DmaSt) (i : Nat) : Word := (x.desc[i]?).getD Word.void

namespace State

/-- A channel's requester (R299). -/
def dmaCtx (s : State) (ch : Nat) : Ctx :=
  { who := .eng (ch / 16), part := (s.owner .dmaCh ch).getD 0, sup := s.rb (dCcfg ch) 16, req := .dma (Fin.ofNat 64 ch) }

/-- Progress of the current descriptor. -/
def dmaProg (s : State) (ch : Nat) : Nat := s.rf (dCstat ch) 47 4

/-- The framed peripheral whose DATA register a physical address is (R398). -/
def dataPer (pa : Nat) : Option PerId :=
  match findBlk pa with
  | some (b, i, off) => if off = 8 then (match perOf b i with | some p => if perFramed p then some p else none | none => none) else none
  | none => none

/-- The last access of a descriptor to the DATA register of a framed peripheral ends the frame (R398). -/
def dmaFrameEnd (s : State) (ch : Nat) : State :=
  let d := s.dmaCh ch
  let c := (d.word 0).pay
  if ctlDfix c && s.dmaProg ch != 0 then
    let x := s.tableDesc ((s.owner .dmaCh ch).getD 0) (ptrSel (d.word 2).pay)
    match dataPer (x.base + ptrOff (d.word 2).pay) with
    | some p => s.perEof p
    | none => s
  else s

/-- The current descriptor ends with a cause code, 0 for DONE. -/
def dmaFinish (s : State) (ch cause : Nat) : State := (s.dmaFrameEnd ch).dmaEnd ch cause

/-- A channel holds an object of a heap segment (R270). -/
def holdObj (s : State) (ch : Nat) (p : Word) : State :=
  match s.heapOf ((s.owner .dmaCh ch).getD 0) (ptrSel p.pay) with
  | some h => s.modDma ch (fun x => { x with holds := x.holds ++ [(h, 2 ^ 40 + ptrOff p.pay)] })
  | none => s

/-- A channel holds the heap region that contains an address, from its first access to it (R270). -/
def holdRegion (s : State) (ch pa : Nat) : State :=
  match s.heapAt pa with
  | none => s
  | some h =>
    let r := (pa - s.heapBase h) / 131072
    if (s.dmaCh ch).holds.contains (h, r) then s
    else (s.modDma ch (fun x => { x with holds := x.holds ++ [(h, r)] })).modHeap h (fun x => { x with holds := Tab.modify x.holds r 0 (· + 1) })

end State

/-! The start of a descriptor (R302). -/

/-- The words of the descriptor line, each checked by R76. -/
def dmaReadLine (x : Ctx) (sel off : Nat) : Nat → MM (List Loc)
  | 0 => pure []
  | k + 1 => do
    let l ← x.resolve sel (off + (7 - k)) .read
    let t ← dmaReadLine x sel off k
    pure (l :: t)

/-- R248 on the words at locations, in order. -/
def allOffsetOk (x : Ctx) : List Loc → MM Unit
  | [] => pure ()
  | l :: t => do
    x.offsetOk l
    allOffsetOk x t

/-- Table 11-6 and the ranges of Table 11-5 (R302 step 2). -/
def dmaLegal (ws : List Word) : Bool :=
  let w := fun (i : Nat) => (ws[i]?).getD Word.void
  let c := (w 0).pay
  let idxOk := fun (i : Word) (mode : Nat) =>
    i.tag != Tag.fix || (match mode with
      | 0 => if ctlOp c = 1 then decide (i.pay.toNat < 8) else i.pay == 0#64
      | 1 => decide (0 ≤ i.pay.toInt)
      | _ => true)
  (w 0).tag == Tag.fix && fld c 63 24 == 0 && fld c 15 13 == 0 && fld c 5 4 == 0 && fld c 1 0 == 0 && decide (ctlOp c < 2) && ctlSmode c != 3 &&
    decide (ctlDmode c < 2) && !(ctlSfix c && ctlSmode c == 1) && !(ctlDfix c && ctlDmode c == 1) && !(ctlSmode c == 2 && ctlOp c == 1) &&
    (w 6 == nilW || ((w 6).tag == Tag.fix && fld (w 6).pay 2 0 == 0)) && idxOk (w 4) (ctlSmode c) && idxOk (w 5) (ctlDmode c) &&
    ((w 3).tag != Tag.fix || decide ((w 3).pay.toNat < 2 ^ 40))

/-- A SRC or DST word is one that Table 11-5 accepts (R302 step 3). -/
def dmaSideOk (s : State) (c : W64) (mode : Nat) (w : Word) : Bool :=
  match mode with
  | 0 => w.tag == Tag.fix || w.tag == Tag.raww
  | 1 => s.isPtr w.tag && !s.malformed w && (ctlOp c == 0 || w.tag == Tag.byt)
  | _ => !s.malformed w

/-- The fill word is one that the channel may store (R37, R304). -/
def dmaFillOk (s : State) (x : Ctx) (w : Word) (dst : Word) : Bool :=
  !isStructural w.tag || (x.sup && w.tag != Tag.fwd && (s.tableDesc x.part (ptrSel dst.pay)).typ != segHEAP)

/-- R54 for the whole range of an object-mode side, after the load barrier on its pointer, the descriptor word at pa (R302 step 5, R270). -/
def dmaSide (x : Ctx) (ch : Nat) (c : W64) (p : Word) (pa : Option Nat) (opnd : Nat) (idx n : Nat) (dst : Bool) : MM Word := do
  let p ← x.deliver p pa true false
  x.ptrArg p opnd
  if p.tag = Tag.cons then
    need (decide (idx + n ≤ 2)) (.of .segLimit opnd)
    upd (fun s => s.holdObj ch p)
    pure p
  else do
    let (off, h) ← x.header p opnd
    let room := if ctlOp c = 1 then 8 * Ctx.size h - fld h 47 40 else Ctx.size h
    need (decide (idx + n ≤ room)) (.of .segLimit opnd)
    need (!(dst && bitAt h 55)) (.of .segRights opnd)
    let p : Word := ⟨p.tag, ptrPay (ptrSel p.pay) off⟩
    upd (fun s => s.holdObj ch p)
    pure p

/-- The words at locations, in order. -/
def readAll (x : Ctx) : List Loc → MM (List Word)
  | [] => pure []
  | l :: t => do
    let w ← x.readRaw l
    let ws ← readAll x t
    pure (w :: ws)

/-- Reading and checking a descriptor (R302): R76 on its line, R248, MEM_UNCORR, then its words; it stands in the channel when all checks have passed. -/
def dmaFetch (x : Ctx) (ch : Nat) (a : W64) : MM Unit := do
  let ls ← dmaReadLine x (ptrSel a) (ptrOff a) 8
  allOffsetOk x ls
  let ws ← readAll x ls
  upd (fun s => s.modDma ch (fun d => { d with desc := ws }))
  let w := fun (i : Nat) => (ws[i]?).getD Word.void
  let user ← x.deliver (w 7) (ls[7]?.map (·.pa)) true false
  upd (fun s => s.modDma ch (fun d => { d with desc := d.desc.set 7 user }))
  need (dmaLegal ws) (.of .illegal)
  let c := (w 0).pay
  let s ← get
  need (dmaSideOk s c (ctlSmode c) (w 1)) (.of .tag)
  need (dmaSideOk s c (ctlDmode c) (w 2)) (.of .tag)
  need ((w 3).tag == Tag.fix && (w 4).tag == Tag.fix && (w 5).tag == Tag.fix) (.of .tag)
  let n := (w 3).pay.toNat
  if ctlSmode c = 2 then do
    need (dmaFillOk s x (w 1) (w 2)) (.of .priv)
    let f ← x.deliver (w 1) (ls[1]?.map (·.pa)) true false
    upd (fun s => s.modDma ch (fun d => { d with desc := d.desc.set 1 f }))
  if ctlSmode c = 1 then do
    let p ← dmaSide x ch c (w 1) (ls[1]?.map (·.pa)) 0 (w 4).pay.toNat n false
    upd (fun s => s.modDma ch (fun d => { d with srcP := p }))
  if ctlDmode c = 1 then do
    let p ← dmaSide x ch c (w 2) (ls[2]?.map (·.pa)) 0 (w 5).pay.toNat n true
    upd (fun s => s.modDma ch (fun d => { d with dstP := p }))

/-! Movement. -/

/-- A side of a descriptor is in object mode. -/
def DmaSt.byObject (d : DmaSt) (dst : Bool) : Bool :=
  let c := (d.word 0).pay
  (if dst then ctlDmode c else ctlSmode c) == 1

/-- The location of word k of a side, and whether its object is a WEAK. -/
def dmaLoc (x : Ctx) (d : DmaSt) (dst : Bool) (k : Nat) : MM (Loc × Bool) := do
  let c := (d.word 0).pay
  let a : Acc := if dst then .write else .read
  let fixed := if dst then ctlDfix c else ctlSfix c
  if d.byObject dst then do
    let p := if dst then d.dstP else d.srcP
    let base := if p.tag = Tag.cons then ptrOff p.pay else ptrOff p.pay + 1
    let l ← x.resolve (ptrSel p.pay) (base + k) a
    pure (l, p.tag == Tag.weak)
  else do
    let w := if dst then d.word 2 else d.word 1
    let l ← x.resolve (ptrSel w.pay) (ptrOff w.pay + if fixed then 0 else k) a
    pure (l, false)

/-- R248 on a word of a side in offset mode, and the hold of its region (R270). -/
def dmaHold (x : Ctx) (ch : Nat) (d : DmaSt) (dst : Bool) (l : Loc) : MM Unit := do
  if d.byObject dst then pure ()
  else do
    x.offsetOk l
    upd (fun s => s.holdRegion ch l.pa)

/-- A word a channel may read (R37, R304): no FWD; HDR and RET with SUP 1 and a destination outside TYPE HEAP. -/
def dmaMayRead (x : Ctx) (w : Word) (dst : Loc) : Bool :=
  !isStructural w.tag || (x.sup && w.tag != Tag.fwd && dst.desc.typ != segHEAP)

/-- The checks of a store of w at a destination (R132 steps 6 and 7, R246, R303, R304): the old word, none where the store overwrites no word
of memory or, in fill mode with SUP 1, a poisoned one. -/
def dmaStoreChk (x : Ctx) (l : Loc) (w : Word) (fill : Bool) : MM (Option Word) := do
  if isIo l.pa then do
    need (w.tag == Tag.fix || w.tag == Tag.raww) (.of .tag)
    pure none
  else if Ctx.ring l.pa then pure none
  else do
    let s ← get
    if fill && x.sup && (s.peekWord l.pa).2 == Ecc.Status.uncorr then do
      need (s.storeOk x.part w l.sel l.desc l.pa) (.at .segRights l.sel l.off)
      pure none
    else do
      let old ← x.readRaw l
      need (dmaMayRead x old l) (.at .priv l.sel l.off)
      let s ← get
      need (s.storeOk x.part w l.sel l.desc l.pa) (.at .segRights l.sel l.off)
      pure (some old)

/-- The write of a word, or of n octets of a register, at a destination that has passed its checks, with the write barrier on its old word. -/
def dmaPut (x : Ctx) (l : Loc) (w : Word) (n : Nat) (old : Option Word) : MM Unit :=
  upd (fun s =>
    if isIo l.pa then s.ioWriteN x.req l.pa w.pay n
    else if Ctx.ring l.pa then s
    else (match old with | some o => s.storeLog x.who x.part o l.pa | none => s).whoWrite x.who l.pa false w)

/-- One word of a WORD descriptor (R303): word k of the source, or the fill word, goes to word k of the destination. R132 steps 4 to 7 come
first, then R246, then R248; a register is read last. -/
def dmaWord (x : Ctx) (ch : Nat) (d : DmaSt) (k : Nat) : MM Unit := do
  let c := (d.word 0).pay
  let si := if ctlSmode c = 1 then (d.word 4).pay.toNat else 0
  let di := if ctlDmode c = 1 then (d.word 5).pay.toNat else 0
  if ctlSmode c = 2 then do
    let (dl, _) ← dmaLoc x d true (di + k)
    let old ← dmaStoreChk x dl (d.word 1) true
    dmaHold x ch d true dl
    dmaPut x dl (d.word 1) 8 old
  else do
    let (sl, wk) ← dmaLoc x d false (si + k)
    let (dl, _) ← dmaLoc x d true (di + k)
    let w ← if isIo sl.pa then pure (⟨Tag.raww, 0#64⟩ : Word) else do
      let w ← x.readRaw sl
      need (dmaMayRead x w dl) (.at .priv sl.sel sl.off)
      x.deliver w (some sl.pa) (ctlSmode c == 0) (wk && si + k == 0)
    let old ← dmaStoreChk x dl w false
    dmaHold x ch d false sl
    dmaHold x ch d true dl
    let w ← if isIo sl.pa then x.readRaw sl else pure w
    dmaPut x dl w 8 old

/-- The octets of a word of the source from position pos on (R305). -/
def dmaSrcOctets (x : Ctx) (l : Loc) (pos n : Nat) : MM (List Octet) := do
  let w ← x.readRaw l
  need (!isStructural w.tag || x.sup && w.tag != Tag.fwd) (.at .priv l.sel l.off)
  need (w.tag == Tag.raww) (.at .tag l.sel l.off)
  pure (((octetsOf 8 w.pay).drop pos).take n)

/-- The octets of the destination word as they stand, for a partial write of it (R305). -/
def dmaDstOctets (x : Ctx) (l : Loc) : MM (List Octet × Option Word) := do
  if isIo l.pa || Ctx.ring l.pa then pure (List.replicate 8 0#8, none)
  else do
    let old ← dmaStoreChk x l ⟨Tag.raww, 0#64⟩ false
    let t := (old.getD Word.void).tag
    need (t == Tag.raww || t == Tag.void) (.at .tag l.sel l.off)
    pure (if t = Tag.raww then octetsOf 8 (old.getD Word.void).pay else List.replicate 8 0#8, old)

/-- Octets of one access at a fixed register start at its first octet; else octet j lies at position j mod 8 of its word (R305). -/
def octetPos (l : Loc) (fixed : Bool) (j : Nat) : Nat := if fixed && isIo l.pa then 0 else j % 8

/-- The source octets of one access go out word by word of the destination; the number bounds the pieces. Progress counts octets. -/
def dmaOut (x : Ctx) (ch : Nat) (d : DmaSt) (di : Nat) : Nat → List Octet → MM Unit
  | 0, _ => pure ()
  | _, [] => pure ()
  | k + 1, o :: os => do
    let s ← get
    let j := di + s.dmaProg ch
    let (l, _) ← dmaLoc x d true (j / 8)
    let pos := octetPos l (ctlDfix (d.word 0).pay) j
    let piece := (o :: os).take (8 - pos)
    let (was, old) ← dmaDstOctets x l
    dmaHold x ch d true l
    dmaPut x l ⟨Tag.raww, payOf (was.take pos ++ piece ++ was.drop (pos + piece.length))⟩ piece.length old
    upd (fun s => s.wf (dCstat ch) 47 4 (s.dmaProg ch + piece.length))
    dmaOut x ch d di k ((o :: os).drop (8 - pos))

/-- One access of a BYTE descriptor with at most lim octets left in the block; a register is read when all the checks of the access have been
made. -/
def dmaOctets (x : Ctx) (ch : Nat) (d : DmaSt) (lim : Nat) : MM Unit := do
  let c := (d.word 0).pay
  let s ← get
  let k := s.dmaProg ch
  let j := (d.word 4).pay.toNat + k
  let di := (d.word 5).pay.toNat
  let (sl, _) ← dmaLoc x d false (j / 8)
  let (dl, _) ← dmaLoc x d true ((di + k) / 8)
  let pos := octetPos sl (ctlSfix c) j
  let n := min lim (8 - pos)
  let os ← if isIo sl.pa then pure [] else dmaSrcOctets x sl pos n
  let _ ← dmaDstOctets x dl
  dmaHold x ch d false sl
  dmaHold x ch d true dl
  let os ← if isIo sl.pa then do
      let v ← ask (fun s => s.ioReadN x.req sl.pa false n)
      pure (((octetsOf 8 v).drop pos).take n)
    else pure os
  dmaOut x ch d di 8 (os ++ List.replicate (n - os.length) 0#8)

namespace State

/-- The channel is ready for the datapath (R306): RUN, a descriptor being moved, no wait for an object in transit, its request line asserted. -/
def dmaReady (s : State) (ch : Nat) : Bool :=
  let d := s.dmaCh ch
  let q := ctlReq (d.word 0).pay
  s.dState ch == dRun && d.phase == .move && !d.stall && (q == 0 || s.reqLine q)

/-- The channel the engine of a channel serves now. -/
def dmaActive (s : State) (e : Nat) : Nat := 16 * e + s.rf (Reg.DMA_ESTAT e) 3 0

/-- Units in a block: 64 words or 512 octets (R306). -/
def blockOf (c : W64) : Nat := if ctlOp c = 1 then 512 else 64

/-- One unit of work of a channel in a block that ends at progress stop: a word, or one access of octets; fuel bounds the block. The
descriptor ends with a fault, or DONE when all is moved; the block also ends where the request line is not asserted or the channel waits. -/
def dmaRun (ch stop : Nat) : Nat → State → State
  | 0, s => s
  | k + 1, s =>
    let d := s.dmaCh ch
    let c := (d.word 0).pay
    let n := (d.word 3).pay.toNat
    let p := s.dmaProg ch
    if n ≤ p then s.dmaFinish ch 0
    else if stop ≤ p then s
    else if !s.dmaReady ch then s
    else
      let m : MM Unit := if ctlOp c = 1 then dmaOctets (s.dmaCtx ch) ch d (min n stop - p)
        else do
          dmaWord (s.dmaCtx ch) ch d p
          upd (fun s => (s.wf (dCstat ch) 47 4 (p + 1)).countUn 0x0B (ch / 16))
      match m.run s with
      | (.ok _, s) => dmaRun ch stop k s
      | (.error (.exn e), s) => s.dmaFinish ch e.cause.code
      | (.error (.wait _), s) => s.modDma ch (fun x => { x with stall := true })

/-- A stop that is due at the block boundary where the descriptor stands ends it, FAILED with cause ABORT (R311). -/
def dmaStopDue (s : State) (ch : Nat) : State :=
  let d := s.dmaCh ch
  if d.stop && d.phase == .move && s.dmaProg ch % blockOf (d.word 0).pay == 0 then (s.dmaFinish ch 0x80).modDma ch (fun x => { x with stop := false }) else s

/-- The next channel of the engine at a boundary (R306): a ready channel of higher priority, else the next ready one of the same priority in
channel order, else the current one. -/
def dmaNext (s : State) (e : Nat) : Nat :=
  let cur := s.dmaActive e
  let pri := fun (c : Nat) => s.rf (dCcfg c) 49 48
  let order := (List.range 16).map (fun i => 16 * e + (cur % 16 + 1 + i) % 16)
  let ready := order.filter (fun c => s.dmaReady c)
  let best := ready.foldl (fun m c => min m (pri c)) 4
  if !s.dmaReady cur then (ready.find? (fun c => pri c == best)).getD cur
  else if best < pri cur then (ready.find? (fun c => pri c == best)).getD cur
  else (ready.find? (fun c => pri c == pri cur)).getD cur

/-- The channel an engine serves when it is asked to move a block: the one it serves while that is within a block, else its choice at the
boundary. -/
def dmaServes (s : State) (e : Nat) : Nat :=
  let cur := s.dmaActive e
  if (s.dmaCh cur).bound || !s.dmaReady cur then s.dmaNext e else cur

/-- A boundary at which the engine has chosen. -/
def dmaChosen (s : State) (ch : Nat) : State := if (s.dmaCh ch).bound then s.modDma ch (fun x => { x with bound := false }) else s

/-- One block of the current descriptor of the channel that the engine serves: up to the next block boundary (R303–R306). A channel that waited
for an object in transit tries again. fill and byte: the kind of descriptor that the command moves. -/
def dmaBlock (s : State) (ch : Nat) (byte fill : Bool) : State :=
  let d := s.dmaCh ch
  let c := (d.word 0).pay
  if s.dState ch == dRun && d.phase == .move && (ctlOp c == 1) == byte && (ctlSmode c == 2) == fill then
    let s := s.dmaStopDue ch
    let t := if d.stall then s.modDma ch (fun x => { x with stall := false }) else s
    if t.dmaReady ch && t.dmaServes (ch / 16) == ch then
      let t := (t.dmaChosen (t.dmaActive (ch / 16))).wf (Reg.DMA_ESTAT (ch / 16)) 3 0 (ch % 16)
      let b := blockOf c
      let stop := (t.dmaProg ch / b + 1) * b
      let t := dmaRun ch stop (b + 1) t
      let t := if (t.dmaCh ch).phase == .move && t.dmaProg ch == stop then t.modDma ch (fun x => { x with bound := true }) else t
      t.dmaStopDue ch
    else s
  else s

/-- DMA_DESCRIPTOR_START (R302): in phase READ of a running channel. -/
def dmaDescriptor (s : State) (ch : Nat) : State :=
  let d := s.dmaCh ch
  if s.dState ch == dRun && d.phase == .read then
    let s := (s.dmaBegin ch).ioW (dCcur ch) (headWord (ptrSel d.addr) (ptrOff d.addr))
    let s := s.modDma ch (fun x => { x with desc := [] })
    match (dmaFetch (s.dmaCtx ch) ch d.addr).run s with
    | (.ok _, s) =>
      let s := s.modDma ch (fun x => { x with phase := .move })
      if ((s.dmaCh ch).word 3).pay = 0#64 then s.dmaFinish ch 0 else s
    | (.error (.exn e), s) => s.dmaFinish ch e.cause.code
    | (.error (.wait _), s') => (s'.dmaRelease ch).wf (dCstat ch) 63 48 (s.rf (dCstat ch) 63 48 + 65535)
  else s

/-- DMA_BLOCK_BOUNDARY: the current descriptor of the engine stands at a block boundary, or its channel is not ready. -/
def dmaBoundary (s : State) (e : Nat) : State :=
  let s := forN 16 (fun i s => s.dmaStopDue (16 * e + i)) s
  let cur := s.dmaActive e
  let at_ := s.dmaProg cur % blockOf ((s.dmaCh cur).word 0).pay == 0
  if at_ || !s.dmaReady cur then (s.dmaChosen cur).wf (Reg.DMA_ESTAT e) 3 0 (s.dmaNext e % 16) else s

/-- DMA_RECORD_PUSH: the channel's oldest record, in phase RECORD. -/
def dmaRecordOut (s : State) (ch : Nat) : State :=
  if s.dState ch == dRun && (s.dmaCh ch).phase == .record then s.dmaPushRecord ch else s

/-- CQWAIT_RETRY: a channel in CQWAIT tries its push again, 1 µs later, and the records that a reset left are tried again (R13, R310). -/
def dmaRetry (s : State) (ch : Nat) : State :=
  if s.dState ch == dCqwait then ((s.advanceTo (s.now + 1000)).dmaRetryLate ch).dmaPushRecord ch
  else if (s.dmaCh ch).late.isEmpty then s
  else (s.advanceTo (s.now + 1000)).dmaRetryLate ch

end State

/-! The commands. -/

/-- A register write of a channel's CCMD with one bit set (R300, R310, R311, R313). -/
def ccmdWrite (r : Req) (ch : Fin 64) (v : W64) (s : State) : State :=
  s.ioWrite r (Reg.DMA_CCMD (ch.val / 16) (ch.val % 16)) v

/-- CCMD_START (R300). -/
def execCcmdStart (r : Req) (ch : Fin 64) (s : State) : Host.Outcome State Fault Refusal := whenUp s (ccmdWrite r ch 1#64)
/-- CCMD_STOP (R311). -/
def execCcmdStop (r : Req) (ch : Fin 64) (s : State) : Host.Outcome State Fault Refusal := whenUp s (ccmdWrite r ch 2#64)
/-- CCMD_CLEAR (R310). -/
def execCcmdClear (r : Req) (ch : Fin 64) (s : State) : Host.Outcome State Fault Refusal := whenUp s (ccmdWrite r ch 4#64)
/-- DMA_DESCRIPTOR_START (R302). -/
def execDmaDescriptorStart (ch : Fin 64) (s : State) : Host.Outcome State Fault Refusal := whenUp s (fun s => s.dmaDescriptor ch.val)
/-- DMA_WORD_TRANSFER (R303). -/
def execDmaWordTransfer (ch : Fin 64) (s : State) : Host.Outcome State Fault Refusal := whenUp s (fun s => s.dmaBlock ch.val false false)
/-- DMA_BYTE_TRANSFER (R305). -/
def execDmaByteTransfer (ch : Fin 64) (s : State) : Host.Outcome State Fault Refusal := whenUp s (fun s => s.dmaBlock ch.val true false)
/-- DMA_FILL_TRANSFER (R304). -/
def execDmaFillTransfer (ch : Fin 64) (s : State) : Host.Outcome State Fault Refusal := whenUp s (fun s => s.dmaBlock ch.val false true)
/-- DMA_BLOCK_BOUNDARY (R306). -/
def execDmaBlockBoundary (e : Fin 4) (s : State) : Host.Outcome State Fault Refusal := whenUp s (fun s => s.dmaBoundary e.val)
/-- DMA_RECORD_PUSH (R307). -/
def execDmaRecordPush (ch : Fin 64) (s : State) : Host.Outcome State Fault Refusal := whenUp s (fun s => s.dmaRecordOut ch.val)
/-- CQWAIT_RETRY (R310). -/
def execCqwaitRetry (ch : Fin 64) (s : State) : Host.Outcome State Fault Refusal := whenUp s (fun s => s.dmaRetry ch.val)

end Sys2Proof.Machine
end

