-- ==== Sys2Proof/Machine/Meld.lean ====
section
/-!
DEFINITION. Meld's commands (spec 12 R323–R331): the checks of R325, the propagation of facts through a network as a computation on a working
copy of its memories, the commit of R322 and R326, and the items and the record it pushes; and the rows of the network registers.
-/
namespace Sys2Proof.Machine

open Sys2Proof

/-- The working copy of a command: the alpha memories, the live tokens (a new one under a number from 2^40 on), the retired tokens in order, the
next new number, and the value of the command's own fact. -/
structure MWork where
  net    : Nat
  ctx    : Ctx
  nodes  : List (W64 × W64 × W64 × W64)
  amem   : Tab (List Nat)
  toks   : List (Nat × MTok)
  gone   : List (Nat × MTok) := []
  next   : Nat := 2 ^ 40
  slot   : Nat := 0
  nf     : Nat := 0
  vals   : List Word := []
  deriving DecidableEq, Repr

/-- A computation of which a fault is only noted. -/
def attempt {α : Type} (m : MM α) : MM (Option α) := fun s =>
  match m s with
  | .ok a s => .ok (some a) s
  | .error (.exn _) s => .ok none s
  | .error e s => .error e s

namespace MWork

def node (w : MWork) (i : Nat) : W64 × W64 × W64 × W64 := nodeAt w.nodes i
def tok? (w : MWork) (t : Nat) : Option MTok := (w.toks.find? (fun e => e.1 == t)).map (·.2)
/-- A node test is made (Table 12-11). -/
def tick (w : MWork) : MM Unit := upd (fun s => s.modNet w.net (fun x => { x with tests := x.tests + 1 }))
def facts (w : MWork) (a : Nat) : List Nat := Tab.get w.amem a []

/-- Field k of a fact: the command's own value, or the view's word through the load barrier; VOID at and beyond NF (R317, R328). -/
def field (w : MWork) (f k : Nat) : MM Word := do
  if f = w.slot ∧ !w.vals.isEmpty then pure ((w.vals[k]?).getD Word.void)
  else do
    let s ← get
    if (s.fact w.net f).nf ≤ k then pure Word.void
    else do
      let pa := s.factAddr w.net f (1 + k)
      let (v, bad) ← ask (fun s => let (v, u, s) := s.engRead 1 pa; ((v, u), s))
      if bad then fault (.of .memUncorr) else w.ctx.deliver v (some pa) false false

/-- Constant j through the load barrier. -/
def const (w : MWork) (j : Nat) : MM Word := do
  let s ← get
  w.ctx.deliver (((s.net w.net).consts[j]?).getD Word.void) none false false

/-- A comparison that would fault, or whose operands are unordered, is false and counted in TFLT (R328). -/
def compare (w : MWork) (a b : Word) (p : Int → Bool) : MM Bool := do
  let r ← attempt (do
    let x ← w.ctx.numOf a 1
    let y ← w.ctx.numOf b 2
    match Arith.cmp x y with
    | .ok r => if r = 2 then fault (.of .tag) else pure r
    | .error e => fault e)
  match r with
  | some r => pure (p r)
  | none => do
    upd (fun s => s.satAdd Reg.MLD_MERR 63 48 1)
    pure false

/-- A test operation of Table 12-6. -/
def test (w : MWork) (op : Nat) (a b : Word) : MM Bool :=
  match op with
  | 0 => pure true
  | 1 => pure (a == b)
  | 2 => pure (a != b)
  | 3 => w.compare a b (· == 0)
  | 4 => w.compare a b (· == -1)
  | 5 => w.compare a b (fun r => r == -1 || r == 0)
  | 6 => w.compare b a (· == -1)
  | 7 => w.compare b a (fun r => r == -1 || r == 0)
  | _ => pure (a.tag == b.tag)

/-- Join test k of a node for a left token's facts and a right fact. -/
def joinTest (w : MWork) (q : W64 × W64 × W64 × W64) (left : List Nat) (f k : Nat) : MM Bool := do
  let (op, tpos, tf, ff) := nTest q k
  if op = 0 then pure true
  else do
    let a ← w.field ((left[tpos]?).getD 0) tf
    let b ← w.field f ff
    w.test op a b

/-- The tests of a JOIN or NOT for one pair. -/
def pair (w : MWork) (q : W64 × W64 × W64 × W64) (left : List Nat) (f : Nat) : MM Bool := do
  let t0 ← w.joinTest q left f 0
  if t0 then w.joinTest q left f 1 else pure false

/-- Some fact of a list satisfies a NOT for a left token, and the tests made. -/
def anyFact (w : MWork) (q : W64 × W64 × W64 × W64) (left : List Nat) : List Nat → MM Bool
  | [] => pure false
  | f :: t => do
    w.tick
    let a ← w.pair q left f
    let b ← anyFact w q left t
    pure (a || b)

/-- The node whose tokens the BMEM of a JOIN or NOT holds. -/
def leftNode (w : MWork) (m : Nat) : Option Nat :=
  let holder := fun (i : Nat) => findN w.nodes.length (fun b => (sibChain w.nodes (nChild (w.node b))).contains i)
  (holder m).bind holder

/-- The left tokens of a JOIN or NOT: the empty token where FIRST is 1. -/
def lefts (w : MWork) (m : Nat) : List (Option Nat) :=
  if nFirst (w.node m) then [none]
  else match w.leftNode m with
    | some p => (w.toks.filter (fun e => e.2.node == p)).map (fun e => some e.1)
    | none => []

/-- The facts of a left token; none where it has been withdrawn. -/
def leftFacts (w : MWork) : Option Nat → Option (List Nat)
  | none => some []
  | some t => (w.tok? t).map (·.facts)

/-- Tokens retire: those named and all that extend them (R326, R329). -/
def retire (w : MWork) (ids : List Nat) : MWork :=
  let all := forN w.toks.length (fun _ l => l ++ ((w.toks.filter (fun e =>
    !l.contains e.1 && (match e.2.parent with | some p => l.contains p | none => false))).map (·.1))) ids
  { w with
    toks := w.toks.filter (fun e => !all.contains e.1)
    gone := w.gone ++ w.toks.filter (fun e => all.contains e.1 && decide (e.1 < 2 ^ 40)) }

/-- The nodes of a chain, one by one. -/
def each (w : MWork) (f : MWork → Nat → MM MWork) : List Nat → MM MWork
  | [] => pure w
  | i :: t => do
    let w ← f w i
    each w f t

/-- What becomes of a new token: a JOIN or NOT has made it; it enters each BMEM and TERM of its CHILD chain, and left-activates what those feed.
The links go forward, so k bounds the depth. -/
def emit : Nat → MWork → Nat → Option Nat → List Nat → MM MWork
  | 0, w, _, _, _ => pure w
  | k + 1, w, m, parent, fs => do
    let t := w.next
    let w := { w with next := t + 1, toks := w.toks ++ [(t, ({ phase := .live, node := m, parent := parent, facts := fs } : MTok))] }
    let left := fun (w : MWork) (j : Nat) => do
      if (w.tok? t).isNone then pure w
      else do
        let q := w.node j
        let as := w.facts (nAmem q)
        if nKind q = 4 then
          let join := fun (w : MWork) (f : Nat) => do
            if (w.tok? t).isNone then pure w
            else do
              w.tick
              let ok ← w.pair q fs f
              if ok then emit k w j (some t) (fs ++ [f]) else pure w
          w.each join as
        else if nKind q = 5 then do
          let hit ← w.anyFact q fs as
          if hit then pure w else emit k w j (some t) fs
        else do
          w.tick
          pure w
    let child := fun (w : MWork) (b : Nat) => do
      w.tick
      if nKind (w.node b) = 6 then w.each left (sibChain w.nodes (nChild (w.node b))) else pure w
    w.each child (sibChain w.nodes (nChild (w.node m)))

/-- A fact right-activates a node with the left tokens it had when the fact entered the memory. -/
def right (w : MWork) (f m : Nat) (ls : List (Option Nat)) : MM MWork := do
  let q := w.node m
  let go := fun (w : MWork) (i : Nat) => do
    let l := (ls[i]?).getD none
    match w.leftFacts l with
    | none => pure w
    | some fs => do
      w.tick
      let ok ← w.pair q fs f
      if !ok then pure w
      else if nKind q = 4 then emit w.nodes.length w m l (fs ++ [f])
      else
        let out := (w.toks.filter (fun e => e.2.node == m && e.2.parent == l)).map (·.1)
        pure (w.retire out)
  w.each go (List.range ls.length)

/-- A fact enters a node of an ENTRY chain or of a test's CHILD chain. -/
def enter : Nat → MWork → Nat → Nat → MM MWork
  | 0, w, _, _ => pure w
  | k + 1, w, f, i => do
    let q := w.node i
    w.tick
    match nKind q with
    | 3 =>
      let rs := (chainOf w.nodes nRnext w.nodes.length (nRsucc q)).map (fun m => (m, w.lefts m))
      let w := { w with amem := Tab.set w.amem i (w.facts i ++ [f]) [] }
      w.each (fun w j => let e := (rs[j]?).getD (0, []); w.right f e.1 e.2) (List.range rs.length)
    | kd => do
      let a ← w.field f (fld q.2.1 58 56)
      let b ← if kd = 1 then w.const (fld q.2.1 15 0) else w.field f (fld q.2.1 54 52)
      let ok ← w.test (fld q.2.1 63 60) a b
      if ok then w.each (fun w j => enter k w f j) (sibChain w.nodes (nChild q)) else pure w

/-- A fact propagates from its relation's ENTRY (R326). -/
def propagate (w : MWork) (entry f : Nat) : MM MWork := w.each (fun w i => enter w.nodes.length w f i) (sibChain w.nodes entry)

/-- A fact leaves every alpha memory, the tokens that hold it retire, and each NOT it alone has blocked passes its tokens on (R326). -/
def remove (w : MWork) (f : Nat) : MM MWork := do
  let held := (w.amem.filter (fun e => e.2.contains f)).map (·.1)
  let w := { w with amem := held.foldl (fun (t : Tab (List Nat)) a => Tab.set t a ((Tab.get t a []).filter (· != f)) []) w.amem }
  let w := w.retire ((w.toks.filter (fun e => e.2.facts.contains f)).map (·.1))
  let nots := (List.range w.nodes.length).filter (fun m => nKind (w.node m) == 5 && held.contains (nAmem (w.node m)))
  let ls := nots.flatMap (fun m => (w.lefts m).map (fun l => (m, l)))
  w.each (fun w j => do
    let (m, l) := (ls[j]?).getD (0, none)
    match w.leftFacts l with
    | none => pure w
    | some fs =>
      if w.toks.any (fun e => e.2.node == m && e.2.parent == l) then pure w
      else do
        let as := w.facts (nAmem (w.node m))
        let hit ← w.anyFact (w.node m) fs as
        if hit then pure w else emit w.nodes.length w m l fs) (List.range ls.length)

end MWork

namespace State

/-! The commit (R322, R326). -/

/-- The FREE slot that is taken next: the lowest never used since the load, else the one that left ASH earliest (R320). -/
def freeFact (s : State) (n : Nat) : Option Nat :=
  let t := (s.net n).facts
  match findN (s.nFcap n) (fun i => let x := Tab.get t i {}; x.phase == .free && x.freedAt == 0) with
  | some i => some i
  | none => ((t.filter (fun e => e.2.phase == .free && decide (e.1 < s.nFcap n))).foldl (fun (b : Option (Nat × Nat)) e =>
      match b with
      | some (_, a) => if e.2.freedAt < a then some (e.1, e.2.freedAt) else b
      | none => some (e.1, e.2.freedAt)) none).map (·.1)
def freeTok (s : State) (n : Nat) : Option Nat :=
  let t := (s.net n).toks
  match findN (s.nTcap n) (fun i => let x := Tab.get t i {}; x.phase == .free && x.freedAt == 0) with
  | some i => some i
  | none => ((t.filter (fun e => e.2.phase == .free && decide (e.1 < s.nTcap n))).foldl (fun (b : Option (Nat × Nat)) e =>
      match b with
      | some (_, a) => if e.2.freedAt < a then some (e.1, e.2.freedAt) else b
      | none => some (e.1, e.2.freedAt)) none).map (·.1)
/-- Token slots that are FREE. -/
def freeToks (s : State) (n : Nat) : Nat := s.nTcap n - ((s.net n).toks.filter (fun e => e.2.phase != .free)).length

/-- The identifier of a fact slot now. -/
def idOf (s : State) (n f : Nat) : Word := factId n (s.fact n f).gen f

/-- The fields of a fact are committed; those a command does not name stay as they are. -/
def commitFact (s : State) (n i rel nf : Nat) (vals : List (Nat × Word)) : State :=
  let f := s.fact n i
  let s := if f.phase == .live then s else s.wf (Reg.MLD_NUSE n) 63 39 (s.rf (Reg.MLD_NUSE n) 63 39 + 1)
  let f := { f with phase := .live, rel := rel, nf := nf, ver := (f.ver + 2) % 65536, used := true }
  let s := vals.foldl (fun s e => s.viewWrite n (s.factAddr n i (1 + e.1)) e.2) (s.setFact n i f)
  (s.viewWrite n (s.factAddr n i 9) (fixN s.now)).viewWrite n (s.factAddr n i 0) (factHdr f)

/-- A new token takes slot t. -/
def commitTok (s : State) (n t : Nat) (x : MTok) : State :=
  let o := s.tok n t
  let x := { x with phase := .live, gen := o.gen, freedAt := o.freedAt, used := true }
  let s := s.setTok n t x
  let s := forN 8 (fun j s => s.viewWrite n (s.tokAddr n t (1 + j)) (match x.facts[j]? with | some f => s.idOf n f | none => nilW)) s
  let s := (s.viewWrite n (s.tokAddr n t 9) Word.void).viewWrite n (s.tokAddr n t 0) (tokHdr x)
  s.wf (Reg.MLD_NUSE n) 38 14 (s.rf (Reg.MLD_NUSE n) 38 14 + 1)

/-- The slots of the tokens of a working copy that are new, in order: old number to slot, and the state with them committed. -/
def commitToks (s : State) (n : Nat) (m : List (Nat × Nat)) : List (Nat × MTok) → List (Nat × Nat × MTok) × State
  | [] => ([], s)
  | (t, x) :: rest =>
    match s.freeTok n with
    | none => ([], s)
    | some i =>
      let par := x.parent.map (fun p => ((m.find? (fun e => e.1 == p)).map (·.2)).getD p)
      let s := s.commitTok n i { x with parent := par }
      let (l, s) := s.commitToks n ((t, i) :: m) rest
      ((t, i, s.tok n i) :: l, s)

/-- The TERM nodes a token of a node has reached. -/
def termsOf (nodes : List (W64 × W64 × W64 × W64)) (m : Nat) : List Nat :=
  let c := sibChain nodes (nChild (nodeAt nodes m))
  let deep := c.flatMap (fun b => if nKind (nodeAt nodes b) = 6 then sibChain nodes (nChild (nodeAt nodes b)) else [b])
  deep.filter (fun j => nKind (nodeAt nodes j) == 7)

/-- An activation, or a CANCEL item (Table 12-12). -/
def actItem (s : State) (n kind slot : Nat) (x : MTok) (q : W64 × W64 × W64 × W64) : Item × MDest :=
  let id := fun (k : Nat) => match x.facts[k]? with | some f => s.idOf n f | none => nilW
  (⟨fixW (putFld 63 62 kind ||| putFld 61 59 n ||| putFld 58 56 (x.facts.length - 1) ||| putFld 55 48 (fld q.2.1 15 8) ||| putFld 47 32 x.gen |||
      putFld 31 0 slot), fixW (putFld 23 20 (fld q.2.1 3 0) ||| putFld 19 0 (fld q.2.1 51 32)), id 0, id 1⟩, .agenda (fld q.2.1 3 0))

/-- The order of activations: descending SAL, ascending RULE, ascending TSLOT (R330). -/
def actBefore (a b : Item) : Bool :=
  let sal := fun (i : Item) => sfld i.w0.pay 55 48
  let rule := fun (i : Item) => fld i.w1.pay 19 0
  let slot := fun (i : Item) => fld i.w0.pay 31 0
  decide (sal b < sal a) || (sal a == sal b && (decide (rule a < rule b) || (rule a == rule b && decide (slot a ≤ slot b))))
def insertAct (e : Item × MDest) : List (Item × MDest) → List (Item × MDest)
  | [] => [e]
  | h :: t => if actBefore e.1 h.1 then e :: h :: t else h :: insertAct e t

/-- The record of a command goes out after its items (R326, R327). -/
def meldFinish (s : State) (n : Nat) (r : MRec) (outs : List (Item × MDest)) : State :=
  (s.modNet n (fun x => { x with rcd := some r, outs := outs })).meldDrain n outs

/-- The nodes of a network in order. -/
def netNodes (s : State) (n : Nat) : List (W64 × W64 × W64 × W64) := (s.net n).nodes.map (·.2)

/-- The working copy of a network. -/
def meldWork (s : State) (n : Nat) (x : Ctx) : MWork :=
  { net := n, ctx := x, nodes := s.netNodes n, amem := (s.net n).amem, toks := (s.net n).toks.filter (fun e => e.2.phase == .live) }

end State

/-! The checks of R325. -/

/-- A command that has passed its checks: its fact slot where it names one, the relation and NF, and the fields it replaces. -/
structure MCmd where
  op   : Nat
  slot : Nat := 0
  rel  : Nat := 0
  nf   : Nat := 0
  vals : List (Nat × Word) := []
  deriving DecidableEq, Repr

/-- The elements of a VEC that a command reads: all are checked before any is read (R325 steps 3 and 4). bad: the barrier met an uncorrectable
header for a word of the item. -/
def meldElems (x : Ctx) (p : Word) (bad : Bool) (idx : List Nat) : MM (List (Nat × Word)) := do
  let locs ← idx.mapM (fun (i : Nat) => do
    let (l, _) ← x.elemLoc p 2 (i : Int) 2 false
    pure (i, l))
  need (!bad) (.of .memUncorr)
  locs.mapM (fun (e : Nat × Loc) => do
    let w ← x.load e.2
    pure (e.1, w))

/-- Word 1 is refused by Table 12-10. -/
def meldW1Bad (s : State) (op : Nat) (w : Word) : Bool := s.malformed w || !(if op = 1 then w == nilW else w.tag == Tag.fix)

/-- The checks of a command in order. -/
def meldCheck (x : Ctx) (n : Nat) (it : Item) (bad : Bool) : MM MCmd := do
  let s ← get
  let h := it.w0.pay
  let op := fld h 63 60
  let known := decide (1 ≤ op) && decide (op ≤ 4)
  let tag := Exn.of .tag
  let ill := Exn.of .illegal
  need (it.w0.tag == Tag.fix) tag
  need (!s.malformed it.w1 && (!known || !meldW1Bad s op it.w1)) tag
  need (!s.malformed it.w2 && (if op = 1 ∨ op = 4 then it.w2.tag == Tag.vec else if op = 2 then it.w2 == nilW else true)) tag
  need (!s.malformed it.w3 && (it.w3.tag == Tag.que || it.w3 == nilW)) tag
  need known ill
  need (decide (fld h 47 32 = 0) && !bitAt h 51 && (op == 4 || decide (fld h 59 52 = 0)) && (op == 3 || decide (fld h 50 48 = 0)) &&
    (op == 1 || decide (fld h 31 16 = 0))) ill
  let rel := fld h 31 16
  need (op != 1 || decide (rel < (s.net n).rels.length)) ill
  let id := it.w1.pay
  let slot := fld id 31 0
  need (op == 1 || (decide (fld id 63 51 = 0) && decide (fld id 50 48 = n))) ill
  let f := s.fact n slot
  let current := f.phase == .live && f.gen == fld id 47 32 && decide (slot < s.nFcap n)
  let nf := if op = 1 then relNf (((s.net n).rels[rel]?).getD 0#64) else if current then f.nf else 8
  let mask := fld h 59 52
  need (op != 3 || decide (fld h 50 48 < nf)) ill
  need (op != 4 || (mask != 0 && decide (mask < 2 ^ nf))) ill
  let vals ← (do
    if op = 1 ∨ op = 4 then do
      let (_, hd) ← x.header it.w2 2
      need (decide (Ctx.size hd = nf) || (op == 4 && !current)) ill
      meldElems x it.w2 bad ((List.range nf).filter (fun i => op == 1 || mask.testBit i))
    else do
      need (!bad) (.of .memUncorr)
      pure (if op = 3 then [(fld h 50 48, it.w2)] else []))
  need (vals.all (fun e => !isStructural e.2.tag)) (.of .priv)
  need (op == 1 || current) (.of .stale)
  let s ← get
  need (op != 1 || (s.freeFact n).isSome) (.of .alloc)
  pure { op := op, slot := if op = 1 then (s.freeFact n).getD 0 else slot, rel := if op = 1 then rel else f.rel, nf := nf, vals := vals }

/-- The fact as it stands, read from its view (R326). -/
def factVals (w : MWork) (f nf : Nat) : Nat → MM (List Word)
  | 0 => pure []
  | k + 1 => do
    let v ← w.field f (nf - (k + 1))
    let t ← factVals w f nf k
    pure (v :: t)

/-- The changes of a command on the working copy. -/
def meldPlan (w : MWork) (c : MCmd) : MM MWork := do
  let s ← get
  let entry := relEntry (((s.net w.net).rels[c.rel]?).getD 0#64)
  let w := { w with slot := c.slot }
  if c.op = 1 then ({ w with vals := c.vals.map (·.2) } : MWork).propagate entry c.slot
  else do
    let w ← w.remove c.slot
    if c.op = 2 then pure w
    else do
      let old ← factVals w c.slot c.nf c.nf
      let new := (List.range c.nf).map (fun i => ((c.vals.find? (fun e => e.1 == i)).map (·.2)).getD ((old[i]?).getD Word.void))
      ({ w with vals := new } : MWork).propagate entry c.slot

namespace State

/-- The commit of a command and what it pushes (R322, R326, R330). -/
def meldCommit (s : State) (n : Nat) (c : MCmd) (w : MWork) : State × Word × List (Item × MDest) :=
  let nodes := w.nodes
  let cancel := w.gone.flatMap (fun e => ((termsOf nodes e.2.node).filter (fun j => bitAt (nodeAt nodes j).1 56)).map
    (fun j => s.actItem n 1 e.1 e.2 (nodeAt nodes j)))
  let fresh := w.toks.filter (fun e => decide (2 ^ 40 ≤ e.1))
  let vals := if c.op = 1 then (List.range 8).map (fun i => (i, ((c.vals.find? (fun e => e.1 == i)).map (·.2)).getD Word.void)) else c.vals
  let s := if c.op = 2 then s else s.commitFact n c.slot c.rel c.nf vals
  let ident := s.idOf n c.slot
  let s := s.modNet n (fun x => { x with amem := w.amem })
  let (made, s) := s.commitToks n [] fresh
  let acts := made.flatMap (fun e => (termsOf nodes e.2.2.node).map (fun j => s.actItem n 0 e.2.1 e.2.2 (nodeAt nodes j)))
  let acts := acts.foldl (fun l a => insertAct a l) []
  let s := w.gone.foldl (fun s e => s.retireTok n e.1) s
  let s := if c.op = 2 then s.retireFact n c.slot else s
  (s, ident, cancel ++ acts)

/-- The network enters FAULT (R337). -/
def meldFault (s : State) (n : Nat) : State :=
  let s := (s.setB Reg.MLD_MERR 2).raiseFault (70 + n) (s.nOwner n)
  s.setNState n nFault

/-- The plan of a command has been made: it commits if every entry it needs can be allocated (R326). A view word that the write barrier cannot
read undoes it, and the network enters FAULT (R337). -/
def meldEnd (s : State) (n : Nat) (c : MCmd) (r : MRec) (w : MWork) : State :=
  let r := { r with tests := (s.net n).tests }
  let s := s.countUn 0x0D n r.tests
  let tooMany := decide (s.freeToks n < (w.toks.filter (fun e => decide (2 ^ 40 ≤ e.1))).length) ||
    decide (s.nEcap n < (w.amem.map (fun e => e.2.length)).sum)
  if tooMany then s.meldFinish n { r with failed := true, cause := Cause.alloc.code } []
  else
    let log : MUndo := { facts := (s.net n).facts, toks := (s.net n).toks, amem := (s.net n).amem, nuse := s.ioR (Reg.MLD_NUSE n) }
    let (s, id, outs) := (s.modNet n (fun x => { x with undo := some log })).meldCommit n c w
    if ((s.net n).undo.map (·.bad)).getD false then
      ((s.meldUndo n).meldFault n).meldFinish n { r with failed := true, cause := Cause.memUncorr.code } []
    else s.meldFinish n { r with ident := id } outs

/-- A command taken from the input queue (R325–R327); none where it waits for an object in transit (R262). -/
def meldRun (s : State) (n : Nat) (it : Item) (bad : Bool) : Option State :=
  let x : Ctx := { who := .eng 5, part := s.nOwner n, sup := true, req := .jtag }
  let h := it.w0.pay
  let op := if it.w0.tag = Tag.fix then fld h 63 60 else 0
  let dest : MDest := if it.w3.tag = Tag.que ∧ !s.malformed it.w3 then .reply (queNum it.w3.pay) (queGen it.w3.pay) (quePush it.w3.pay) else .ncq
  let ident := if op = 1 ∨ (if 1 ≤ op ∧ op ≤ 4 then meldW1Bad s op it.w1 else it.w1.tag != Tag.fix) then nilW else it.w1
  let r : MRec := { op := op, user := if it.w0.tag = Tag.fix then fld h 15 0 else 0, ident := ident, dest := dest }
  match (meldCheck x n it bad).run (s.modNet n (fun y => { y with tests := 0 })) with
  | (.error (.exn e), s) => some (s.meldFinish n { r with failed := true, cause := e.cause.code } [])
  | (.error (.wait _), _) => none
  | (.ok c, s) =>
    match (meldPlan (s.meldWork n x) c).run s with
    | (.error (.exn e), s) =>
      some ((s.meldFault n).meldFinish n { r with failed := true, cause := e.cause.code, tests := (s.net n).tests } [])
    | (.error (.wait _), _) => none
    | (.ok w, s) => some (s.meldEnd n c r w)

/-- Network n takes the command at the head of its input queue, if that has one of some opcodes (R323). A command that waits for an object in
transit stays at the head. -/
def meldTake (s : State) (n : Nat) (mine : Nat → Bool) : State :=
  let a := Reg.MLD_NIQ n
  let q := s.rf a 15 0
  if s.nState n == nReady && s.rf Reg.MLD_MLANES 12 8 != 0 && s.rb a 32 && (s.net n).rcd.isNone && s.genCurrent q (s.rf a 31 16) &&
      s.queueOwner q == some (s.nOwner n) then
    match headItem (s.queue q) with
    | some e =>
      let op := if e.2.w0.tag = Tag.fix then fld e.2.w0.pay 63 60 else 0
      if mine op then
        match s.popItem q with
        | (.ok (some it), t) => (t.meldRun n it false).getD s
        | (.ok none, _) => s
        | (.error _, t) => ((t.modQueue q (fun x => { x with held := x.held.erase (none, e) })).meldRun n e.2 true).getD s
      else s
    | none => s
  else s

end State

/-! The rows. -/

/-- MELD_ASSERT (R326); also a command whose word 0 names no OP, which ends FAILED. -/
def execMeldAssert (n : Fin 8) (s : State) : Host.Outcome State Fault Refusal :=
  whenUp s (fun s => s.meldTake n (fun op => op == 1 || !(op == 2 || op == 3 || op == 4)))
/-- MELD_RETRACT (R326). -/
def execMeldRetract (n : Fin 8) (s : State) : Host.Outcome State Fault Refusal := whenUp s (fun s => s.meldTake n (· == 2))
/-- MELD_MODIFY1 (R326). -/
def execMeldModify1 (n : Fin 8) (s : State) : Host.Outcome State Fault Refusal := whenUp s (fun s => s.meldTake n (· == 3))
/-- MELD_MODIFYV (R326). -/
def execMeldModifyv (n : Fin 8) (s : State) : Host.Outcome State Fault Refusal := whenUp s (fun s => s.meldTake n (· == 4))
/-- MELD_PUSH_RETRY (R327): 1 µs later. -/
def execMeldPushRetry (n : Fin 8) (s : State) : Host.Outcome State Fault Refusal :=
  whenUp s (fun s => if s.rb (Reg.MLD_NSTAT n) 3 then (s.advanceTo (s.now + 1000)).meldRetry n else s)
/-- NCMD_LOAD (R318). -/
def execNcmdLoad (r : Req) (n : Fin 8) (s : State) : Host.Outcome State Fault Refusal := whenUp s (fun s => s.ioWrite r (Reg.MLD_NCMD n) 1#64)
/-- MELD_LOAD_COMPLETE (R318, R339). -/
def execMeldLoadComplete (n : Fin 8) (s : State) : Host.Outcome State Fault Refusal := whenUp s (fun s => s.meldLoadComplete n)
/-- NCMD_UNLOAD (R338). -/
def execNcmdUnload (r : Req) (n : Fin 8) (s : State) : Host.Outcome State Fault Refusal := whenUp s (fun s => s.ioWrite r (Reg.MLD_NCMD n) 2#64)
/-- MELD_UNLOAD_COMPLETE (R338). -/
def execMeldUnloadComplete (n : Fin 8) (s : State) : Host.Outcome State Fault Refusal := whenUp s (fun s => s.meldUnloadComplete n)
/-- NCMD_PAUSE (R316). -/
def execNcmdPause (r : Req) (n : Fin 8) (s : State) : Host.Outcome State Fault Refusal := whenUp s (fun s => s.ioWrite r (Reg.MLD_NCMD n) 4#64)
/-- NCMD_RESUME (R316). -/
def execNcmdResume (r : Req) (n : Fin 8) (s : State) : Host.Outcome State Fault Refusal := whenUp s (fun s => s.ioWrite r (Reg.MLD_NCMD n) 8#64)
/-- NCMD_PRELOAD (R335). -/
def execNcmdPreload (r : Req) (n : Fin 8) (s : State) : Host.Outcome State Fault Refusal := whenUp s (fun s => s.ioWrite r (Reg.MLD_NCMD n) 32#64)
/-- NCMD_CLEAR (R327). -/
def execNcmdClear (r : Req) (n : Fin 8) (s : State) : Host.Outcome State Fault Refusal := whenUp s (fun s => s.ioWrite r (Reg.MLD_NCMD n) 16#64)
/-- MLANES_WRITE (R334). -/
def execMlanesWrite (r : Req) (v : W64) (s : State) : Host.Outcome State Fault Refusal := whenUp s (fun s => s.ioWrite r Reg.MLD_MLANES v)

end Sys2Proof.Machine
end

