-- ==== Sys2Proof/Machine/Sense.lean ====
section
/-!
DEFINITION. The sampling of a Sense channel (spec 14 R384–R390): frames, conversion to a QTY, plausibility, the ring and the push to Meld.
-/
namespace Sys2Proof.Machine

open Sys2Proof

/-- The results of a sample (R387), as CSTAT.RES codes them. -/
inductive SenseRes where
  | ok (v : Int) (dim : Nat)
  | bad (code : Nat)
  deriving DecidableEq, Repr

def SenseRes.code : SenseRes → Nat
  | .ok _ _ => 0
  | .bad k => k

/-- The raw reading of a frame (R385). -/
def rawField (cf : W64) (reply : BitVec 32) : Int :=
  let rr := reply.toNat % 2 ^ fld cf 45 40
  let w := fld cf 56 51
  let u := (rr / 2 ^ fld cf 50 46) % 2 ^ w
  if bitAt cf 15 && decide (2 ^ w ≤ 2 * u) then (u : Int) - 2 ^ w else u

/-- A frame whose field lies outside it is not run (R385). -/
def frameCfg (cf : W64) : Bool := decide (fld cf 45 40 < fld cf 50 46 + fld cf 56 51)

/-- A value rounded to a QTY by R119, or none where it is out of range. -/
def qtyRound (x : Q) (dim : Nat) : Option Int :=
  match Arith.mkQty x dim with
  | .ok { val := .qty v _, .. } => some v
  | _ => none

namespace State

/-- A payload of table t. -/
def stab (s : State) (t j : Nat) : W64 := s.ioR (Reg.SNS_STAB (32 * t + j))

/-- The dimensions of a channel's configuration agree (R386); the dimension of its result. -/
def senseDims (s : State) (ch : Nat) : Option Nat :=
  let tab := s.rf (Reg.SNS_CFRAME ch) 23 17
  let d := qDim (s.ioR (Reg.SNS_SCALE ch))
  let t := tab - 1
  let out := if tab = 0 then d else qDim (s.stab t 2)
  if qDim (s.ioR (Reg.SNS_OFFSET ch)) == d && decide (tab ≤ 64) &&
      (tab == 0 || (qDim (s.stab t 0) == d && qDim (s.stab t 1) == d && (List.range 17).all (fun k => qDim (s.stab t (2 + k)) == out))) &&
      ([Reg.SNS_LO ch, Reg.SNS_HI ch, Reg.SNS_RATE ch, Reg.SNS_DB ch].all (fun a => qDim (s.ioR a) == out)) then some out else none

/-- Table t maps x (R386 step 2); the value where XLO and XHI are equal is not stated. -/
def senseMap (s : State) (t : Nat) (x : Int) (dim : Nat) : Option Int × State :=
  let xlo := qVal (s.stab t 0)
  let span := qVal (s.stab t 1) - xlo
  if span ≤ 0 then
    let (n, s) := s.nextFree
    (some (Config.senseFlat n).toInt, s)
  else
    let k := min 15 (16 * (x - xlo) / span).toNat
    let y0 := qVal (s.stab t (2 + k))
    let y1 := qVal (s.stab t (3 + k))
    (qtyRound ⟨y0 * span + (y1 - y0) * (16 * (x - xlo) - k * span), (65536 * span).toNat⟩ dim, s)

/-- Conversion and the checks of R387 in order. -/
def senseConvert (s : State) (ch : Nat) (reply : BitVec 32) (same : Nat) : SenseRes × State :=
  let cf := s.ioR (Reg.SNS_CFRAME ch)
  let r := rawField cf reply
  let rr := reply.toNat % 2 ^ fld cf 45 40
  let flt := s.ioR (Reg.SNS_CFAULT ch)
  if rr &&& fld flt 63 32 ≠ fld flt 31 0 then (.bad 1, s)
  else match s.senseDims ch with
  | none => (.bad 2, s)
  | some dim =>
    let tab := fld cf 23 17
    match qtyRound ⟨r * qVal (s.ioR (Reg.SNS_SCALE ch)) + qVal (s.ioR (Reg.SNS_OFFSET ch)), 65536⟩ (qDim (s.ioR (Reg.SNS_SCALE ch))) with
    | none => (.bad 3, s)
    | some x =>
      let t := tab - 1
      if tab ≠ 0 ∧ (x < qVal (s.stab t 0) ∨ qVal (s.stab t 1) < x) then (.bad 3, s)
      else
        let (v, s) := if tab = 0 then (some x, s) else s.senseMap t x dim
        match v with
        | none => (.bad 3, s)
        | some v =>
          let rate := qVal (s.ioR (Reg.SNS_RATE ch))
          let last := qVal (s.ioR (Reg.SNS_CVAL ch))
          if v < qVal (s.ioR (Reg.SNS_LO ch)) ∨ qVal (s.ioR (Reg.SNS_HI ch)) < v then (.bad 4, s)
          else if rate ≠ 0 ∧ (s.sense ch).hasVal ∧ rate < (v - last).natAbs then (.bad 5, s)
          else if fld cf 63 57 ≠ 0 ∧ fld cf 63 57 ≤ same then (.bad 6, s)
          else (.ok v dim, s)

/-- The ring word of a sample, with the owner's supervisor rights (R388). -/
def senseRing (s : State) (ch p : Nat) (w : Word) : State :=
  let cr := s.ioR (Reg.SNS_CRING ch)
  let lg := fld cr 51 48
  if lg = 0 || (s.sense ch).ringOff then s
  else
    let x : Ctx := { who := .eng 6, part := p, sup := true, req := .jtag }
    let idx := s.rf (Reg.SNS_CSTAT ch) 63 32
    let m : MM Unit := do
      let l ← x.resolve (fld cr 63 52) (fld cr 47 0 + idx % 2 ^ lg) .write
      x.offsetOk l
      x.store l w 0
    match m.run s with
    | (.ok _, s) => s.wrapAdd (Reg.SNS_CSTAT ch) 63 32 1
    | (.error _, s) => (s.setB (Reg.SNS_CSTAT ch) 2).modSense ch (fun x => { x with ringOff := true })

/-- A sample is pushed (R389). -/
def sensePush (s : State) (ch p : Nat) (w : Word) : State :=
  let q := s.ioR (Reg.SNS_CMQ ch)
  let it : Item := ⟨fixW (putFld 63 60 3 ||| putFld 50 48 (fld q 42 40) ||| putFld 15 0 ch), fixW (s.ioR (Reg.SNS_CFACT ch)), w, nilW⟩
  let (r, s) := s.enginePush p (fld q 15 0) (fld q 31 16) it
  match r with
  | none => s.modSense ch (fun x => { x with refused := false, pushed := if w.tag = Tag.qty then some w.pay else x.pushed })
  | some _ => (s.setB (Reg.SNS_CSTAT ch) 3).modSense ch (fun x => { x with refused := true })

/-- A plausible value differs from the last pushed one by DB or more (R389). -/
def senseMoved (s : State) (ch : Nat) (v : Int) (dim : Nat) : Bool :=
  match (s.sense ch).pushed with
  | none => true
  | some o => qDim o != dim || decide (qVal (s.ioR (Reg.SNS_DB ch)) ≤ (v - qVal o).natAbs)

/-- A sample with its result (R387–R389). -/
def senseResult (s : State) (ch : Nat) (r : SenseRes) : State :=
  let was := (s.sense ch).bad
  let s := (s.wf (Reg.SNS_CSTAT ch) 27 24 r.code).countUn 0x17 (s.snsPort ch)
  let s := match r with | .ok _ _ => s | .bad _ => s.countUn 0x18 (s.snsPort ch)
  let moved := match r with | .ok v d => s.senseMoved ch v d || was | .bad _ => !was && (s.sense ch).hasVal
  let go := moved || (s.sense ch).refused
  let (w, s) : Word × State := match r with
    | .ok v d =>
      (⟨Tag.qty, qPay v d⟩, (s.ioW (Reg.SNS_CVAL ch) (qPay v d)).modSense ch (fun x => { x with fails := 0, hasVal := true, bad := false }))
    | .bad _ =>
      let n := (s.sense ch).fails + 1
      let s := s.modSense ch (fun x => { x with fails := n, bad := true })
      (unboundW, if s.rf (Reg.SNS_CPLAUS ch) 7 0 ≤ n then s.setB (Reg.SNS_CSTAT ch) 0 else s)
  let s := s.senseInput ch
  match s.owner .sense ch with
  | none => s
  | some p =>
    let s := s.senseRing ch p w
    if s.rb (Reg.SNS_CMQ ch) 32 && go then s.sensePush ch p w else s

/-- A port starts the frame of its lowest-numbered due channel (R384, R385). -/
def senseStart (s : State) (port : Nat) : State :=
  if Tab.get s.stk.frame port 0 ≠ 0 then s
  else match s.nextDue port with
  | none => s
  | some ch =>
    let s := s.modSense ch (fun x => { x with due := false })
    if frameCfg (s.ioR (Reg.SNS_CFRAME ch)) then s.senseResult ch (.bad 2)
    else s.modStk (fun x => { x with frame := Tab.set x.frame port (ch + 1) 0 })

/-- The frame a port runs ends with what the converter replied (R385–R390). -/
def senseEnd (s : State) (port : Nat) (reply : BitVec 32) : State :=
  match Tab.get s.stk.frame port 0 with
  | 0 => s
  | ch + 1 =>
    let s := s.modStk (fun x => { x with frame := Tab.set x.frame port 0 0 })
    let s := s.ioW (Reg.SNS_CTIME ch) (n64 s.now)
    let r := rawField (s.ioR (Reg.SNS_CFRAME ch)) reply
    let same := if (s.sense ch).lastR = some r then (s.sense ch).same + 1 else 1
    let s := s.modSense ch (fun x => { x with lastR := some r, same := same })
    let (res, s) := s.senseConvert ch reply same
    s.senseResult ch res

end State

/-! The rows. -/

/-- SENSE_CHANNEL_DUE (R384). -/
def execSenseChannelDue (ch : Fin 512) (s : State) : Host.Outcome State Fault Refusal := whenUp s (fun s => s.senseDue ch)
/-- SENSE_FRAME_START (R385). -/
def execSenseFrameStart (port : Fin 8) (s : State) : Host.Outcome State Fault Refusal := whenUp s (fun s => s.senseStart port)
/-- SENSE_FRAME_END (R386). -/
def execSenseFrameEnd (port : Fin 8) (reply : BitVec 32) (s : State) : Host.Outcome State Fault Refusal := whenUp s (fun s => s.senseEnd port reply)
/-- SENSE_FAULT_CLEAR (R387). -/
def execSenseFaultClear (r : Req) (ch : Fin 512) (s : State) : Host.Outcome State Fault Refusal :=
  whenUp s (fun s => s.ioWrite r (Reg.SNS_CSTAT ch) 2#64)
/-- CRING_WRITE (R388). -/
def execCringWrite (r : Req) (ch : Fin 512) (v : W64) (s : State) : Host.Outcome State Fault Refusal :=
  whenUp s (fun s => s.ioWrite r (Reg.SNS_CRING ch) v)

end Sys2Proof.Machine
end

