-- ==== Sys2Proof/Machine/Operands.lean ====
section
/-!
DEFINITION. The operands of core instructions (spec 03 R63, R69, R77, R81, spec 04 R93, R131): the registers that a 5-bit field names at the
current level, the segment registers, the status registers, and the groups an instruction uses.
-/
namespace Sys2Proof.Machine

open Sys2Proof

/-- The group of a register number (Table 3-1, Table 4-1). -/
def regGrp (r : Nat) : Nat := if r < 8 then grpG else grpW
def regGrps (l : List Nat) : Nat := l.foldl (fun m r => m ||| regGrp r) 0

/-- The physical hand register that a register number of 8 or above names while CHP holds h (R63). -/
def handKey (h r : Nat) : Nat :=
  if r < 16 then (h + 1) % 16 * 16 + 8 + (r - 8)
  else if r < 24 then h * 16 + (r - 16)
  else h * 16 + 8 + (r - 24)

namespace State

/-- The register a number names (Table 4-1, R63, R69). -/
def reg (s : State) (c r : Nat) : Word :=
  let x := s.core c
  if s.snap c then (if r < 8 then Tab.get x.snapG r Word.void else Tab.get x.snapHand (r - 8) Word.void)
  else if r < 8 then Tab.get x.g r Word.void
  else Tab.get x.hands (handKey (s.chp c) r) Word.void

/-- A register written, with no dirty mark. -/
def putReg (s : State) (c r : Nat) (w : Word) : State :=
  if s.snap c then s.modCore c (fun x => if r < 8 then { x with snapG := Tab.set x.snapG r w Word.void }
    else { x with snapHand := Tab.set x.snapHand (r - 8) w Word.void })
  else if r < 8 then s.modCore c (fun x => { x with g := Tab.set x.g r w Word.void })
  else s.modCore c (fun x => { x with hands := Tab.set x.hands (handKey (s.chp c) r) w Word.void })

/-- A register written by an instruction (R81). -/
def setReg (s : State) (c r : Nat) (w : Word) : State := (s.putReg c r w).dirty c (regGrp r)

/-- A segment register's selector (R77). -/
def sgR (s : State) (c k : Nat) : Nat :=
  if s.snap c then Tab.get (s.core c).snapSg k 0 else Tab.get (s.core c).sg k 0

/-- The raw flags of an instruction (R107, R129). -/
def putFlags (s : State) (c : Nat) (f : RawFlags) : State := (s.asrW c (asrWithFlags (s.asrR c) f)).dirty c grpQ

/-- The sticky bits an instruction sets (R107). -/
def putSticky (s : State) (c : Nat) (ff : FFlags) (qnx prom : Bool) : State :=
  let s := if qnx || prom then (s.asrW c (asrSticky (s.asrR c) qnx prom)).dirty c grpQ else s
  if ff = 0#5 then s else (s.fsrW c (fsrSticky (s.fsrR c) ff)).dirty c grpQ

/-- FSR.RM and FSR.TDZ. -/
def fsrRm (s : State) (c : Nat) : Nat := fld (s.fsrR c) 10 9
def fsrTdz (s : State) (c : Nat) : Bool := bitAt (s.fsrR c) 8

/-- The lowest absent group of a mask; none at CL 6 (R81). -/
def absentOf (s : State) (c m : Nat) : Option Nat :=
  if s.snap c then none else findN 5 (fun g => m.testBit g && s.absent c (8 + g))

/-- How a core accesses memory. -/
def coreCtx (s : State) (c : Nat) : Ctx :=
  { who := .core c, part := s.corePart c, sup := s.sup c, req := .core (Fin.ofNat 64 c),
    peek := s.cl c == 1 && s.rb (Reg.DBG_DBGCTL c) 4 }

end State

/-- The registers an instruction's fields name, for XOP (spec 07): a, b and d. -/
structure Opnds where
  a : Option Nat := none
  b : Option Nat := none
  d : Option Nat := none
  /-- Operand b is the FIX operand of an immediate form (R108). -/
  immB : Bool := false
  deriving DecidableEq, Repr

/-- The registers of a list of operands. -/
def Opnds.regs (o : Opnds) : List Nat := o.a.toList ++ o.b.toList ++ o.d.toList

/-- A register, and a register written. -/
def rd (c r : Nat) : MM Word := do
  let s ← get
  pure (s.reg c r)
def wr (c r : Nat) (w : Word) : MM Unit := upd (fun s => s.setReg c r w)

/-- An operand that must carry FIX. -/
def fixArg (w : Word) (opnd : Nat) : MM Unit := need (w.tag == Tag.fix) (.of .tag opnd)
/-- An operand that must carry FIX or RAWW (R127). -/
def rawArg (w : Word) (opnd : Nat) : MM Unit := need (w.tag == Tag.fix || w.tag == Tag.raww) (.of .tag opnd)

/-- The quad of a register number (R131). -/
def quadOk (d : Nat) : Bool := d % 4 == 0
def rdQuad (c d : Nat) : MM Item := do
  let w0 ← rd c d
  let w1 ← rd c (d + 1)
  let w2 ← rd c (d + 2)
  let w3 ← rd c (d + 3)
  pure ⟨w0, w1, w2, w3⟩
def wrQuad (c d : Nat) (it : Item) : MM Unit := do
  wr c d it.w0
  wr c (d + 1) it.w1
  wr c (d + 2) it.w2
  wr c (d + 3) it.w3

/-- Generic truth (R42); TAG for UNBOUND, VOID, a reserved tag and a malformed word. A RAWW word is true (DEDUCED:
notes/assumptions/94.md). -/
def truth (w : Word) (opnd : Nat) : MM Bool := do
  let s ← get
  need (w.tag != Tag.void && !s.isReserved w.tag && w != unboundW && !s.malformed w) (.of .tag opnd)
  pure (w != nilW && w != falseW)

/-- The word of an immediate of n bits, sign-extended (R94, R108). -/
def immFix {n : Nat} (i : BitVec n) : Word := fixI i.toInt

end Sys2Proof.Machine
end

