-- ==== Sys2Proof/Machine/Ops.lean ====
section
/-!
DEFINITION. What every core instruction shares (spec 03 R63–R68, R85, spec 04 R91–R106, spec 07 R167–R178): the checks before it, its
retirement, CODE objects and fetches, the hand file's spill and fill, entry of an exception and return from one, Trump collapse, and
the delivery of faults.
-/
namespace Sys2Proof.Machine

open Sys2Proof

/-- An exception to be entered: level, vector, what XCA records (cause, ORIG, OLVL, XSUB and the other fields), XPC, XAD and XOP. -/
structure Event where
  lvl   : Nat
  vec   : Nat
  cause : Nat
  orig  : Nat := 0
  olvl  : Nat := 0
  xsub  : Nat := 0
  rest  : W64 := 0#64
  xpc   : Ip
  xad   : W64 := 0#64
  xop   : W64 := 0#64
  deriving DecidableEq, Repr

/-- XCA of an event (spec 07, XCAn). -/
def Event.xca (e : Event) : W64 :=
  putFld 27 25 e.olvl ||| putFld 17 16 e.xsub ||| putFld 15 8 e.orig ||| putFld 7 0 e.cause ||| e.rest

/-- XCA fields TRAPN, GROUP, OPND and HALF of a fault. -/
def Exn.rest (e : Exn) : W64 := putFld 37 28 e.trapn ||| putFld 24 22 e.group ||| putFld 21 19 e.opnd ||| putFld 18 18 e.half.toNat

/-- A fault's XSTACK with a value of XSUB (R174). -/
def Exn.xstk (k : Nat) : Exn := { cause := .xstack, xsub := k }

/-- A computation whose faults all count as one fault. -/
def asFault {α : Type} (e : Exn) (m : MM α) : MM α := fun s =>
  match m s with
  | .ok a s => .ok a s
  | .error (.exn _) s => .error (.exn e) s
  | .error w s => .error w s

/-- A fault of a computation reported for a half of a pair word (R98). -/
def inHalf {α : Type} (b : Bool) (m : MM α) : MM α := fun s =>
  match m s with
  | .ok a s => .ok a s
  | .error (.exn e) s => .error (.exn { e with half := b }) s
  | .error w s => .error w s

/-- A fault of a computation with what an instruction adds to its record. -/
def mapExn {α : Type} (f : Exn → Exn) (m : MM α) : MM α := fun s =>
  match m s with
  | .ok a s => .ok a s
  | .error (.exn e) s => .error (.exn (f e)) s
  | .error w s => .error w s

/-- How an instruction ends: at the next index; at another place; at a yield point after a commit, from which it goes on later (R143); at a point
of a micro-routine (R196); or with everything that follows its commit already done. -/
inductive Next where
  | seq
  | goto (ip : Ip)
  | pause
  | held
  | done
  deriving DecidableEq, Repr

/-- What decoding an instruction establishes (R99): a reserved encoding, an illegal pair, supervisor only, a repeat prefix, the register
groups it uses, and the registers that XOP records. -/
structure Pre where
  illegal : Bool := false
  badPair : Bool := false
  sup     : Bool := false
  isRep   : Bool := false
  groups  : Nat := 0
  opnds   : Opnds := {}
  /-- Half B of a pair word: whether its encoding is reserved, its groups and its registers. -/
  illegalB : Bool := false
  groupsB : Nat := 0
  opndsB  : Opnds := {}
  deriving DecidableEq, Repr

/-- The registers that XOP records of a fault. -/
def Pre.opndsOf (p : Pre) (e : Exn) : Opnds := if e.half then p.opndsB else p.opnds

namespace State

/-! Debug at boundaries (spec 20 R485–R488). -/

def dbgOn (s : State) (c : Nat) : Bool := s.rb (Reg.DBG_DBGCTL c) 0
/-- A repeat is active in the bank of the current level; its prefix is REP.N. -/
def repAct (s : State) (c : Nat) : Bool := bitAt (s.rptR c) 32
def repHeld (s : State) (c : Nat) : Bool := s.repAct c && bitAt (s.rptR c) 33
/-- A debug event or the halt request waits to be taken at this boundary (R169, R489). -/
def debugDue (s : State) (c : Nat) : Bool :=
  s.cl c == 0 && !s.repHeld c &&
    (s.rb (Reg.DBG_DBGSTAT c) 1 || (s.core c).watchAt.isSome || (s.core c).stepAt || (s.core c).stopRet.isSome)
/-- The core stands at a boundary at which an event of a level may be taken: no routine is running, no microword waits, and REP.N does not hold
the level (R103, R169). -/
def atBoundary (s : State) (c l : Nat) : Bool :=
  (s.core c).micro.isNone && !(s.core c).evacHold && !(decide (l ≤ 5) && s.repHeld c)
/-- An offered source may enter its level at this boundary. -/
def levelDue (s : State) (c l : Nat) : Bool := s.offered c l && s.levelEnabled c l && s.atBoundary c l
/-- An enabled event of a higher level waits at this boundary (R169). -/
def higherDue (s : State) (c l : Nat) : Bool := (List.range 8).any (fun k => decide (l < k) && s.levelDue c k)
/-- A handshake waits for this boundary (R258): the routine in progress ends there as it does for an event. -/
def shakeDue (s : State) (c : Nat) : Bool :=
  (s.core c).hshake.isSome && !s.repHeld c && (match s.sweep.heap with | some h => s.heapMode h != 2 | none => false)
/-- The core stands before an instruction: it runs, waits for nothing, and no routine is in progress. -/
def atInstr (s : State) (c : Nat) : Bool := s.running c && (s.core c).wait == .none && !(s.core c).evacHold && (s.core c).micro.isNone
/-- The core can execute an instruction now: it stands before one, and no enabled event and no handshake is to be taken first (R167, R169, R258). -/
def ready (s : State) (c : Nat) : Bool := s.atInstr c && !s.debugDue c && !s.higherDue c 1 && !s.shakeDue c

/-- Physical address of the CODE body word that holds an index of the executing object (R57). -/
def fetchPa (s : State) (c idx : Nat) : Option Nat :=
  let ip := (s.core c).ip
  match s.checkDesc (s.corePart c) ip.sel (s.coreDesc c ip.sel) (ip.off + 4 + idx / 2) .exec (s.sup c) with
  | .ok pa => some pa
  | .error _ => none

/-- BREAK on the fetch of an index: whether the instruction is withheld at CL 0 (R486, R487), and the state with the hit recorded. -/
def breakTest (s : State) (c idx : Nat) : Bool × State :=
  if !s.dbgOn c || (s.cl c == 0 && s.rb (Reg.DBG_DBGSTAT c) 2) then (false, s)
  else
    match s.fetchPa c idx with
    | none => (false, s)
    | some pa =>
      let bits := s.breakHits c pa (idx % 2 == 1)
      if bits = 0 then (false, s)
      else if s.cl c = 0 then
        (true, if (s.core c).breakAt = bits then s else (s.recordHits c bits pa).modCore c (fun x => { x with breakAt := bits }))
      else (false, s.recordHits c bits pa)

/-- SKIP ends at the first instruction or event at CL 0 (R487). -/
def clearSkip (s : State) (c : Nat) : State :=
  if s.cl c = 0 && s.rb (Reg.DBG_DBGSTAT c) 2 then s.wf (Reg.DBG_DBGSTAT c) 2 2 0 else s

/-- Single step: an instruction has completed at CL 0 (R486). -/
def stepArise (s : State) (c : Nat) : State :=
  if s.cl c = 0 && s.dbgOn c && s.rb (Reg.DBG_DBGCTL c) 3 then s.modCore c (fun x => { x with stepAt := true }) else s

/-! Decode checks (R99). -/

def decodeChk (s : State) (c : Nat) (p : Pre) : Option Exn :=
  if p.illegal then some (.of .illegal)
  else if p.illegalB then some { Exn.of .illegal with half := true }
  else if p.badPair then some (.of .illegalPair)
  else if p.sup && !s.sup c then some (.of .priv)
  else if s.repAct c && !p.isRep then some (.of .illegalRepeat)
  else match s.absentOf c p.groups with
    | some g => some { Exn.of .groupAbsent with group := g }
    | none => (s.absentOf c p.groupsB).map (fun g => { Exn.of .groupAbsent with group := g, half := true })

/-- XOP of a fault: the tags of a, b and d, and MTAG for operand 4 (spec 07, XOPn). -/
def xop (s : State) (c : Nat) (o : Opnds) (mtag : Tag) : W64 :=
  let t := fun (r : Option Nat) => match r with | some r => (s.reg c r).tag.toNat | none => 0
  putFld 31 24 mtag.toNat ||| putFld 23 16 (t o.d) ||| putFld 15 8 (if o.immB then 1 else t o.b) ||| putFld 7 0 (t o.a)

/-! Collapse (R178). -/

/-- The core stops with no further write; the checker of a pair stops with it. -/
def collapse (s : State) (c : Nat) : State :=
  let cst := fld (s.cstR c) 10 0
  let xpc7 := s.crR c (CRN.save 7 0)
  let stop := fun (x : CoreSt) => { x with run := .collapsed, wait := .none, micro := none, walk := none, accs := [], resv := none }
  let s := (s.withdraw c).modCore c stop
  let s := if s.corePaired c then s.modCore (c + 1) stop else s
  let s := (s.setB (Reg.DBG_DBGSTAT c) 0).logRecord 0x0A (c + cst * 256) xpc7
  s.latchInput (112 + s.corePart c) (s.corePart c) c

end State

/-! CODE objects (R57). -/

/-- The header and body word 0 of a CODE object, as an execute access of CALL, RET and the vector check reads them, in the order of R140: the
object's offset now, and its word 0. A wrong header is reported as the word
at fault (DEDUCED: notes/assumptions/13.md). -/
def codeWord0 (x : Ctx) (sel off0 : Nat) : MM (Nat × Word) := do
  let l ← x.resolve sel off0 .exec
  let off ← x.follow sel off0
  let l ← if off = l.off then pure l else x.resolve sel off .exec
  let l0 ← x.resolve sel (off + 1) .exec
  let h ← x.readRaw l
  let w ← x.readRaw l0
  need (h.tag == Tag.hdr && fld h.pay 63 56 == 0x0E) { Exn.at .tag sel off with mtag := h.tag }
  pure (off, w)

/-- ICOUNT of body word 0. -/
def icount (w : Word) : Nat := fld w.pay 31 0
/-- Body word 0 is tagged FIX, and ICOUNT does not exceed 2^23. -/
def codeOk (w : Word) : Bool := w.tag == Tag.fix && decide (icount w ≤ 2 ^ 23)

/-- ICOUNT of the executing CODE object as an instruction fetch reads it. -/
def fetchCount (x : Ctx) (c : Nat) : MM Nat := do
  let s ← get
  let ip := (s.core c).ip
  let l ← x.resolve ip.sel (ip.off + 1) .exec
  x.settle l.pa
  let (w, u) ← ask (fun s => let (w, u, s) := s.fetchRead c l.pa l.desc.uncached; ((w, u), s))
  need (!u) (.at .memUncorr l.sel l.off)
  need (w.tag == Tag.fix) { Exn.at .illegal l.sel l.off with mtag := w.tag }
  need (codeOk w) (.of .illegal)
  pure (icount w)

/-- The instruction word at an index of the executing CODE object (R57, R76, R92). -/
def fetchWord (x : Ctx) (c idx : Nat) : MM (BitVec 32) := do
  let n ← fetchCount x c
  let s ← get
  let ip := (s.core c).ip
  let off := ip.off + 4 + idx / 2
  need (decide (idx < 2 * n)) (.at .segLimit ip.sel off)
  let l ← x.resolve ip.sel off .exec
  x.settle l.pa
  let (w, u) ← ask (fun s => let (w, u, s) := s.fetchRead c l.pa l.desc.uncached; ((w, u), s))
  need (!u) (.at .memUncorr l.sel l.off)
  need (w.tag == Tag.raww) { Exn.of .illegal with xad := xadWord l.sel l.off }
  pure (BitVec.ofNat 32 (if idx % 2 = 1 then fld w.pay 63 32 else fld w.pay 31 0))

/-- A taken branch or jump by disp (R92): the target index lies in the CODE object. -/
def branchTo (x : Ctx) (c : Nat) (disp : Int) : MM Next := do
  let n ← fetchCount x c
  let s ← get
  let ip := (s.core c).ip
  let t : Int := ip.idx + disp
  need (decide (0 ≤ t) && decide (t < 2 * n)) (.of .segLimit)
  let dest : Ip := { ip with idx := t.toNat }
  upd (fun s => (s.trace c 1 (s.cl c) 0 (retPay dest)).countCore c 0x1C)
  pure (.goto dest)

/-! Hands (R63–R66). -/

/-- The 16 words of a hand that HSPILL writes, with the words given by a function of the physical register, resolved and checked. -/
def spillLocs (x : Ctx) (c : Nat) (w : Nat → Word) : MM (List (Loc × Word)) := do
  let s ← get
  let spp := s.crR c CRN.spp
  let h := s.shp c
  let ls ← (List.range 16).mapM (fun i => x.resolve (ptrSel spp) (ptrOff spp + i) .stackWrite)
  let lw := ls.zipIdx.map (fun e => (e.1, w (16 * h + e.2)))
  lw.forM (fun e => x.storeChk e.1 e.2 0)
  pure lw

/-- The action of HSPILL once its stores have passed (R65). -/
def spillDo (x : Ctx) (c : Nat) (l : List (Loc × Word)) : MM Unit := do
  l.forM (fun e => x.storeDo e.1 e.2)
  upd (fun s => (s.crW c CRN.spp (setFld (s.crR c CRN.spp) 47 0 (ptrOff (s.crR c CRN.spp) + 16))).crSetF c CRN.shp 3 0 (s.shp c + 1))

/-- The words HFILL loads (R66). -/
def fillWords (x : Ctx) (c : Nat) : MM (List Word) := do
  let s ← get
  let spp := s.crR c CRN.spp
  need (decide (16 ≤ ptrOff spp)) (.of .segLimit)
  let ls ← (List.range 16).mapM (fun i => x.resolve (ptrSel spp) (ptrOff spp - 16 + i) .stackRead)
  ls.mapM (fun l => x.load l true)

/-- The action of HFILL once its loads have passed. -/
def fillDo (c : Nat) (ws : List Word) : MM Unit :=
  upd (fun s =>
    let h := (s.shp c + 15) % 16
    let s := forN 16 (fun k s => s.modCore c (fun x => { x with hands := Tab.set x.hands (16 * h + k) (ws.getD k Word.void) Word.void })) s
    (s.crW c CRN.spp (setFld (s.crR c CRN.spp) 47 0 (ptrOff (s.crR c CRN.spp) - 16))).crSetF c CRN.shp 3 0 h)

/-- CHP moved by a number of hands. -/
def State.moveChp (s : State) (c k : Nat) : State := s.crSetF c CRN.chp 3 0 (s.chp c + k)

/-! Context save areas (R82–R85). -/

/-- n words of the CSA that a pointer word names, from an offset of it. -/
def csaLocs (x : Ctx) (p : W64) (o n : Nat) (a : Acc) : MM (List Loc) :=
  (List.range n).mapM (fun i => x.resolve (ptrSel p) (ptrOff p + o + i) a)

/-- The 256 hand registers of the current CSA, in the order of Table 3-5. -/
def csaHands (x : Ctx) (c : Nat) : MM (List Word) := do
  let s ← get
  let ls ← csaLocs x (s.crR c CRN.ccx) 0x40 256 .bankRead
  ls.mapM (fun l => x.load l true)

/-- The hand file loaded from a list. -/
def State.putHands (s : State) (c : Nat) (ws : List Word) : State :=
  forN 256 (fun k s => s.modCore c (fun x => { x with hands := Tab.set x.hands k (ws.getD k Word.void) Word.void })) s

/-! Entry (R174, R175). -/

/-- What the check phase of an entry establishes. -/
structure Plan where
  frame  : List Loc
  target : Ip
  fill   : Option (List Word)
  spill  : List (Loc × Word)
  deriving DecidableEq, Repr

/-- Step 1: the exception stack, where the save set is occupied. -/
def stackCheck (x : Ctx) (c lvl : Nat) : MM (List Loc) := do
  let s ← get
  if lvl = s.cl c && decide (2 ≤ lvl) && decide (lvl ≤ 6) then
    let xsp := s.crR c (CRN.xsp lvl)
    need (bitAt xsp 51) (.xstk 0)
    asFault (.xstk 0) ((List.range 8).mapM (fun i => x.resolve (ptrSel xsp) (ptrOff xsp + i) .stackWrite))
  else pure []

/-- Step 2: the vector. -/
def vectorCheck (x : Ctx) (c vec : Nat) : MM Ip := asFault (.xstk 2) (do
  let s ← get
  let xtb := s.crR c CRN.xtb
  need (bitAt xtb 51) (.xstk 2)
  let l ← x.resolve (ptrSel xtb) (ptrOff xtb + vec) .read
  let w ← x.load l true
  let s ← get
  need (w.tag == Tag.code && !s.malformed w) (.xstk 2)
  let (off, w0) ← codeWord0 x (ptrSel w.pay) (ptrOff w.pay)
  need (decide (off < 2 ^ 28) && codeOk w0) (.xstk 2)
  pure { sel := ptrSel w.pay, off := off, idx := 0 })

/-- Step 3: the W fill of R85 and the spill of R67. -/
def handCheck (x : Ctx) (c lvl : Nat) : MM (Option (List Word) × List (Loc × Word)) := do
  let s ← get
  if lvl = 6 then pure (none, [])
  else asFault (.xstk 3) (do
    let fill ← if s.absent c 9 && bitAt (s.crR c CRN.ccx) 51 then some <$> csaHands x c else pure none
    let w := fun (k : Nat) => match fill with
      | some l => l.getD k Word.void
      | none => Tab.get (s.core c).hands k Word.void
    let spill ← if s.handN c = 16 then spillLocs x c w else pure []
    pure (fill, spill))

def entryCheck (x : Ctx) (c : Nat) (e : Event) : MM Plan := do
  let frame ← stackCheck x c e.lvl
  let target ← vectorCheck x c e.vec
  let (fill, spill) ← handCheck x c e.lvl
  pure { frame := frame, target := target, fill := fill, spill := spill }

/-- The words of an exception stack frame (Table 7-4). -/
def frameWords (s : State) (c lvl : Nat) : List Word :=
  let r := fun (k : Nat) => s.crR c (CRN.save lvl k)
  [⟨Tag.ret, r 0⟩, ⟨Tag.raww, r 1⟩, ⟨Tag.raww, r 2⟩, ⟨Tag.raww, r 3⟩, ⟨Tag.raww, r 4⟩, ⟨Tag.raww, r 5⟩, ⟨Tag.raww, 0#64⟩, ⟨Tag.raww, 0#64⟩]

/-- Step 3 of the write phase: save set L. -/
def State.writeSaveSet (s : State) (c : Nat) (e : Event) : State :=
  let xst := putFld 42 32 (fld (s.fsrR c) 10 0) ||| putFld 25 16 (fld (s.asrR c) 9 0) ||| putFld 10 0 (fld (s.cstR c) 10 0)
  let xrp := s.rptR c
  ((((((s.crW c (CRN.save e.lvl 0) (retPay e.xpc)).crW c (CRN.save e.lvl 1) xst).crW c (CRN.save e.lvl 2) xrp).crW c
    (CRN.save e.lvl 3) e.xca).crW c (CRN.save e.lvl 4) e.xad).crW c (CRN.save e.lvl 5) e.xop)

/-- Steps 4 to 6 of the write phase: the handler's RPT, ASR and FSR flags cleared; CL and SUP; the reservation; the vector's CODE object. -/
def State.startHandler (s : State) (c lvl : Nat) (target : Ip) : State :=
  let s := s.modCore c (fun x => if lvl = 6 then { x with snapRpt := 0#64, snapAsr := 0#64, snapFsr := setFld x.snapFsr 4 0 0 } else x)
  let s := if lvl = 6 then s else ((s.crW c CRN.rpt 0#64).crW c CRN.asr 0#64).crSetF c CRN.fsr 4 0 0
  let s := (s.crSetF c CRN.cst 2 0 lvl).crSetF c CRN.cst 7 7 1
  s.modCore c (fun x => { x with resv := none, ip := target, breakAt := 0, accs := [], micro := none, walk := none })

/-- The write phase. -/
def entryWrite (x : Ctx) (c : Nat) (e : Event) (p : Plan) : MM Unit := do
  let s ← get
  (p.frame.zip (frameWords s c e.lvl)).forM (fun f => x.storeDo f.1 f.2)
  upd (fun s => if p.frame.isEmpty then s else
    s.crW c (CRN.xsp e.lvl) (setFld (s.crR c (CRN.xsp e.lvl)) 47 0 (ptrOff (s.crR c (CRN.xsp e.lvl)) + 8)))
  upd (fun s => match p.fill with | some ws => (s.putHands c ws).crSetF c CRN.gds 1 1 0 | none => s)
  upd (fun s => if e.lvl = 6 then s else s.crSetF c CRN.gds 9 9 0)
  if p.spill.isEmpty then pure () else spillDo x c p.spill
  upd (fun s => if e.lvl = 6 then s else s.moveChp c 1)
  upd (fun s => (s.writeSaveSet c e).startHandler c e.lvl p.target)

/-- Entry of an event: the checks, then the writes. -/
def entryM (c : Nat) (e : Event) : MM Unit := do
  let s ← get
  let x : Ctx := { s.coreCtx c with sup := true, peek := false }
  let p ← entryCheck x c e
  entryWrite x c e p

namespace State

/-- What follows an entry: counters, the trace record, and for level 1 the monitor's effects (R467, R468). -/
def entered (s : State) (c : Nat) (e : Event) : State :=
  let s := (s.countCore c 0x09).trace c 2 e.lvl e.cause (retPay e.xpc)
  let s := if e.lvl = 6 then s.countCore c 0x0A else s
  if e.lvl = 1 then s.monitorEntered c else s

/-- Trump entry; a failed check, or an event at level 7 while CL is 7, is a collapse (R174). -/
def enterTrump (s : State) (c : Nat) (e : Event) : State :=
  if s.cl c = 7 then s.collapse c
  else match (entryM c e).run s with
    | (.ok _, s') => s'.entered c e
    | (.error (.exn _), s') => s'.collapse c
    | (.error (.wait _), s') => s'

/-- TAKING AN EXCEPTION: entry of an event at its level; a failed check redirects it to Trump with cause XSTACK (R174). -/
def takeException (s : State) (c : Nat) (e : Event) : State :=
  if e.lvl = 7 then s.enterTrump c e
  else match (entryM c e).run s with
    | (.ok _, s') => s'.entered c e
    | (.error (.exn f), s') =>
      s'.enterTrump c { e with lvl := 7, vec := 0x15, cause := 0x15, orig := e.cause, olvl := e.lvl, xsub := f.xsub }
    | (.error (.wait _), s') => s'

/-- The state in which the entry of an event waits for an object in transit that one of its checks reads (R262), if it does. -/
def entryWaits (s : State) (c : Nat) (e : Event) : Option State :=
  match (entryM c e).run s with
  | (.error (.wait _), s') => some s'
  | (.error (.exn _), s') =>
    if e.lvl = 7 || s'.cl c = 7 then none
    else match (entryM c { e with lvl := 7, vec := 0x15 }).run s' with
      | (.error (.wait _), s'') => some s''
      | _ => none
  | _ => none

/-- An event enters, or stays pending as it is while its entry would wait (R174: the check phase writes nothing). -/
def unlessWaits (s : State) (c : Nat) (e : Event) (f : State → State) : State :=
  match s.entryWaits c e with
  | some s' => s'
  | none => f s

/-- The delivery level of a synchronous fault (R168). -/
def faultLevel (s : State) (c : Nat) : Nat := if s.cl c ≤ 1 then 2 else s.cl c
/-- A delivery level is masked (R168). -/
def masked (s : State) (c l : Nat) : Bool :=
  (decide (2 ≤ l) && decide (l ≤ 5) && decide (l ≤ s.ml c)) || (l == 6 && !s.snapEn c)

/-- The event that delivers a synchronous fault or a TRAP (R168): at its level, or escalated to Trump. The XSTACK of a RETX enters Trump (R176). -/
def faultEvent (s : State) (c : Nat) (e : Exn) (xpc : Ip) (xop : W64) : Event :=
  let l := s.faultLevel c
  if e.cause = .xstack then { lvl := 7, vec := 0x15, cause := 0x15, olvl := s.cl c, xsub := e.xsub, xpc := xpc }
  else if s.masked c l then
    { lvl := 7, vec := 0x16, cause := 0x16, orig := e.cause.code, olvl := l, xsub := e.xsub, rest := e.rest, xpc := xpc, xad := e.xad, xop := xop }
  else { lvl := l, vec := e.cause.vector, cause := e.cause.code, xsub := e.xsub, rest := e.rest, xpc := xpc, xad := e.xad, xop := xop }

/-- Delivery of a synchronous fault or a TRAP (R168). -/
def deliver (s : State) (c : Nat) (e : Exn) (xpc : Ip) (xop : W64) : State := s.takeException c (s.faultEvent c e xpc xop)

/-- Counters of synchronous faults (Table 20-5). -/
def countFault (s : State) (c : Nat) (k : Cause) : State :=
  let s := s.countCore c 0x0B
  match k with
  | .groupAbsent => s.countCore c 0x0C
  | .handSpill => s.countCore c 0x0D
  | .handFill => s.countCore c 0x0D
  | .stale => s.countCore c 0x1B
  | .remoteFail => s.countCore c 0x1B
  | _ => s

/-- The hold of R198 ends when another instruction completes at its level. -/
def clearHold (s : State) (c : Nat) : State :=
  match (s.core c).hold with
  | none => s
  | some (l, _) => if l = s.cl c then s.modCore c (fun x => { x with hold := none }) else s

/-- What the completion of an instruction brings with it: the comparators' tests, the counter, SKIP, STEP and the hold (R198, R485–R487). -/
def completed (s : State) (c : Nat) : State := ((((s.testWatch c).countCore c 0x02).clearSkip c).stepArise c).clearHold c

/-- A synchronous fault is taken at once (R170, R173): XPC names the instruction, or the prefix while a repeat is active; a TRAP has
completed, and XPC names the instruction after it. Where the entry would wait, the instruction does, and is executed again. -/
def takeFault (s : State) (c : Nat) (e : Exn) (xop : W64) : State :=
  let ip := (s.core c).ip
  s.unlessWaits c (s.faultEvent c e ip xop) fun s =>
  if e.cause = .trap then
    (s.completed c).deliver c e { ip with idx := ip.idx + 1 } xop
  else
    let s := s.modCore c (fun x => { x with accs := [], hold := none, micro := none, walk := none, wait := .none })
    ((s.clearSkip c).countFault c e.cause).deliver c e ip xop

/-- An instruction has committed (R91): the index moves on, or stays where the instruction goes on later or has set it. -/
def retire (s : State) (c : Nat) (n : Next) : State :=
  match n with
  | .seq => (s.completed c).modCore c (fun x => { x with breakAt := 0, walk := none, ip := { x.ip with idx := x.ip.idx + 1 } })
  | .goto ip => (s.completed c).modCore c (fun x => { x with breakAt := 0, walk := none, ip := ip })
  | .pause => (s.testWatch c).modCore c (fun x => { x with breakAt := 0 })
  | .held => s.modCore c (fun x => { x with breakAt := 0 })
  | .done => s.modCore c (fun x => { x with breakAt := 0, accs := [] })

/-- A fetched instruction (R99): the decode checks, then its body, then its retirement or the fault that ends it. A fault of steps 2 to 5 of R99
names no operand: XOP is zero (DEDUCED: notes/assumptions/13.md). -/
def runDecoded (s : State) (c : Nat) (p : Pre) (body : MM Next) : State :=
  match s.decodeChk c p with
  | some e => s.takeFault c e (if e.cause = .groupAbsent then s.xop c (p.opndsOf e) 0#8 else 0#64)
  | none =>
    match body.run s with
    | (.ok n, s') => s'.retire c n
    | (.error (.exn e), s') => s'.takeFault c e (s.xop c (p.opndsOf e) e.mtag)
    | (.error (.wait w), s') => s'.modCore c (fun x => { x with wait := w, accs := [] })

/-- The comparators' test of an instruction's fetch, then the instruction. -/
def fetchRun (s : State) (c : Nat) (p : Pre) (body : MM Next) : State :=
  match s.breakTest c (s.core c).ip.idx with
  | (true, s) => s
  | (false, s) => s.runDecoded c p body

/-- One instruction of a core that is ready for it. -/
def runCore (s : State) (c : Nat) (p : Pre) (body : MM Next) : State := if s.ready c then s.fetchRun c p body else s

/-! Asynchronous events (R167, R169, R173). -/

/-- A core leaves the wait of QWAIT, RLD, RST, FENCE or WAIT because an event is taken (R156, R158, R162, R163). -/
def endWait (s : State) (c : Nat) : State :=
  match (s.core c).wait with
  | .qwait _ _ _ => s.withdraw c
  | .remote t => (s.retireTxn t).modCore c (fun x => { x with wait := .none })
  | _ => s.modCore c (fun x => { x with wait := .none })

/-- An enabled event is taken: the core's wait ends, and the level is entered with the index it stands at. -/
def takeEvent (s : State) (c : Nat) (e : Event) : State :=
  let s := (s.endWait c).clearSkip c
  s.takeException c { e with xpc := (s.core c).ip }

/-- An offered source enters its level, where no event of a higher level waits (R169, R181). -/
def levelEvent (s : State) (c l : Nat) : State :=
  if s.levelDue c l && !s.higherDue c l then
    let e : Event := { lvl := l, vec := 0x40 + l, cause := 0x40 + l, xpc := {} }
    s.unlessWaits c e (fun s => ((s.takeOffers c l).countUn 0x19 0).takeEvent c e)
  else s

/-! Return (R68, R176). -/

/-- Bits of ASR and FSR that exist. -/
def asrBits : W64 := fmask 9 8 ||| fmask 3 0
def fsrBits : W64 := fmask 10 8 ||| fmask 4 0

/-- RETX to a level: the status of the interrupted bank (R176 steps 2 and 3). -/
def restoreStatus (s : State) (c : Nat) (xst xrp : W64) : State :=
  let m : W64 := fmask 8 7 ||| fmask 5 0
  let s := s.crW c CRN.cst ((s.crR c CRN.cst &&& ~~~m) ||| (xst &&& m))
  let asr := putFld 9 0 (fld xst 25 16) &&& asrBits
  let fsr := putFld 10 0 (fld xst 42 32) &&& fsrBits
  let rpt := xrp &&& fmask 33 0
  if fld xst 2 0 = 6 then s.modCore c (fun x => { x with snapAsr := asr, snapFsr := fsr, snapRpt := rpt })
  else ((s.crW c CRN.asr asr).crW c CRN.fsr fsr).crW c CRN.rpt rpt

/-- Masks of the save-set registers (spec 07). -/
def saveMask (k : Nat) : W64 :=
  match k with
  | 1 => fmask 42 32 ||| fmask 25 16 ||| fmask 10 0
  | 2 => fmask 33 0
  | 3 => fmask 37 0
  | 4 => fmask 63 52 ||| fmask 48 0
  | 5 => fmask 31 0
  | _ => fmask 63 0

/-- After a RETX: the monitor's end, SKIP, and the latched hits that STOPRET takes (R465, R467, R487, R488). -/
def returned (s : State) (c n : Nat) : State :=
  let s := if n = 1 then s.monitorLeft c else s
  if s.cl c != 0 then s
  else
    let s := if n = 1 then s.setB (Reg.DBG_DBGSTAT c) 2 else s
    let lat := s.rf (Reg.DBG_DHIT c) 15 8
    let hit := (List.range 8).foldl (fun m k =>
      if lat.testBit k && s.rb (Reg.DBG_CMPCTL c k) 30 then m + 2 ^ k else m) 0
    let watch := (List.range 8).any (fun k => hit.testBit k && s.rf (Reg.DBG_CMPCTL c k) 2 0 != 0)
    if hit = 0 then s else s.modCore c (fun x => { x with stopRet := some (watch, hit) })

end State

/-- The frame RETX pops (R176 step 2 of the checks): its words. -/
def popCheck (x : Ctx) (c n : Nat) : MM (List Word) := asFault (.xstk 1) (do
  let s ← get
  let xsp := s.crR c (CRN.xsp n)
  need (bitAt xsp 51 && decide (8 ≤ ptrOff xsp)) (.xstk 1)
  let ls ← (List.range 8).mapM (fun i => x.resolve (ptrSel xsp) (ptrOff xsp - 8 + i) .stackRead)
  let ws ← ls.mapM (fun l => x.load l true)
  need ((ws.getD 0 Word.void).tag == Tag.ret) (.xstk 1)
  pure ws)

/-- RETURNING FROM AN EXCEPTION at level n (R176). -/
def retxM (c : Nat) : MM Next := do
  let s ← get
  let n := s.cl c
  need (n != 0) (.of .illegal)
  let x : Ctx := { s.coreCtx c with sup := true, peek := false }
  let xst := s.crR c (CRN.save n 1)
  let dest := fld xst 2 0
  need (!(decide (n < dest) || (dest == n && (n == 1 || n == 7)) || decide (6 ≤ fld xst 5 3))) (.of .illegal)
  let pop ← if dest = n then popCheck x c n else pure []
  let fill ← if n != 6 && s.handN c == 1 then asFault (.xstk 3) (some <$> fillWords x c) else pure none
  let xpc := s.crR c (CRN.save n 0)
  let xrp := s.crR c (CRN.save n 2)
  upd (fun s => (s.countCore c 0x02).restoreStatus c xst xrp)
  match fill with
    | some ws => fillDo c ws
    | none => pure ()
  upd (fun s => if n = 6 then s else s.moveChp c 15)
  upd (fun s => if pop.isEmpty then s else
    (forN 6 (fun k s => s.crW c (CRN.save n k) ((pop.getD k Word.void).pay &&& State.saveMask k)) s).crW c (CRN.xsp n)
      (setFld (s.crR c (CRN.xsp n)) 47 0 (ptrOff (s.crR c (CRN.xsp n)) - 8)))
  let ip : Ip := { sel := retSel xpc, off := retOff xpc, idx := retIdx xpc }
  upd (fun s => (s.modCore c (fun x => { x with ip := ip, accs := [] })).trace c 3 (s.cl c) 0 (retPay ip))
  upd (fun s => s.returned c n)
  pure .done

end Sys2Proof.Machine
end

