-- ==== Sys2Proof/Machine/Generic.lean ====
section
/-!
DEFINITION. Generic operations on words (spec 05 R108–R126): the operands' values, the operation of Table 5-1, the result in normal form
with what it adds to the sticky bits.
-/
namespace Sys2Proof.Machine

open Sys2Proof

/-- A result word with the FSR flags, QNX and PROM it sets. -/
structure GRes where
  word : Word
  ff   : FFlags := 0#5
  qnx  : Bool := false
  prom : Bool := false
  deriving DecidableEq, Repr

/-- Its flag NV. -/
def ffNv (b : Bool) : FFlags := if b then FFlags.nv else 0#5

/-- A numeric tag, or CHR where the operation accepts it (R109). -/
def numericTag (t : Tag) (chr : Bool) : Bool := t == Tag.fix || t == Tag.flo || t == Tag.qty || t == Tag.big || (chr && t == Tag.chr)

/-- TAG for an operand that is not accepted or is malformed (R130, R132 step 2). -/
def numTag (w : Word) (chr : Bool) (opnd : Nat) : MM Unit := do
  let s ← get
  need (numericTag w.tag chr && !s.malformed w) (.of .tag opnd)

/-- A computation faults TAG; nothing it does is kept. -/
def faultsTag {α : Type} (m : MM α) : MM Bool := fun s =>
  match m s with
  | .error (.exn e) _ => .ok (e.cause == .tag) s
  | _ => .ok false s

/-- The TAG faults of some operands, each with its number and whether its tag is accepted: the first that has one takes it (R130). A BIG is read
for this only where another operand's tag is refused, so that the tags rank before any read (R132 step 2). -/
def tagArgs (x : Ctx) (l : List (Word × Nat × Bool)) : List (Word × Nat × Bool) → MM Unit
  | [] => pure ()
  | (w, k, ok) :: t => do
    let s ← get
    need (ok && !s.malformed w) (.of .tag k)
    let bad ← if w.tag == Tag.big && l.any (fun e => !e.2.2) then faultsTag (x.numOf w k) else pure false
    need (!bad) (.of .tag k)
    tagArgs x l t

/-- The values of one and of two operands with accepted tags. pair: Table 5-1 lists the pair of tags; one that it does not list is reported for
operand a (R130). -/
def num1 (x : Ctx) (a : Word) (acc : Tag → Bool) (opnd : Nat := 1) : MM Num := do
  let s ← get
  need (acc a.tag && !s.malformed a) (.of .tag opnd)
  x.numOf a opnd
def num2 (x : Ctx) (a b : Word) (acc : Tag → Bool) : MM (Num × Num) := do
  let l := [(a, 1, acc a.tag), (b, 2, acc b.tag)]
  tagArgs x l l
  need ((a.tag == Tag.chr) == (b.tag == Tag.chr)) (.of .tag 1)
  let m ← x.numOf a 1
  let n ← x.numOf b 2
  pure (m, n)

/-- The tags that the operations of Table 5-1 accept: QUO and MOD no FLO, a comparison also CHR. -/
def opTags (op : Arith.Op2) (t : Tag) : Bool :=
  match op with
  | .quo => numericTag t false && t != Tag.flo
  | .mod => numericTag t false && t != Tag.flo
  | _ => numericTag t false
def intTag (t : Tag) : Bool := t == Tag.fix || t == Tag.big

/-- A numeric result as a word; PROM where a BIG results and no source was one (R111, R112). -/
def genWord (x : Ctx) (c : Nat) (srcBig : Bool) (r : Except Exn NRes) : MM GRes :=
  match r with
  | .error e => fault e
  | .ok r => do
    let w ← x.numWord c r.val
    pure { word := w, ff := r.ff, qnx := r.qnx, prom := w.tag == Tag.big && !srcBig }

/-- A generic two-operand arithmetic instruction (R109). -/
def genArith (x : Ctx) (c : Nat) (op : Arith.Op2) (a b : Word) : MM GRes := do
  let (m, n) ← num2 x a b (opTags op)
  let s ← get
  genWord x c (a.tag == Tag.big || b.tag == Tag.big) (Arith.op2 op m n (s.fsrRm c) (s.fsrTdz c))

/-- The order of two operands, 2 for unordered, and NV (R121). quietOk: only a signalling NaN sets NV. -/
def genCompare (x : Ctx) (a b : Word) (quietOk : Bool) : MM (Int × FFlags) := do
  let (m, n) ← num2 x a b (numericTag · true)
  match Arith.cmp m n with
  | .error e => fault e
  | .ok r => pure (r, ffNv (if quietOk then m.isSNaN || n.isSNaN else r == 2))

/-- CMP, LT, LE, NUMEQ (R121). -/
def genCmp (x : Ctx) (a b : Word) : MM GRes := do
  let (r, f) ← genCompare x a b false
  pure { word := fixI r, ff := f }
def genLt (x : Ctx) (a b : Word) : MM GRes := do
  let (r, f) ← genCompare x a b false
  pure { word := boolW (r == -1), ff := f }
def genLe (x : Ctx) (a b : Word) : MM GRes := do
  let (r, f) ← genCompare x a b false
  pure { word := boolW (r == -1 || r == 0), ff := f }
def genNumeq (x : Ctx) (a b : Word) : MM GRes := do
  let (r, f) ← genCompare x a b true
  pure { word := boolW (r == 0), ff := f }

/-- MIN and MAX (R122). -/
def genMinMax (x : Ctx) (isMax : Bool) (a b : Word) : MM GRes := do
  let (m, n) ← num2 x a b (numericTag · true)
  match Arith.minMax isMax m n with
  | .error e => fault e
  | .ok .a => pure { word := a }
  | .ok .b => pure { word := b }
  | .ok (.nan w nv) => pure { word := ⟨Tag.flo, w⟩, ff := ffNv nv }

/-- The generic two-operand instruction of a long opcode (Table 4-3); none for another opcode. -/
def genOp (x : Ctx) (c op : Nat) (a b : Word) : Option (MM GRes) :=
  match op with
  | 0x01 => some (genArith x c .add a b)
  | 0x02 => some (genArith x c .sub a b)
  | 0x03 => some (genArith x c .mul a b)
  | 0x04 => some (genArith x c .div a b)
  | 0x05 => some (genArith x c .quo a b)
  | 0x06 => some (genArith x c .mod a b)
  | 0x08 => some (genCmp x a b)
  | 0x09 => some (genLt x a b)
  | 0x0A => some (genLe x a b)
  | 0x0B => some (genNumeq x a b)
  | 0x0D => some (genMinMax x false a b)
  | 0x0E => some (genMinMax x true a b)
  | _ => none

/-- NEG and ABS (R109, R115). -/
def genNeg (x : Ctx) (c : Nat) (a : Word) : MM GRes := do
  let m ← num1 x a (numericTag · false)
  genWord x c (a.tag == Tag.big) (Arith.neg m)
def genAbs (x : Ctx) (c : Nat) (a : Word) : MM GRes := do
  let m ← num1 x a (numericTag · false)
  genWord x c (a.tag == Tag.big) (Arith.abs m)

/-- An operand that must be an integer. -/
def intArg (x : Ctx) (a : Word) (opnd : Nat) : MM Int := do
  match ← x.numOf a opnd with
  | .int i => pure i
  | _ => fault (.of .tag opnd)

/-- a × 2^n, or ⌊a / 2^(−n)⌋; none where the result has more than 2^46 bits, for which no area has room (R112, R116). -/
def shiftInt (i n : Int) : Option Int :=
  if i = 0 then some 0
  else if (2 ^ 46 : Int) ≤ n then none
  else if n ≤ -(2 ^ 46 : Int) then some (if i < 0 then -1 else 0)
  else some (Arith.ashl i n)

/-- ASHL, and ASHR as a shift by the negative count (R116). -/
def genShift (x : Ctx) (c : Nat) (right : Bool) (a b : Word) : MM GRes := do
  let l := [(a, 1, intTag a.tag), (b, 2, b.tag == Tag.fix)]
  tagArgs x l l
  let i ← intArg x a 1
  let n := b.pay.toInt
  match shiftInt i (if right then -n else n) with
  | some r => genWord x c (a.tag == Tag.big) (.ok { val := .int r })
  | none => do
    let _ ← x.allocWords c (2 ^ 47)
    fault (.of .alloc)

/-- The conversions of Table 5-3 with one operand, of an accepted tag. -/
def genConv (x : Ctx) (c : Nat) (acc : Tag → Bool) (f : Num → Nat → Except Exn NRes) (a : Word) : MM GRes := do
  let m ← num1 x a acc
  let s ← get
  genWord x c (a.tag == Tag.big) (f m (s.fsrRm c))

/-- QTYMK (Table 5-3): b's tag and must-be-zero bits rank with a's tag, a's first. -/
def genQtymk (x : Ctx) (c : Nat) (a b : Word) : MM GRes := do
  let l := [(a, 1, numericTag a.tag false), (b, 2, b.tag == Tag.fix && fld b.pay 63 18 == 0)]
  tagArgs x l l
  let m ← x.numOf a 1
  genWord x c true (Arith.qtymk m (fld b.pay 17 0))

/-- FMA (Table 5-3): integers or FLO in a, b and d. -/
def genFma (x : Ctx) (c : Nat) (a b d : Word) : MM GRes := do
  let ok := fun (w : Word) => intTag w.tag || w.tag == Tag.flo
  let l := [(a, 1, ok a), (b, 2, ok b), (d, 3, ok d)]
  tagArgs x l l
  let m ← x.numOf a 1
  let n ← x.numOf b 2
  let o ← x.numOf d 3
  let s ← get
  genWord x c true (Arith.fma m n o (s.fsrRm c))

/-- A result written to a register with its sticky bits (R107, R112). -/
def putRes (c d : Nat) (r : GRes) : MM Unit := do
  upd (fun s => ((s.setReg c d r.word).putSticky c r.ff r.qnx r.prom))
  upd (fun s => if r.prom then s.countCore c 0x0E else s)

end Sys2Proof.Machine
end

