-- ==== Sys2Proof/Machine/Objects.lean ====
section
/-!
DEFINITION. Allocation of objects by instructions and microcode (spec 06 R149, R150): the KIND and SIZE that ALLOC accepts, and the store
check of the initialising words of CONS and CLOSE.
-/
namespace Sys2Proof.Machine

open Sys2Proof

/-- A KIND that ALLOC accepts: 0x0E and 0x10 in supervisor mode only (R150). -/
def State.allocKind (s : State) (k : Nat) : Bool :=
  [0x09, 0x0A, 0x0B, 0x0C, 0x0D, 0x0E, 0x0F, 0x10, 0x14].contains k ||
    (decide (k < 256) && (s.ctag (BitVec.ofNat 8 k)).declared && (s.ctag (BitVec.ofNat 8 k)).pointer)

/-- A SIZE that Table 2-13 allows for a KIND (R150). -/
def allocSize (k : Nat) (n : Int) : Bool :=
  decide (0 ≤ n) && decide (n < 2 ^ 40) &&
    (match k with
     | 0x0A => n == 2
     | 0x0C => n == 5
     | 0x14 => n == 1
     | 0x0D => decide (1 ≤ n)
     | 0x0F => decide (1 ≤ n)
     | 0x10 => decide (2 ≤ n)
     | _ => true)

namespace Ctx

/-- A new object of a KIND and a SIZE word (R149, R150): TAG, then PRIV, then ALLOC. ko and so are the operands reported. -/
def allocObj (x : Ctx) (c k : Nat) (size : Word) (ko so : Nat) : MM Word := do
  let s ← get
  need (size.tag == Tag.fix) (.of .tag so)
  need (s.allocKind k) (.of .tag ko)
  need (allocSize k size.pay.toInt) (.of .tag so)
  need (x.sup || (k != 0x0E && k != 0x10)) (.of .priv)
  x.newObj c k size.pay.toInt.toNat 0 []

/-- The store check of a word of a new object, as a store into the heap segment of the core's allocation area (R149, R246). -/
def areaOk (x : Ctx) (c : Nat) (w : Word) : MM Unit := do
  let s ← get
  let h := s.rf (Reg.SWP_AREA c) 59 56
  let sel := s.heapSel h
  need (!s.rb (Reg.SWP_AREA c) 60 || s.storeOk x.part w sel (x.desc s sel) (s.heapBase h)) (.of .segRights)

end Ctx

end Sys2Proof.Machine
end

