-- ==== Sys2Proof/Machine/Micro.lean ====
section
/-!
DEFINITION. Micro-routines (spec 08 R187–R207): micro-registers, the microword's ALU and memory operations, conditions and sequencing,
the shadow and its commit, the bounds, and the commit, yield and restart points.
-/
namespace Sys2Proof.Machine

open Sys2Proof

namespace State

/-- The forward-progress hold is active for the instruction at the core's index (R198). -/
def holdActive (s : State) (c : Nat) : Bool := (s.core c).hold == some (s.cl c, (s.core c).ip)

/-- An event is pending and enabled at a yield point or, with restart, at a RESTART point (R196, R198, R200). -/
def eventPending (s : State) (c : Nat) (restart : Bool) : Bool :=
  let on := fun (l : Nat) => s.offered c l && s.levelEnabled c l
  on 7 || on 6 ||
    (!s.repHeld c && !(restart && s.holdActive c) &&
      ([5, 4, 3, 2].any on ||
        (s.cl c == 0 && (s.rb (Reg.DBG_DBGSTAT c) 1 || (s.core c).watchAt.isSome || (s.core c).stopRet.isSome))))

/-- The decode entry of a long opcode (R188). -/
def decEntry (s : State) (c op : Nat) : W64 := s.ioR (Reg.MCS_DEC (c / 8) op)

/-- The slot that a word's tag selects: a declared customer tag of class MICRO (R59). -/
def microSlot (s : State) (w : Word) : Option Nat :=
  let t := s.ctag w.tag
  if t.declared && t.micro then some t.slot else none

/-- A MICRO_RUNAWAY's record (R201). -/
def putMrun (s : State) (c kind ua : Nat) : State :=
  let a := Reg.MCS_MRUN (c / 8) (c % 8)
  ((s.wf a 17 16 kind).wf a 15 15 1).wf a 13 0 ua

end State

namespace MicroSt

/-- The operand number that XCA reports for a selector. -/
def opndOf (sel : Nat) : Nat := match sel with | 0 => 3 | 1 => 1 | 2 => 2 | _ => 0

/-- The word of a selector (Table 8-2). -/
def read (m : MicroSt) (s : State) (c : Nat) (lit : W64) (sel : Nat) : Word :=
  match sel with
  | 0 => m.opd.getD (s.reg c m.d)
  | 1 => m.opa.getD (s.reg c m.a)
  | 2 => (match m.immB with | some w => w | none => m.opb.getD (s.reg c m.b))
  | 3 => fixN m.x
  | 4 => fixN m.op
  | 5 => fixW lit
  | k => Tab.get m.temps k Word.void

/-- A write of a register into the shadow: every selector that names the register sees it (R195). -/
def shadowReg (m : MicroSt) (r : Nat) (w : Word) : MicroSt :=
  { m with opd := if m.d = r then some w else m.opd, opa := if m.a = r then some w else m.opa,
           opb := if m.b = r && m.immB.isNone then some w else m.opb }

/-- A write of a selector; the read-only ones keep their value. -/
def write (m : MicroSt) (sel : Nat) (w : Word) : MicroSt :=
  match sel with
  | 0 => m.shadowReg m.d w
  | 1 => m.shadowReg m.a w
  | 2 => if m.immB.isSome then m else m.shadowReg m.b w
  | k => if 0x10 ≤ k ∧ k ≤ 0x1F then { m with temps := Tab.set m.temps k w Word.void } else m

/-- An uncommitted store of the routine to an address (R193). -/
def stored (m : MicroSt) (pa : Nat) : Option Word := (m.stores.reverse.find? (fun e => e.pa == pa)).map (·.word)

/-- The micro-flags of a raw result. -/
def flags4 (m : MicroSt) (f : RawFlags) : MicroSt := { m with fz := f.z, fn := f.n, fc := f.c, fv := f.v }
def flagsZN (m : MicroSt) (r : W64) : MicroSt := { m with fz := r == 0#64, fn := bitAt r 63 }
def flagZ (m : MicroSt) (r : W64) : MicroSt := { m with fz := r == 0#64 }

/-- ALU operations on payloads (Table 8-4): the result, if one is written, and the flags. -/
def alu (m : MicroSt) (op : Nat) (a b : W64) : Option W64 × MicroSt :=
  let cin := m.fc.toNat
  let zn := fun (r : W64) => (some r, m.flagsZN r)
  let zf := fun (r : W64) => (some r, m.flagZ r)
  match op with
  | 0x02 => let r := addwRes a b; (some r.1, m.flags4 r.2)
  | 0x03 => let r := subwRes a b; (some r.1, m.flags4 r.2)
  | 0x04 =>
    let r := a + b + n64 cin
    (some r, m.flags4 (rawFlags r (decide (2 ^ 64 ≤ a.toNat + b.toNat + cin)) (outS (a.toInt + b.toInt + cin))))
  | 0x05 =>
    let r := a - b - n64 cin
    (some r, m.flags4 (rawFlags r (decide (a.toNat < b.toNat + cin)) (outS (a.toInt - b.toInt - cin))))
  | 0x06 => zf (a * b)
  | 0x07 => zf (n64 (a.toNat * b.toNat / 2 ^ 64))
  | 0x08 => zn (a &&& b)
  | 0x09 => zn (a ||| b)
  | 0x0A => zn (a ^^^ b)
  | 0x0B => zn (shlwRes a b)
  | 0x0C => zn (shrwRes a b)
  | 0x0D => zn (sarwRes a b)
  | 0x0E => (none, m.flags4 (subwRes a b).2)
  | 0x10 => zf ((a >>> (8 * (b.toNat % 8))) &&& 0xFF#64)
  | 0x11 => zf (clzwRes a)
  | 0x12 => zf (popwRes a)
  | _ => (none, m)

end MicroSt

/-- The class of a tag for TAGDISP (R192). -/
def tagClass (s : State) (t : Tag) : Nat :=
  if t = Tag.fix then 0 else if t = Tag.flo then 1 else if t = Tag.qty then 2 else if t = Tag.big then 3 else if t = Tag.chr then 4
  else if t = Tag.imm then 5 else if t = Tag.cons then 6 else if builtinPtr t then 7
  else if (s.ctag t).declared then (if (s.ctag t).pointer then 9 else 8)
  else if t = Tag.void || s.isReserved t then 10 else 11

/-- MICRO_RUNAWAY at a micro-address (R201). -/
def runaway {α : Type} (c kind ua : Nat) : MM α := do
  upd (fun s => s.putMrun c kind ua)
  fault (.of .microRunaway)

/-- A load of the routine: its own uncommitted store, or memory (R193). -/
def microLoad (x : Ctx) (m : MicroSt) (l : Loc) (byOffset weak0 : Bool) : MM Word :=
  match m.stored l.pa with
  | some w => do
    x.note false l w
    pure w
  | none => x.load l byOffset weak0

/-- A store of the routine enters the shadow once every fault of it has been raised (R195, R201). -/
def microStore (x : Ctx) (c : Nat) (m : MicroSt) (l : Loc) (w : Word) (opnd : Nat) : MM MicroSt := do
  x.storeChk l w opnd
  if 8 ≤ m.stores.length then runaway c 3 m.upc
  else pure { m with stores := m.stores ++ [{ sel := l.sel, off := l.off, pa := l.pa, word := w }] }

/-- INRANGE (Table 8-6): sb is a FIX from 0 to SIZE − 1 of the object that sa references. -/
def microInRange (x : Ctx) (m : MicroSt) (sa sb : Word) : MM Bool := do
  let s ← get
  if !s.isPtr sa.tag || s.malformed sa || sb.tag != Tag.fix then pure false
  else if sa.tag = Tag.cons then pure (decide (0 ≤ sb.pay.toInt) && decide (sb.pay.toInt < 2))
  else do
    let (_, h) ← x.header sa 0 .read m.stored
    pure (decide (0 ≤ sb.pay.toInt) && decide (sb.pay.toInt < (Ctx.size h : Int)))

/-- Conditions (Table 8-6). -/
def microCond (x : Ctx) (c : Nat) (m : MicroSt) (code : Nat) (sa sb : Word) (litTag : Tag) : MM Bool := do
  let s ← get
  match code with
  | 0x00 => pure m.fz
  | 0x01 => pure m.fn
  | 0x02 => pure m.fc
  | 0x03 => pure m.fv
  | 0x04 => pure (sa.tag == Tag.cons)
  | 0x05 => pure (sa == nilW)
  | 0x06 => pure (sa.tag == litTag)
  | 0x07 => pure (sa.tag == sb.tag)
  | 0x08 => pure (sa == sb)
  | 0x09 => pure (s.eventPending c false)
  | 0x0A => pure (s.holdActive c)
  | 0x0B => pure (s.sup c)
  | 0x0C => microInRange x m sa sb
  | 0x0D => pure (bitAt sa.pay 63)
  | _ => pure false

/-- RETURN: the micro-call stack is popped. -/
def microReturn (c : Nat) (m : MicroSt) : MM MicroSt :=
  match m.stack with
  | [] => runaway c 0 m.upc
  | r :: t => pure { m with upc := r, stack := t }

/-- GROUP_ABSENT for a register of an absent group (R81, R99 step 6). -/
def needGroups (c m : Nat) : MM Unit := do
  let s ← get
  match s.absentOf c m with
  | some g => fault { Exn.of .groupAbsent with group := g }
  | none => pure ()

/-- The ROM service entries (Table 8-7). GENERIC reads FSR, and needs group Q as the instruction does. A routine enters no other routine: an
operand with a customer tag of class MICRO is one the built-in operation does not accept (DESIGN CHOICE: notes/assumptions/86.md). -/
def microService (x : Ctx) (c : Nat) (m : MicroSt) : MM MicroSt := do
  let t := fun (k : Nat) => Tab.get m.temps (0x10 + k) Word.void
  let w ← if m.upc = 0x40 then do
      needGroups c grpQ
      match genOp x c (fld (t 15).pay 7 0) (t 0) (t 1) with
      | some g => (·.word) <$> g
      | none => fault (.of .illegal)
    else boolW <$> truth (t 0) 0
  microReturn c (m.write 0x12 w)

/-- The memory operation of a microword (Table 8-5). -/
def microMem (x : Ctx) (c : Nat) (m : MicroSt) (w : BitVec 128) (lit : W64) (sa sb : Word) : MM MicroSt := do
  let s ← get
  let saO := MicroSt.opndOf (Image.mField w 85 80)
  let sbO := MicroSt.opndOf (Image.mField w 79 74)
  let dst := Image.mField w 73 68
  let sg := Image.mField w 64 61
  let seg := fun (_ : Unit) => do
    need ((s.absentOf c grpS).isNone) { Exn.of .groupAbsent with group := 3 }
    pure (s.sgR c sg)
  match Image.mField w 67 65 with
  | 1 => do
    let sel ← seg ()
    let l ← x.resolveI sel (sa.pay.toInt + lit.toInt) .read
    x.offsetOk l
    let v ← microLoad x m l true false
    pure (m.write dst v)
  | 2 => do
    x.ptrArg sa saO
    let (l, wk) ← x.elemLoc sa saO sb.pay.toInt sbO false m.stored
    let v ← microLoad x m l false wk
    pure (m.write dst v)
  | 3 => do
    x.srcOk sb
    let sel ← seg ()
    let l ← x.resolveI sel (sa.pay.toInt + lit.toInt) .write
    x.offsetOk l
    microStore x c m l sb sbO
  | 4 => do
    let v := m.read s c lit dst
    x.ptrArg sa saO
    x.srcOk v
    let (l, _) ← x.elemLoc sa saO sb.pay.toInt sbO true m.stored
    microStore x c m l v (MicroSt.opndOf dst)
  | 5 => do
    let v ← x.allocObj c (fld lit 7 0) sa 0 saO
    pure (m.write dst v)
  | _ => pure m

/-- The ALU operation of a microword. -/
def microAlu (m : MicroSt) (w : BitVec 128) (sa sb : Word) : MicroSt :=
  let dst := Image.mField w 73 68
  match Image.mField w 91 86 with
  | 0x00 => m
  | 0x01 => m.write dst sa
  | 0x0F => m.write dst (fixN sa.tag.toNat)
  | op =>
    let (r, m) := m.alu op sa.pay sb.pay
    match r with
    | none => m
    | some r =>
      let t : Tag := match Image.mField w 60 58 with
        | 0 => Tag.fix | 1 => sa.tag | 2 => sb.tag | 3 => BitVec.ofNat 8 (Image.mField w 57 50) | _ => Tag.raww
      m.write dst ⟨t, r⟩

/-- The microword at an address: the ROM's, fixed at manufacture, or the WCS's (R187). -/
def State.microWord (s : State) (ua : Nat) : BitVec 128 := if ua < 0x2000 then Config.romWord ua else Tab.get s.wcs ua 0#128

/-- The sequencing of the microword at the routine's address (R192), with the sources that the word read. -/
def microSeq (x : Ctx) (c : Nat) (m : MicroSt) (sa sb : Word) : MM MicroSt := do
  let s ← get
  let ua := m.upc
  let w := s.microWord ua
  let tgt := Image.mField w 119 106
  let nxt := (ua + 1) % 2 ^ 14
  match Image.mField w 127 125 with
  | 0 => pure { m with upc := nxt }
  | 1 => pure { m with upc := tgt }
  | 2 => do
    let b ← microCond x c m (Image.mField w 124 120) sa sb (BitVec.ofNat 8 (Image.mField w 57 50))
    pure { m with upc := if b then tgt else nxt }
  | 3 => do
    let b ← microCond x c m (Image.mField w 124 120) sa sb (BitVec.ofNat 8 (Image.mField w 57 50))
    pure { m with upc := if b then nxt else tgt }
  | 4 => if 4 ≤ m.stack.length then runaway c 2 ua else pure { m with upc := tgt, stack := nxt :: m.stack }
  | 5 => microReturn c m
  | _ => pure { m with upc := tgt + tagClass s sa.tag }

/-- One microword (R192): its operation, and either its sequencing or the point at which its ACT is due. pair: the routine runs in a half of a
pair word, where nothing commits before the pair (R199). -/
def microStep (x : Ctx) (c : Nat) (pair : Bool) (m : MicroSt) : MM MicroSt := do
  let s ← get
  let ua := m.upc
  let service := ua = 0x40 || ua = 0x80
  let w := if service then 0#128 else s.microWord ua
  let act := Image.mField w 105 103
  if 256 ≤ m.sinceC && (pair || !(act == 1 || act == 2)) && act != 4 then runaway c 0 ua
  else if 1024 ≤ m.sinceB && !(act == 2 || act == 3 || act == 4) then runaway c 1 ua
  else do
    upd (fun s => s.countCore c 0x1D)
    if 0x2000 ≤ ua then upd (fun s => s.countCl (c / 8) 0x09 (c % 8)) else pure ()
    let m := { m with sinceC := m.sinceC + 1, sinceB := m.sinceB + 1 }
    if Tab.get s.ucBad (c / 8 * 2 ^ 14 + ua) false then do
      upd (fun s => s.microUncorr (c / 8) ua (s.corePart c))
      fault (.of .memUncorr)
    else if service then microService x c m
    else do
      let lit := (BitVec.ofNat 32 (Image.mField w 49 18)).signExtend 64
      let sa := m.read s c lit (Image.mField w 85 80)
      let sb := m.read s c lit (Image.mField w 79 74)
      let m ← if Image.mField w 67 65 = 0 then pure (microAlu m w sa sb) else microMem x c m w lit sa sb
      match act with
      | 0 => microSeq x c m sa sb
      | 5 => fault { cause := Cause.ofCode (Image.mField w 102 95), opnd := Image.mField w 94 92 }
      | _ => pure { m with act := act, srcs := (sa, sb) }

/-- A routine goes on past a point at which it stood: the microword there sequences (R192). -/
def microPast (x : Ctx) (c : Nat) (m : MicroSt) : MM MicroSt := microSeq x c { m with act := 0 } m.srcs.1 m.srcs.2

/-- Microwords up to the next commit or restart point (R196); the bounds of R201 limit their number. -/
def microRun (x : Ctx) (c : Nat) (pair : Bool) : Nat → MicroSt → MM MicroSt
  | 0, m => runaway c 0 m.upc
  | k + 1, m => do
    let m ← microStep x c pair m
    if m.act = 0 then microRun x c pair k m else pure m

/-- The shadow is applied (R195): registers first, then the stores in order. -/
def microApply (x : Ctx) (c : Nat) (m : MicroSt) : MM Unit := do
  let put := fun (r : Nat) (v : Option Word) => match v with | some w => wr c r w | none => pure ()
  put m.d m.opd
  put m.a m.opa
  put m.b m.opb
  m.stores.forM (fun e => do
    let s ← get
    x.storeDo { sel := e.sel, off := e.off, pa := e.pa, desc := x.desc s e.sel } e.word)

/-- The routine with an empty shadow after a commit. -/
def MicroSt.committed (m : MicroSt) : MicroSt := { m with opd := none, opa := none, opb := none, stores := [], sinceC := 0, act := 0 }

/-- A routine runs to its next point, where the core stands (R196). -/
def microTo (c : Nat) (m : MicroSt) : MM Next := do
  let s ← get
  let m ← microRun (s.coreCtx c) c false 300 m
  upd (fun s => s.modCore c (fun k => { k with micro := some m }))
  pure .held

/-- A routine entered at the micro-address of a decode entry (R190). -/
def microStart (c : Nat) (entry : W64) (op d a b x : Nat) (immB : Option Word) : MM Next :=
  microTo c { op := op, d := d, a := a, b := b, x := x, upc := fld entry 13 0, immB := immB }

/-- The registers XOP records for a routine. -/
def MicroSt.opnds (m : MicroSt) : Opnds := { a := some m.a, b := if m.immB.isSome then none else some m.b, d := some m.d }

namespace State

/-- An iteration of a repeat has committed (R102): COUNT, and at its end ACT and the index. -/
def iterated (s : State) (c : Nat) : State :=
  let rpt := s.rptR c
  let n := fld rpt 31 0 - 1
  let ends := n == 0
  let s := ((s.testWatch c).countCore c 0x04).countCore c 0x02
  let s := if ends || !bitAt rpt 33 then ((s.clearSkip c).stepArise c).clearHold c else s
  let s := (s.rptW c (setBit (setFld rpt 31 0 n) 32 (!ends))).dirty c grpC
  s.modCore c (fun x => { x with breakAt := 0, walk := none, ip := if ends then { x.ip with idx := x.ip.idx + 2 } else x.ip })

/-- A routine goes on from a point of a kind; a fault discards its shadow and is delivered (R197). -/
def microGo (s : State) (c pt : Nat) (m : MicroSt) : State :=
  match (microPast (s.coreCtx c) c m >>= microTo c).run s with
  | (.ok _, s') => s'
  | (.error (.exn e), s') => s'.takeFault c e (s.xop c m.opnds e.mtag)
  | (.error (.wait _), s') => s'.modCore c (fun x => { x with micro := some { m with act := pt } })

/-- A COMMIT, YIELD or END point (R196): the shadow is applied; at END the instruction, or the iteration, ends; at YIELD an enabled event ends
it; otherwise the routine goes on. -/
def microCommit (s : State) (c : Nat) : State :=
  match (s.core c).micro with
  | none => s
  | some m =>
    if !s.running c || m.act = 0 || m.act = 3 then s
    else
      let s := ((microApply (s.coreCtx c) c m).run s).2
      if m.act = 4 then
        let s := s.modCore c (fun x => { x with micro := none, hold := if s.holdActive c then none else x.hold })
        if s.repAct c then s.iterated c else s.retire c .seq
      else
        let s := s.testWatch c
        if m.act = 2 && s.eventPending c false then
          (s.countCore c 0x14).modCore c (fun x => { x with micro := none })
        else if m.act = 2 && s.shakeDue c then s.modCore c (fun x => { x with micro := none })
        else s.microGo c m.act (if m.act = 2 then { m.committed with sinceB := 0 } else m.committed)

/-- A RESTART point (R196): an enabled event discards the step and leaves the hold; otherwise the routine goes on with its shadow. -/
def microRestart (s : State) (c : Nat) : State :=
  match (s.core c).micro with
  | none => s
  | some m =>
    if !s.running c || m.act ≠ 3 then s
    else if s.eventPending c true then
      (s.countCore c 0x15).modCore c (fun x => { x with micro := none, accs := [], hold := some (s.cl c, x.ip) })
    else if s.shakeDue c then s.modCore c (fun x => { x with micro := none, accs := [] })
    else s.microGo c 3 { m with sinceB := 0 }

end State

end Sys2Proof.Machine
end

