-- ==== Sys2Proof/Machine/ArithOps.lean ====
section
/-!
DEFINITION. The generic arithmetic instructions (spec 05 R107–R126, spec 06 R138), and what an operation that has a short form establishes
before it commits (R98): registers, flags and sticky bits, or a micro-routine.
-/
namespace Sys2Proof.Machine

open Sys2Proof

/-- What an operation writes when it commits. -/
structure Eff where
  put    : List (Nat × Word) := []
  fl     : Option RawFlags := none
  ff     : FFlags := 0#5
  qnx    : Bool := false
  prom   : Bool := false
  stores : List MicroStore := []
  deriving DecidableEq, Repr

/-- An operation that has made its checks: what it writes, or the micro-routine it enters. -/
inductive OpOut where
  | eff (e : Eff)
  | micro (m : MicroSt)
  deriving DecidableEq, Repr

def Eff.one (d : Nat) (w : Word) : OpOut := .eff { put := [(d, w)] }
def Eff.res (d : Nat) (r : GRes) : OpOut := .eff { put := [(d, r.word)], ff := r.ff, qnx := r.qnx, prom := r.prom }
def Eff.raw (d : Nat) (r : W64 × RawFlags) : OpOut := .eff { put := [(d, fixW r.1)], fl := some r.2 }

/-- The commit of an operation: registers, flags, sticky bits, stores (R107, R195). -/
def applyEff (x : Ctx) (c : Nat) (e : Eff) : MM Unit := do
  e.put.forM (fun p => wr c p.1 p.2)
  upd (fun s => match e.fl with | some f => s.putFlags c f | none => s)
  upd (fun s => s.putSticky c e.ff e.qnx e.prom)
  upd (fun s => if e.prom then s.countCore c 0x0E else s)
  e.stores.forM (fun m => do
    let s ← get
    x.storeDo { sel := m.sel, off := m.off, pa := m.pa, desc := x.desc s m.sel } m.word)

/-- A long operation ends: it commits, or it enters its routine. -/
def finishOp (c : Nat) (o : MM OpOut) : MM Next := do
  match ← o with
  | .eff e => do
    let s ← get
    applyEff (s.coreCtx c) c e
    pure .seq
  | .micro m => microTo c m

/-- The routine of slot k, entered through its decode entry without the entry's marks (R60, R189). -/
def slotOp (c k op d a b xm : Nat) (immB : Option Word) : MM OpOut := do
  let s ← get
  let e := s.decEntry c (0xD0 + k)
  need (bitAt e 31) (.of .illegal)
  pure (.micro { op := op, d := d, a := a, b := b, x := xm, upc := fld e 13 0, immB := immB })

/-- A generic operation: a MICRO customer tag of a source, the first before the second, selects its routine (R60). -/
def genericOp (c op d a b xm : Nat) (immB : Option Word) (srcs : List Word) (g : MM OpOut) : MM OpOut := do
  let s ← get
  match srcs.findSome? s.microSlot with
  | some k => slotOp c k op d a b xm immB
  | none => g

/-- The two-operand generic operation of a long opcode with a register b. -/
def genBin (op c d a b : Nat) : MM OpOut := do
  let va ← rd c a
  let vb ← rd c b
  let s ← get
  genericOp c op d a b 0 none [va, vb] (match genOp (s.coreCtx c) c op va vb with
    | some g => Eff.res d <$> g
    | none => fault (.of .illegal))

/-- An immediate form: the operation base with a FIX second operand (R108). -/
def genImm (op base c d a : Nat) (w : Word) : MM OpOut := do
  let va ← rd c a
  let s ← get
  genericOp c op d a 0 0 (some w) [va] (match genOp (s.coreCtx c) c base va w with
    | some g => Eff.res d <$> g
    | none => fault (.of .illegal))

/-- NEG and ABS. -/
def genUn (op c d a : Nat) (f : Ctx → Nat → Word → MM GRes) : MM OpOut := do
  let va ← rd c a
  let s ← get
  genericOp c op d a 0 0 (some Word.void) [va] (Eff.res d <$> f (s.coreCtx c) c va)

/-- A conversion of Table 5-3: no customer tag selects a routine. -/
def convOp (c d a : Nat) (acc : Tag → Bool) (f : Num → Nat → Except Exn NRes) : MM OpOut := do
  let va ← rd c a
  let s ← get
  Eff.res d <$> genConv (s.coreCtx c) c acc f va

/-- The decode facts of the register forms and of the immediate forms: the registers used, and the further groups. -/
def preDAB (d a b extra : Nat) : Pre := { groups := regGrps [d, a, b] ||| extra, opnds := { a := some a, b := some b, d := some d } }
def preDA (d a extra : Nat) : Pre := { groups := regGrps [d, a] ||| extra, opnds := { a := some a, d := some d } }
def preImm (d a extra : Nat) : Pre := { groups := regGrps [d, a] ||| extra, opnds := { a := some a, d := some d, immB := true } }

/-- The three shapes of generic arithmetic as instructions. Group Q, which holds ASR and FSR, must be present whatever the operands (DESIGN
CHOICE: notes/assumptions/96.md). -/
def runBin (op : Nat) (c : CoreId) (d a b : RegN) (s : State) : State :=
  s.runCore c.val (preDAB d.val a.val b.val grpQ) (finishOp c.val (genBin op c.val d.val a.val b.val))
def runImm (op base : Nat) (c : CoreId) (d a : RegN) (imm : BitVec 13) (s : State) : State :=
  s.runCore c.val (preImm d.val a.val grpQ) (finishOp c.val (genImm op base c.val d.val a.val (immFix imm)))
def runConv (acc : Tag → Bool) (f : Num → Nat → Except Exn NRes) (c : CoreId) (d a : RegN) (s : State) : State :=
  s.runCore c.val (preDA d.val a.val grpQ) (finishOp c.val (convOp c.val d.val a.val acc f))

/-- ADD (R109). -/
def execAdd (c : CoreId) (d a b : RegN) (s : State) : Host.Outcome State Fault Refusal := .next (runBin 0x01 c d a b s)
/-- SUB (R109). -/
def execSub (c : CoreId) (d a b : RegN) (s : State) : Host.Outcome State Fault Refusal := .next (runBin 0x02 c d a b s)
/-- MUL (R109). -/
def execMul (c : CoreId) (d a b : RegN) (s : State) : Host.Outcome State Fault Refusal := .next (runBin 0x03 c d a b s)
/-- DIV (R114, R120). -/
def execDiv (c : CoreId) (d a b : RegN) (s : State) : Host.Outcome State Fault Refusal := .next (runBin 0x04 c d a b s)
/-- QUO (R114, R120). -/
def execQuo (c : CoreId) (d a b : RegN) (s : State) : Host.Outcome State Fault Refusal := .next (runBin 0x05 c d a b s)
/-- MOD (R114, R120). -/
def execMod (c : CoreId) (d a b : RegN) (s : State) : Host.Outcome State Fault Refusal := .next (runBin 0x06 c d a b s)
/-- CMP (R121). -/
def execCmp (c : CoreId) (d a b : RegN) (s : State) : Host.Outcome State Fault Refusal := .next (runBin 0x08 c d a b s)
/-- LT (R121). -/
def execLt (c : CoreId) (d a b : RegN) (s : State) : Host.Outcome State Fault Refusal := .next (runBin 0x09 c d a b s)
/-- LE (R121). -/
def execLe (c : CoreId) (d a b : RegN) (s : State) : Host.Outcome State Fault Refusal := .next (runBin 0x0A c d a b s)
/-- NUMEQ (R121). -/
def execNumeq (c : CoreId) (d a b : RegN) (s : State) : Host.Outcome State Fault Refusal := .next (runBin 0x0B c d a b s)
/-- MIN (R122). -/
def execMin (c : CoreId) (d a b : RegN) (s : State) : Host.Outcome State Fault Refusal := .next (runBin 0x0D c d a b s)
/-- MAX (R122). -/
def execMax (c : CoreId) (d a b : RegN) (s : State) : Host.Outcome State Fault Refusal := .next (runBin 0x0E c d a b s)
/-- ADDI (R108). -/
def execAddi (c : CoreId) (d a : RegN) (imm : BitVec 13) (s : State) : Host.Outcome State Fault Refusal := .next (runImm 0x10 0x01 c d a imm s)
/-- SUBI (R108). -/
def execSubi (c : CoreId) (d a : RegN) (imm : BitVec 13) (s : State) : Host.Outcome State Fault Refusal := .next (runImm 0x11 0x02 c d a imm s)
/-- MULI (R108). -/
def execMuli (c : CoreId) (d a : RegN) (imm : BitVec 13) (s : State) : Host.Outcome State Fault Refusal := .next (runImm 0x12 0x03 c d a imm s)
/-- CMPI (R108). -/
def execCmpi (c : CoreId) (d a : RegN) (imm : BitVec 13) (s : State) : Host.Outcome State Fault Refusal := .next (runImm 0x13 0x08 c d a imm s)
/-- LTI (R108). -/
def execLti (c : CoreId) (d a : RegN) (imm : BitVec 13) (s : State) : Host.Outcome State Fault Refusal := .next (runImm 0x14 0x09 c d a imm s)
/-- LEI (R108). -/
def execLei (c : CoreId) (d a : RegN) (imm : BitVec 13) (s : State) : Host.Outcome State Fault Refusal := .next (runImm 0x15 0x0A c d a imm s)

/-- NEG (R109, R115). -/
def execNeg (c : CoreId) (d a : RegN) (s : State) : Host.Outcome State Fault Refusal :=
  .next (s.runCore c.val (preDA d.val a.val grpQ) (finishOp c.val (genUn 0x07 c.val d.val a.val genNeg)))
/-- ABS (R109, R115). -/
def execAbs (c : CoreId) (d a : RegN) (s : State) : Host.Outcome State Fault Refusal :=
  .next (s.runCore c.val (preDA d.val a.val grpQ) (finishOp c.val (genUn 0x0F c.val d.val a.val genAbs)))

/-- ASHL and ASHR: SHLW and SARW with x bit 0 set (R116). -/
def shiftOp (op : Nat) (right : Bool) (c d a b : Nat) : MM OpOut := do
  let va ← rd c a
  let vb ← rd c b
  let s ← get
  genericOp c op d a b 1 none [va, vb] (Eff.res d <$> genShift (s.coreCtx c) c right va vb)
/-- ASHL (R116). -/
def execAshl (c : CoreId) (d a b : RegN) (s : State) : Host.Outcome State Fault Refusal :=
  .next (s.runCore c.val (preDAB d.val a.val b.val grpQ) (finishOp c.val (shiftOp 0x22 false c.val d.val a.val b.val)))
/-- ASHR (R116). -/
def execAshr (c : CoreId) (d a b : RegN) (s : State) : Host.Outcome State Fault Refusal :=
  .next (s.runCore c.val (preDAB d.val a.val b.val grpQ) (finishOp c.val (shiftOp 0x24 true c.val d.val a.val b.val)))

/-- Identity of the whole words (R33). -/
def eqOp (c d a : Nat) (w : Word) : MM OpOut := do
  let va ← rd c a
  pure (Eff.one d (boolW (va == w)))
/-- EQ (R33). -/
def execEq (c : CoreId) (d a b : RegN) (s : State) : Host.Outcome State Fault Refusal :=
  .next (s.runCore c.val (preDAB d.val a.val b.val 0) (finishOp c.val (rd c.val b.val >>= eqOp c.val d.val a.val)))
/-- EQI (R33, R138): a FIX immediate. -/
def execEqi (c : CoreId) (d a : RegN) (imm : BitVec 13) (s : State) : Host.Outcome State Fault Refusal :=
  .next (s.runCore c.val (preImm d.val a.val 0) (finishOp c.val (eqOp c.val d.val a.val (immFix imm))))

/-- FIXFLO (R126). -/
def execFixflo (c : CoreId) (d a : RegN) (s : State) : Host.Outcome State Fault Refusal := .next (runConv intTag Arith.fixflo c d a s)
/-- FLOFIX (R126). -/
def execFlofix (c : CoreId) (d a : RegN) (s : State) : Host.Outcome State Fault Refusal := .next (runConv (· == Tag.flo) Arith.flofix c d a s)
/-- FSQRT (R126). -/
def execFsqrt (c : CoreId) (d a : RegN) (s : State) : Host.Outcome State Fault Refusal := .next (runConv (numericTag · false) Arith.fsqrt c d a s)
/-- QTYVAL (R126). -/
def execQtyval (c : CoreId) (d a : RegN) (s : State) : Host.Outcome State Fault Refusal :=
  .next (s.runCore c.val (preDA d.val a.val 0) (finishOp c.val (convOp c.val d.val a.val (· == Tag.qty) (fun n _ => Arith.qtyval n))))
/-- QTYDIM (R126). -/
def qtydimOp (c d a : Nat) : MM OpOut := do
  let va ← rd c a
  need (va.tag == Tag.qty) (.of .tag 1)
  pure (Eff.one d (fixN (fld va.pay 17 0)))
def execQtydim (c : CoreId) (d a : RegN) (s : State) : Host.Outcome State Fault Refusal :=
  .next (s.runCore c.val (preDA d.val a.val 0) (finishOp c.val (qtydimOp c.val d.val a.val)))
/-- QTYMK (R126). -/
def qtymkOp (c d a b : Nat) : MM OpOut := do
  let va ← rd c a
  let vb ← rd c b
  let s ← get
  Eff.res d <$> genQtymk (s.coreCtx c) c va vb
def execQtymk (c : CoreId) (d a b : RegN) (s : State) : Host.Outcome State Fault Refusal :=
  .next (s.runCore c.val (preDAB d.val a.val b.val grpQ) (finishOp c.val (qtymkOp c.val d.val a.val b.val)))
/-- FMA (R126). -/
def fmaOp (c d a b : Nat) : MM OpOut := do
  let va ← rd c a
  let vb ← rd c b
  let vd ← rd c d
  let s ← get
  Eff.res d <$> genFma (s.coreCtx c) c va vb vd
def execFma (c : CoreId) (d a b : RegN) (s : State) : Host.Outcome State Fault Refusal :=
  .next (s.runCore c.val (preDAB d.val a.val b.val grpQ) (finishOp c.val (fmaOp c.val d.val a.val b.val)))

end Sys2Proof.Machine
end

