-- ==== Sys2Proof/Machine/RawOps.lean ====
section
/-!
DEFINITION. The raw instructions (spec 05 R127–R129): FIX or RAWW operands, a FIX result, and the flags N, Z, C and V where Table 5-5 gives
them.
-/
namespace Sys2Proof.Machine

open Sys2Proof

/-- A raw operation without flags and with flags, on its two source words. -/
def rawOp2 (d : Nat) (va vb : Word) (f : W64 → W64 → W64) : MM OpOut := do
  rawArg va 1
  rawArg vb 2
  pure (Eff.one d (fixW (f va.pay vb.pay)))
def rawFl2 (d : Nat) (va vb : Word) (f : W64 → W64 → W64 × RawFlags) : MM OpOut := do
  rawArg va 1
  rawArg vb 2
  pure (Eff.raw d (f va.pay vb.pay))
/-- DIVW and MODW: a zero divisor faults DIV0 (R128). -/
def rawDiv (d : Nat) (va vb : Word) (f : W64 → W64 → W64 × RawFlags) : MM OpOut := do
  rawArg va 1
  rawArg vb 2
  need (vb.pay != 0#64) (.of .div0 2)
  pure (Eff.raw d (f va.pay vb.pay))
def rawOp1 (d : Nat) (va : Word) (f : W64 → W64) : MM OpOut := do
  rawArg va 1
  pure (Eff.one d (fixW (f va.pay)))

/-- The operation on two registers, and on a register and an immediate word. -/
def regs2 (c a b : Nat) (f : Word → Word → MM OpOut) : MM OpOut := do
  let va ← rd c a
  let vb ← rd c b
  f va vb
def regImm (c a : Nat) (w : Word) (f : Word → Word → MM OpOut) : MM OpOut := do
  let va ← rd c a
  f va w

/-- The shapes of raw instructions. -/
def runRaw2 (extra : Nat) (f : Nat → Word → Word → MM OpOut) (c : CoreId) (d a b : RegN) (s : State) : State :=
  s.runCore c.val (preDAB d.val a.val b.val extra) (finishOp c.val (regs2 c.val a.val b.val (f d.val)))
def runRaw1 (f : W64 → W64) (c : CoreId) (d a : RegN) (s : State) : State :=
  s.runCore c.val (preDA d.val a.val 0) (finishOp c.val (rd c.val a.val >>= fun va => rawOp1 d.val va f))
def runRawImm (extra : Nat) (f : Nat → Word → Word → MM OpOut) (c : CoreId) (d a : RegN) (w : Word) (s : State) : State :=
  s.runCore c.val (preImm d.val a.val extra) (finishOp c.val (regImm c.val a.val w (f d.val)))

/-- An immediate zero-extended, for ANDWI, ORWI and XORWI (R127). -/
def immZero {n : Nat} (i : BitVec n) : Word := fixN i.toNat

/-- ADDW (R127–R129). -/
def execAddw (c : CoreId) (d a b : RegN) (s : State) : Host.Outcome State Fault Refusal := .next (runRaw2 grpQ (fun d x y => rawFl2 d x y addwRes) c d a b s)
/-- SUBW (R127–R129). -/
def execSubw (c : CoreId) (d a b : RegN) (s : State) : Host.Outcome State Fault Refusal := .next (runRaw2 grpQ (fun d x y => rawFl2 d x y subwRes) c d a b s)
/-- MULW (R127–R129). -/
def execMulw (c : CoreId) (d a b : RegN) (s : State) : Host.Outcome State Fault Refusal := .next (runRaw2 grpQ (fun d x y => rawFl2 d x y mulwRes) c d a b s)
/-- DIVW (R127–R129). -/
def execDivw (c : CoreId) (d a b : RegN) (s : State) : Host.Outcome State Fault Refusal := .next (runRaw2 grpQ (fun d x y => rawDiv d x y divwRes) c d a b s)
/-- MODW (R127–R129). -/
def execModw (c : CoreId) (d a b : RegN) (s : State) : Host.Outcome State Fault Refusal := .next (runRaw2 grpQ (fun d x y => rawDiv d x y modwRes) c d a b s)
/-- NEGW (R127–R129). -/
def execNegw (c : CoreId) (d a : RegN) (s : State) : Host.Outcome State Fault Refusal :=
  .next (s.runCore c.val (preDA d.val a.val grpQ) (finishOp c.val (do
    let va ← rd c.val a.val
    rawArg va 1
    pure (Eff.raw d.val (negwRes va.pay)))))
/-- ANDW (R127, R128). -/
def execAndw (c : CoreId) (d a b : RegN) (s : State) : Host.Outcome State Fault Refusal := .next (runRaw2 0 (fun d x y => rawOp2 d x y (· &&& ·)) c d a b s)
/-- ORW (R127, R128). -/
def execOrw (c : CoreId) (d a b : RegN) (s : State) : Host.Outcome State Fault Refusal := .next (runRaw2 0 (fun d x y => rawOp2 d x y (· ||| ·)) c d a b s)
/-- XORW (R127, R128). -/
def execXorw (c : CoreId) (d a b : RegN) (s : State) : Host.Outcome State Fault Refusal := .next (runRaw2 0 (fun d x y => rawOp2 d x y (· ^^^ ·)) c d a b s)
/-- SHLW (R127, R128). -/
def execShlw (c : CoreId) (d a b : RegN) (s : State) : Host.Outcome State Fault Refusal := .next (runRaw2 0 (fun d x y => rawOp2 d x y shlwRes) c d a b s)
/-- SHRW (R127, R128). -/
def execShrw (c : CoreId) (d a b : RegN) (s : State) : Host.Outcome State Fault Refusal := .next (runRaw2 0 (fun d x y => rawOp2 d x y shrwRes) c d a b s)
/-- SARW (R127, R128). -/
def execSarw (c : CoreId) (d a b : RegN) (s : State) : Host.Outcome State Fault Refusal := .next (runRaw2 0 (fun d x y => rawOp2 d x y sarwRes) c d a b s)
/-- ROLW (R127, R128). -/
def execRolw (c : CoreId) (d a b : RegN) (s : State) : Host.Outcome State Fault Refusal := .next (runRaw2 0 (fun d x y => rawOp2 d x y rolwRes) c d a b s)
/-- NOTW (R127, R128). -/
def execNotw (c : CoreId) (d a : RegN) (s : State) : Host.Outcome State Fault Refusal := .next (runRaw1 (~~~ ·) c d a s)
/-- CLZW (R127, R128). -/
def execClzw (c : CoreId) (d a : RegN) (s : State) : Host.Outcome State Fault Refusal := .next (runRaw1 clzwRes c d a s)
/-- POPW (R127, R128). -/
def execPopw (c : CoreId) (d a : RegN) (s : State) : Host.Outcome State Fault Refusal := .next (runRaw1 popwRes c d a s)
/-- ADDWI (R127–R129). -/
def execAddwi (c : CoreId) (d a : RegN) (imm : BitVec 13) (s : State) : Host.Outcome State Fault Refusal := .next (runRawImm grpQ (fun d x y => rawFl2 d x y addwRes) c d a (immFix imm) s)
/-- ANDWI (R127, R128). -/
def execAndwi (c : CoreId) (d a : RegN) (imm : BitVec 13) (s : State) : Host.Outcome State Fault Refusal := .next (runRawImm 0 (fun d x y => rawOp2 d x y (· &&& ·)) c d a (immZero imm) s)
/-- ORWI (R127, R128). -/
def execOrwi (c : CoreId) (d a : RegN) (imm : BitVec 13) (s : State) : Host.Outcome State Fault Refusal := .next (runRawImm 0 (fun d x y => rawOp2 d x y (· ||| ·)) c d a (immZero imm) s)
/-- XORWI (R127, R128). -/
def execXorwi (c : CoreId) (d a : RegN) (imm : BitVec 13) (s : State) : Host.Outcome State Fault Refusal := .next (runRawImm 0 (fun d x y => rawOp2 d x y (· ^^^ ·)) c d a (immZero imm) s)
/-- SHLWI (R127, R128). -/
def execShlwi (c : CoreId) (d a : RegN) (imm : BitVec 13) (s : State) : Host.Outcome State Fault Refusal := .next (runRawImm 0 (fun d x y => rawOp2 d x y shlwRes) c d a (immFix imm) s)
/-- SHRWI (R127, R128). -/
def execShrwi (c : CoreId) (d a : RegN) (imm : BitVec 13) (s : State) : Host.Outcome State Fault Refusal := .next (runRawImm 0 (fun d x y => rawOp2 d x y shrwRes) c d a (immFix imm) s)
/-- SARWI (R127, R128). -/
def execSarwi (c : CoreId) (d a : RegN) (imm : BitVec 13) (s : State) : Host.Outcome State Fault Refusal := .next (runRawImm 0 (fun d x y => rawOp2 d x y sarwRes) c d a (immFix imm) s)

end Sys2Proof.Machine
end

