-- ==== Sys2Proof/Machine/MoveOps.lean ====
section
/-!
DEFINITION. Moves, tags and constants (spec 06 R135–R137), and CAR and CDR, which have short forms (R142).
-/
namespace Sys2Proof.Machine

open Sys2Proof

/-- MOV, TAGOF, NULL and TAGP on the source word (Table 6-1). -/
def movOp (d : Nat) (va : Word) : MM OpOut := pure (Eff.one d va)
def tagofOp (d : Nat) (va : Word) : MM OpOut := pure (Eff.one d (fixN va.tag.toNat))
def nullOp (d : Nat) (va : Word) : MM OpOut := pure (Eff.one d (boolW (va == nilW)))
def tagpOp (d : Nat) (x : BitVec 8) (va : Word) : MM OpOut := pure (Eff.one d (boolW (va.tag == x)))
/-- NOT (R42). -/
def notOp (d : Nat) (va : Word) : MM OpOut := do
  let t ← truth va 1
  pure (Eff.one d (boolW (!t)))

/-- The tags a tag-setting instruction may create: FWD in no mode, in user mode those of Table 2-2 and USERMAKE customer tags (R35, R136). -/
def State.mayMake (s : State) (c : Nat) (t : Tag) : Bool :=
  t != Tag.fwd && (s.sup c ||
    (t == Tag.void || t == Tag.fix || t == Tag.flo || t == Tag.qty || t == Tag.chr || t == Tag.imm ||
      ((s.ctag t).declared && (s.ctag t).userMake)))

/-- TAGSET (R136). -/
def tagsetOp (c d : Nat) (va vb : Word) : MM OpOut := do
  rawArg va 1
  let s ← get
  let t : Tag := BitVec.ofNat 8 (fld vb.pay 7 0)
  need (vb.tag == Tag.fix && fld vb.pay 63 8 == 0 && !s.isReserved t) (.of .tag 2)
  need (s.mayMake c t) (.of .priv)
  pure (Eff.one d ⟨t, va.pay⟩)

/-- The tags whose payload RAWOF reveals in user mode: R136's list, in which a reserved tag does not stand (DEDUCED:
notes/assumptions/93.md). -/
def State.rawable (s : State) (t : Tag) : Bool :=
  t == Tag.void || t == Tag.fix || t == Tag.flo || t == Tag.qty || t == Tag.chr || t == Tag.imm || t == Tag.raww ||
    ((s.ctag t).declared && !(s.ctag t).pointer)

/-- RAWOF (R135, R136). -/
def rawofOp (c d : Nat) (va : Word) : MM OpOut := do
  let s ← get
  need (s.sup c || s.rawable va.tag) (.of .priv)
  pure (Eff.one d (fixW va.pay))

/-- CAR and CDR of a CONS, or of IMM NIL (R142). With SETCAR and SETCDR these are the list operations that a customer tag of class MICRO takes
into its routine (R59, R60); a walk takes none (DEDUCED: notes/assumptions/87.md). Field b is zero, so OPB of the routine is g0 (Table 8-2). -/
def carOp (op c d a i : Nat) : MM OpOut := do
  let va ← rd c a
  let s ← get
  genericOp c op d a 0 0 none [va]
    (if va = nilW then pure (Eff.one d nilW)
     else do
       need (va.tag == Tag.cons) (.of .tag 1)
       let x := s.coreCtx c
       x.ptrArg va 1
       let w ← x.loadCell va i
       pure (Eff.one d w))

/-- A move of one source register. -/
def runMov (f : Nat → Word → MM OpOut) (c : CoreId) (d a : RegN) (s : State) : State :=
  s.runCore c.val (preDA d.val a.val 0) (finishOp c.val (rd c.val a.val >>= f d.val))

/-- MOV (R135). -/
def execMov (c : CoreId) (d a : RegN) (s : State) : Host.Outcome State Fault Refusal := .next (runMov movOp c d a s)
/-- TAGOF (R135). -/
def execTagof (c : CoreId) (d a : RegN) (s : State) : Host.Outcome State Fault Refusal := .next (runMov tagofOp c d a s)
/-- NULL (R135). -/
def execNull (c : CoreId) (d a : RegN) (s : State) : Host.Outcome State Fault Refusal := .next (runMov nullOp c d a s)
/-- NOT (R135). -/
def execNotI (c : CoreId) (d a : RegN) (s : State) : Host.Outcome State Fault Refusal := .next (runMov notOp c d a s)
/-- TAGP (R135). -/
def execTagp (c : CoreId) (d a : RegN) (x : BitVec 8) (s : State) : Host.Outcome State Fault Refusal := .next (runMov (tagpOp · x) c d a s)
/-- RAWOF (R136). -/
def execRawof (c : CoreId) (d a : RegN) (s : State) : Host.Outcome State Fault Refusal := .next (runMov (rawofOp c.val) c d a s)
/-- TAGSET (R136). -/
def execTagset (c : CoreId) (d a b : RegN) (s : State) : Host.Outcome State Fault Refusal :=
  .next (s.runCore c.val (preDAB d.val a.val b.val 0) (finishOp c.val (regs2 c.val a.val b.val (tagsetOp c.val d.val))))

/-- An instruction that writes a constant. -/
def runConst (ill : Bool) (c : CoreId) (d : RegN) (w : Word) (s : State) : State :=
  s.runCore c.val { illegal := ill, groups := regGrp d.val, opnds := { d := some d.val } } (finishOp c.val (pure (Eff.one d.val w)))
/-- MOVI (R135). -/
def execMovi (c : CoreId) (d : RegN) (imm : BitVec 18) (s : State) : Host.Outcome State Fault Refusal := .next (runConst false c d (immFix imm) s)
/-- IMMI: subcodes above 4 are reserved (R41, R137). -/
def execImmi (c : CoreId) (d : RegN) (imm : BitVec 18) (s : State) : Host.Outcome State Fault Refusal :=
  .next (runConst (decide (4 < imm.toNat)) c d (immW imm.toNat) s)
/-- CHRI (R137). -/
def execChri (c : CoreId) (d : RegN) (imm : BitVec 18) (s : State) : Host.Outcome State Fault Refusal :=
  .next (runConst (decide (0xD800 ≤ imm.toNat) && decide (imm.toNat ≤ 0xDFFF)) c d ⟨Tag.chr, n64 imm.toNat⟩ s)

/-- LDK (R137). -/
def ldkOp (c d i : Nat) : MM OpOut := do
  let s ← get
  let x := s.coreCtx c
  let ip := (s.core c).ip
  let l ← x.resolve ip.sel (ip.off + 2) .exec
  let w ← x.load l
  need (w != nilW) (.of .segLimit)
  let s ← get
  let bad : Exn := { Exn.at .tag l.sel l.off with mtag := w.tag }
  need (w.tag == Tag.vec && !s.malformed w) bad
  let e ← mapExn (fun (e : Exn) => if e.cause = .tag then bad else e) (x.loadElem w 0 i 0)
  pure (Eff.one d e)
def execLdk (c : CoreId) (d : RegN) (imm : BitVec 18) (s : State) : Host.Outcome State Fault Refusal :=
  .next (s.runCore c.val { groups := regGrp d.val, opnds := { d := some d.val } } (finishOp c.val (ldkOp c.val d.val imm.toNat)))

/-- CAR (R142). -/
def execCar (c : CoreId) (d a : RegN) (s : State) : Host.Outcome State Fault Refusal :=
  .next (s.runCore c.val (preDA d.val a.val 0) (finishOp c.val (carOp 0x48 c.val d.val a.val 0)))
/-- CDR (R142). -/
def execCdr (c : CoreId) (d a : RegN) (s : State) : Host.Outcome State Fault Refusal :=
  .next (s.runCore c.val (preDA d.val a.val 0) (finishOp c.val (carOp 0x49 c.val d.val a.val 1)))

end Sys2Proof.Machine
end

