-- ==== Sys2Proof/Machine/PairOps.lean ====
section
/-!
DEFINITION. Pair words (spec 04 R96–R98): the short operations of Table 4-4, the illegal pairs, and their common commit.
-/
namespace Sys2Proof.ShortOp

open Sys2Proof.Machine

def dN (o : ShortOp) : Nat := o.d.val
def sN (o : ShortOp) : Nat := o.s.toNat

/-- The registers a short operation reads and writes (Table 4-4). -/
def reads (o : ShortOp) : List Nat :=
  match o.op.toNat with
  | 0x01 => [o.sN] | 0x02 => [o.dN, o.sN] | 0x03 => [o.dN, o.sN] | 0x04 => [o.dN, o.sN] | 0x05 => [o.dN, o.sN] | 0x06 => [o.dN, o.sN]
  | 0x07 => [o.dN, o.sN] | 0x08 => [o.dN, o.sN] | 0x09 => [o.dN] | 0x0B => [o.dN] | 0x0C => [o.dN] | 0x0D => [o.dN] | 0x0E => [o.sN]
  | 0x0F => [o.sN] | 0x10 => [o.sN] | 0x11 => [o.dN, o.sN] | 0x12 => [o.dN, o.sN] | 0x13 => [o.dN, o.sN] | 0x14 => [o.sN]
  | 0x15 => [o.sN] | _ => []
def writes (o : ShortOp) : List Nat := if o.op = 0#5 then [] else [o.dN]

/-- A reserved short opcode, NOP.S with a nonzero field, or IMMI.S of a reserved subcode (R96). -/
def reserved (o : ShortOp) : Bool :=
  decide (0x17 ≤ o.op.toNat) || (o.op == 0#5 && (o.dN != 0 || o.sN != 0)) || (o.op == 0x16#5 && decide (4 < o.sN))

/-- The register groups of its registers, and group Q where its long equivalent writes ASR or FSR. -/
def groups (o : ShortOp) : Nat :=
  let n := o.op.toNat
  regGrps (o.reads ++ o.writes) |||
    (if (decide (2 ≤ n) && decide (n ≤ 5)) || n == 9 || n == 0x12 || n == 0x13 then grpQ else 0)

/-- The operands of its long equivalent (Table 4-4), for XOP. -/
def opnds (o : ShortOp) : Opnds :=
  match o.reads with
  | [] => { d := o.writes.head? }
  | [r] =>
    let imm := o.op == 0x09#5 || (decide (0x0B ≤ o.op.toNat) && decide (o.op.toNat ≤ 0x0D))
    { a := some r, d := some o.dN, immB := imm }
  | _ => { a := some o.dN, b := some o.sN, d := some o.dN }

/-- The operation of its long equivalent. -/
def run (o : ShortOp) (c : Nat) : MM OpOut :=
  let d := o.dN
  let r := o.sN
  let v : Word := immFix o.s
  match o.op.toNat with
  | 0x01 => rd c r >>= movOp d
  | 0x02 => genBin 0x01 c d d r
  | 0x03 => genBin 0x02 c d d r
  | 0x04 => regs2 c d r (fun x y => rawFl2 d x y addwRes)
  | 0x05 => regs2 c d r (fun x y => rawFl2 d x y subwRes)
  | 0x06 => regs2 c d r (fun x y => rawOp2 d x y (· &&& ·))
  | 0x07 => regs2 c d r (fun x y => rawOp2 d x y (· ||| ·))
  | 0x08 => regs2 c d r (fun x y => rawOp2 d x y (· ^^^ ·))
  | 0x09 => genImm 0x10 0x01 c d d v
  | 0x0A => pure (Eff.one d v)
  | 0x0B => regImm c d (fixN r) (fun x y => rawOp2 d x y shlwRes)
  | 0x0C => regImm c d (fixN r) (fun x y => rawOp2 d x y shrwRes)
  | 0x0D => regImm c d (fixN r) (fun x y => rawOp2 d x y sarwRes)
  | 0x0E => carOp 0x48 c d r 0
  | 0x0F => carOp 0x49 c d r 1
  | 0x10 => rd c r >>= tagofOp d
  | 0x11 => rd c r >>= eqOp c d d
  | 0x12 => genBin 0x09 c d d r
  | 0x13 => genBin 0x0A c d d r
  | 0x14 => rd c r >>= notOp d
  | 0x15 => rd c r >>= nullOp d
  | 0x16 => pure (Eff.one d (immW r))
  | _ => pure (.eff {})

end Sys2Proof.ShortOp

namespace Sys2Proof.Machine

open Sys2Proof

/-- A routine in a half runs to its END: nothing commits before the pair, and a YIELD is a RESTART point (R199). -/
def microHalf (x : Ctx) (c : Nat) : Nat → MicroSt → MM MicroSt
  | 0, m => runaway c 0 m.upc
  | k + 1, m => do
    let m ← microRun x c true 300 m
    let s ← get
    if m.act = 4 then pure m
    else if m.act = 1 then do
      let m ← microPast x c m
      microHalf x c k m
    else if s.eventPending c true then do
      upd (fun s => (s.countCore c 0x15).modCore c (fun k => { k with hold := some (s.cl c, k.ip) }))
      throw (.wait .none)
    else do
      let m ← microPast x c { m with sinceB := 0 }
      microHalf x c k m

/-- What a half writes. -/
def halfEff (x : Ctx) (c : Nat) (o : MM OpOut) : MM Eff := do
  match ← o with
  | .eff e => pure e
  | .micro m => do
    let m ← microHalf x c 300 m
    let w := fun (r : Nat) (v : Option Word) => (v.map (fun v => (r, v))).toList
    pure { put := w m.d m.opd ++ w m.a m.opa ++ w m.b m.opb, stores := m.stores }

/-- ILLEGAL_PAIR (R97). -/
def badPair (a b : ShortOp) : Bool := a.writes.any (fun r => b.writes.contains r || b.reads.contains r)

/-- A pair word: all reads and checks of both halves, then both commits, A first (R98). -/
def pairBody (c : Nat) (a b : ShortOp) : MM Next := do
  let s ← get
  let x := s.coreCtx c
  let ea ← halfEff x c (a.run c)
  let eb ← inHalf true (halfEff x c (b.run c))
  applyEff x c ea
  applyEff x c eb
  upd (fun s => s.countCore c 0x03)
  pure .seq

def pairPre (a b : ShortOp) : Pre :=
  { illegal := a.reserved, illegalB := b.reserved, badPair := badPair a b, groups := a.groups, opnds := a.opnds, groupsB := b.groups,
    opndsB := b.opnds }

/-- PAIR_WORD (R98). -/
def execPairWord (c : CoreId) (a b : ShortOp) (s : State) : Host.Outcome State Fault Refusal :=
  .next (s.runCore c.val (pairPre a b) (pairBody c.val a b))

end Sys2Proof.Machine
end

