-- ==== Sys2Proof/Machine/ListOps.lean ====
section
/-!
DEFINITION. List stores and the resumable walks (spec 06 R142–R145). A command of a walk does one cell step; WALK_STEP does the next one.
-/
namespace Sys2Proof.Machine

open Sys2Proof

/-- SETCAR and SETCDR (R142). -/
def setcarOp (op c d a i : Nat) : MM OpOut := do
  let vd ← rd c d
  let va ← rd c a
  let s ← get
  genericOp c op d a 0 0 none [vd] (do
    need (vd.tag == Tag.cons) (.of .tag 3)
    let x := s.coreCtx c
    x.ptrArg vd 3
    x.srcOk va
    let l ← x.cellLoc vd i .write
    x.storeChk l va 1
    pure (.eff { stores := [{ sel := l.sel, off := l.off, pa := l.pa, word := va }] }))
/-- SETCAR (R142). -/
def execSetcar (c : CoreId) (d a : RegN) (s : State) : Host.Outcome State Fault Refusal :=
  .next (s.runCore c.val (preDA d.val a.val 0) (finishOp c.val (setcarOp 0x4B c.val d.val a.val 0)))
/-- SETCDR (R142). -/
def execSetcdr (c : CoreId) (d a : RegN) (s : State) : Host.Outcome State Fault Refusal :=
  .next (s.runCore c.val (preDA d.val a.val 0) (finishOp c.val (setcarOp 0x4C c.val d.val a.val 1)))

/-! Walks (Table 6-3). -/

/-- The yield point after a step (R143). -/
def walkPause (c : Nat) (i : Instr) : MM Next := do
  upd (fun s => s.modCore c (fun x => { x with walk := some i }))
  pure .pause

/-- A cursor's cell: its word 1, and its word 0. -/
def cellCdr (x : Ctx) (w : Word) (opnd : Nat) : MM Word := do
  x.ptrArg w opnd
  x.loadCell w 1
def cellCar (x : Ctx) (w : Word) (opnd : Nat) : MM Word := do
  x.ptrArg w opnd
  x.loadCell w 0

/-- A count operand: FIX, not negative. -/
def countArg (w : Word) (opnd : Nat) : MM Unit := need (w.tag == Tag.fix && !bitAt w.pay 63) (.of .tag opnd)
/-- A count or budget after a step. -/
def lessOne (w : Word) : Word := fixW (w.pay - 1#64)

/-- A step of LEN. -/
def lenBody (i : Instr) (c d a b : Nat) : MM Next := do
  need (d != a && d != b) (.of .illegal)
  let va ← rd c a
  let vb ← rd c b
  let vd ← rd c d
  if vb = nilW then pure () else countArg vb 2
  fixArg vd 3
  if va.tag ≠ Tag.cons ∨ vb = fixN 0 then pure .seq
  else do
    let s ← get
    need (vd.pay != 0x7FFFFFFFFFFFFFFF#64) (.of .tag 3)
    let n ← cellCdr (s.coreCtx c) va 1
    let nb := if vb.tag = Tag.fix then lessOne vb else vb
    wr c a n
    wr c d (fixW (vd.pay + 1#64))
    if vb.tag = Tag.fix then wr c b nb else pure ()
    if n.tag ≠ Tag.cons ∨ nb = fixN 0 then pure .seq else walkPause c i

/-- A step of NTHCDR. -/
def nthcdrBody (i : Instr) (c d a b : Nat) : MM Next := do
  let va ← rd c a
  let vb ← rd c b
  countArg vb 2
  if vb = fixN 0 ∨ va.tag ≠ Tag.cons then do
    wr c d va
    pure .seq
  else do
    let s ← get
    let n ← cellCdr (s.coreCtx c) va 1
    wr c a n
    wr c b (lessOne vb)
    if lessOne vb = fixN 0 ∨ n.tag ≠ Tag.cons then do
      wr c d n
      pure .seq
    else walkPause c i

/-- A cursor that is no CONS ends MEMQ and ASSQ with NIL, or faults. -/
def searchEnd (c d : Nat) (w : Word) : MM Next := do
  need (w == nilW) (.of .tag 2)
  wr c d nilW
  pure .seq
/-- The cursor moves on: at NIL the search ends in the same step. -/
def searchNext (i : Instr) (c d b : Nat) (n : Word) : MM Next := do
  wr c b n
  if n = nilW then do
    wr c d nilW
    pure .seq
  else walkPause c i

/-- A step of MEMQ. -/
def memqBody (i : Instr) (c d a b : Nat) : MM Next := do
  let va ← rd c a
  let vb ← rd c b
  if vb.tag ≠ Tag.cons then searchEnd c d vb
  else do
    let s ← get
    let x := s.coreCtx c
    let e ← cellCar x vb 2
    if e = va then do
      wr c d vb
      pure .seq
    else do
      let n ← cellCdr x vb 2
      searchNext i c d b n

/-- A step of ASSQ: an element that is no CONS faults TAG, with b at its cell. -/
def assqBody (i : Instr) (c d a b : Nat) : MM Next := do
  let va ← rd c a
  let vb ← rd c b
  if vb.tag ≠ Tag.cons then searchEnd c d vb
  else do
    let s ← get
    let x := s.coreCtx c
    x.ptrArg vb 2
    let l ← x.cellLoc vb 0 .read
    let e ← x.load l
    let s ← get
    need (e.tag == Tag.cons && !s.malformed e) { Exn.at .tag l.sel l.off with mtag := e.tag }
    let k ← x.loadCell e 0
    if k = va then do
      wr c d e
      pure .seq
    else do
      let n ← cellCdr x vb 2
      searchNext i c d b n

/-- A step of LAST. -/
def lastBody (i : Instr) (c d a : Nat) : MM Next := do
  let va ← rd c a
  if va = nilW then do
    wr c d nilW
    pure .seq
  else do
    need (va.tag == Tag.cons) (.of .tag 1)
    let s ← get
    let n ← cellCdr (s.coreCtx c) va 1
    if n.tag = Tag.cons then do
      wr c a n
      walkPause c i
    else do
      wr c d va
      pure .seq

/-- A step of REVX. -/
def revxBody (i : Instr) (c d a : Nat) : MM Next := do
  need (d != a) (.of .illegal)
  let va ← rd c a
  let vd ← rd c d
  if va.tag ≠ Tag.cons then pure .seq
  else do
    let s ← get
    let x := s.coreCtx c
    x.ptrArg va 1
    x.srcOk vd
    let r ← x.cellLoc va 1 .read
    let l ← x.cellLoc va 1 .write
    let n ← x.load r
    x.storeChk l vd 3
    x.storeDo l vd
    wr c d va
    wr c a n
    if n.tag = Tag.cons then walkPause c i else pure .seq

/-- The step of a walk; none for an instruction that is none. -/
def walkOf (i : Instr) : Option (Pre × MM Next) :=
  match i with
  | .len c d a b => some (preDAB d.val a.val b.val 0, lenBody i c.val d.val a.val b.val)
  | .nthcdr c d a b => some (preDAB d.val a.val b.val 0, nthcdrBody i c.val d.val a.val b.val)
  | .memq c d a b => some (preDAB d.val a.val b.val 0, memqBody i c.val d.val a.val b.val)
  | .assq c d a b => some (preDAB d.val a.val b.val 0, assqBody i c.val d.val a.val b.val)
  | .last c d a => some (preDA d.val a.val 0, lastBody i c.val d.val a.val)
  | .revx c d a => some (preDA d.val a.val 0, revxBody i c.val d.val a.val)
  | _ => none

/-- A walk is executed: its first step, or the next one where it is executed again (R143). -/
def runWalk (c : CoreId) (i : Instr) (s : State) : State :=
  match walkOf i with
  | some (p, body) => s.runCore c.val p body
  | none => s

/-- LEN (R144). -/
def execLen (c : CoreId) (d a b : RegN) (s : State) : Host.Outcome State Fault Refusal := .next (runWalk c (.len c d a b) s)
/-- NTHCDR (R144). -/
def execNthcdr (c : CoreId) (d a b : RegN) (s : State) : Host.Outcome State Fault Refusal := .next (runWalk c (.nthcdr c d a b) s)
/-- MEMQ (R144). -/
def execMemq (c : CoreId) (d a b : RegN) (s : State) : Host.Outcome State Fault Refusal := .next (runWalk c (.memq c d a b) s)
/-- ASSQ (R144). -/
def execAssq (c : CoreId) (d a b : RegN) (s : State) : Host.Outcome State Fault Refusal := .next (runWalk c (.assq c d a b) s)
/-- LAST (R144). -/
def execLast (c : CoreId) (d a : RegN) (s : State) : Host.Outcome State Fault Refusal := .next (runWalk c (.last c d a) s)
/-- REVX (R144). -/
def execRevx (c : CoreId) (d a : RegN) (s : State) : Host.Outcome State Fault Refusal := .next (runWalk c (.revx c d a) s)

/-- WALK_STEP: the next step of the walk in progress, at its yield point (R143). -/
def walkStep (s : State) (c : Nat) : State :=
  match (s.core c).walk.bind walkOf with
  | some (p, body) => if s.ready c then s.runDecoded c p body else s
  | none => s
def execWalkStep (c : CoreId) (s : State) : Host.Outcome State Fault Refusal := .next (walkStep s c.val)

/-- CONS (R149). -/
def consOp (c d a b : Nat) : MM OpOut := do
  let va ← rd c a
  let vb ← rd c b
  let s ← get
  let x := s.coreCtx c
  x.srcOk va
  x.srcOk vb
  x.areaOk c va
  x.areaOk c vb
  let w ← x.newCell c va vb
  pure (Eff.one d w)
def execCons (c : CoreId) (d a b : RegN) (s : State) : Host.Outcome State Fault Refusal :=
  .next (s.runCore c.val (preDAB d.val a.val b.val 0) (finishOp c.val (consOp c.val d.val a.val b.val)))

end Sys2Proof.Machine
end

