-- ==== Sys2Proof/Machine/MemOps.lean ====
section
/-!
DEFINITION. Loads, stores and block operations (spec 06 R146–R148), and the register windows of DEV handles (R159, R160). The step of a
repeatable instruction is applied in a repeat only.
-/
namespace Sys2Proof.Machine

open Sys2Proof

/-- The step of an offset register in a repeat: n is added exactly (Table 6-5, R102). -/
def stepReg (c r : Nat) (old : Word) (n : Int) : MM Unit := do
  let s ← get
  if s.repAct c then wr c r (fixI (old.pay.toInt + n)) else pure ()

/-- The word at offset a + imm of the segment of a segment register, as a load and as a store. -/
def segLoc (x : Ctx) (c sg : Nat) (va : Word) (imm : Int) (a : Acc) : MM Loc := do
  fixArg va 1
  let s ← get
  let l ← x.resolveI (s.sgR c sg) (va.pay.toInt + imm) a
  x.offsetOk l
  pure l

/-- The decode facts of the MEM format with a segment register. -/
def preSeg (d a : Nat) : Pre := preDA d a grpS

/-- LDS (R146). -/
def ldsBody (c d a sg : Nat) (imm : Int) : MM Next := do
  let va ← rd c a
  let s ← get
  let x := s.coreCtx c
  let l ← segLoc x c sg va imm .read
  let w ← x.load l true
  wr c d w
  pure .seq
def execLds (c : CoreId) (d a : RegN) (sg : SgN) (imm : BitVec 9) (s : State) : Host.Outcome State Fault Refusal :=
  .next (s.runCore c.val (preSeg d.val a.val) (ldsBody c.val d.val a.val sg.val imm.toInt))

/-- STS (R146). -/
def stsBody (c d a sg : Nat) (imm : Int) : MM Next := do
  let va ← rd c a
  let vd ← rd c d
  let s ← get
  let x := s.coreCtx c
  fixArg va 1
  x.srcOk vd
  let l ← segLoc x c sg va imm .write
  x.store l vd 3
  stepReg c a va 1
  pure .seq
def execSts (c : CoreId) (d a : RegN) (sg : SgN) (imm : BitVec 9) (s : State) : Host.Outcome State Fault Refusal :=
  .next (s.runCore c.val (preSeg d.val a.val) (stsBody c.val d.val a.val sg.val imm.toInt))

/-- An element load and an element store (R54, R146, R147). -/
def loadAt (c d : Nat) (p : Word) (i : Int) (io : Nat) : MM Next := do
  let s ← get
  let w ← (s.coreCtx c).loadElem p 1 i io
  wr c d w
  pure .seq
def storeAt (c : Nat) (w p : Word) (i : Int) (io : Nat) : MM Next := do
  let s ← get
  let x := s.coreCtx c
  x.srcOk w
  let (l, _) ← x.elemLoc p 1 i io true
  x.store l w 3
  pure .seq

/-- LDP and STP (R146, R147). -/
def ldpBody (c d a : Nat) (imm : Int) : MM Next := do
  let va ← rd c a
  let s ← get
  (s.coreCtx c).ptrArg va 1
  loadAt c d va imm 2
def stpBody (c d a : Nat) (imm : Int) : MM Next := do
  let va ← rd c a
  let vd ← rd c d
  let s ← get
  (s.coreCtx c).ptrArg va 1
  storeAt c vd va imm 2
def execLdp (c : CoreId) (d a : RegN) (imm : BitVec 9) (s : State) : Host.Outcome State Fault Refusal :=
  .next (s.runCore c.val (preDA d.val a.val 0) (ldpBody c.val d.val a.val imm.toInt))
def execStp (c : CoreId) (d a : RegN) (imm : BitVec 9) (s : State) : Host.Outcome State Fault Refusal :=
  .next (s.runCore c.val (preDA d.val a.val 0) (stpBody c.val d.val a.val imm.toInt))

/-- LDE and STE (R146, R147). -/
def ldeBody (c d a b : Nat) : MM Next := do
  let va ← rd c a
  let vb ← rd c b
  let s ← get
  (s.coreCtx c).ptrArg va 1
  fixArg vb 2
  loadAt c d va vb.pay.toInt 2
def steBody (c d a b : Nat) : MM Next := do
  let va ← rd c a
  let vb ← rd c b
  let vd ← rd c d
  let s ← get
  (s.coreCtx c).ptrArg va 1
  fixArg vb 2
  storeAt c vd va vb.pay.toInt 2
def execLde (c : CoreId) (d a b : RegN) (s : State) : Host.Outcome State Fault Refusal :=
  .next (s.runCore c.val (preDAB d.val a.val b.val 0) (ldeBody c.val d.val a.val b.val))
def execSte (c : CoreId) (d a b : RegN) (s : State) : Host.Outcome State Fault Refusal :=
  .next (s.runCore c.val (preDAB d.val a.val b.val 0) (steBody c.val d.val a.val b.val))

/-- The word that holds octet i of a BYT (R56): the octet count bounds i, then RO, then the word (R132 step 5). -/
def octetLoc (x : Ctx) (p : Word) (i : Int) (store : Bool) : MM Loc := do
  let (off, h) ← x.header p 1
  need (decide (0 ≤ i) && decide (i < 8 * (Ctx.size h : Int) - fld h 47 40)) (.obj .segLimit 2 (ptrSel p.pay) off)
  need (!(store && bitAt h 55)) (.obj .segRights 1 (ptrSel p.pay) off)
  x.resolve (ptrSel p.pay) (off + 1 + i.toNat / 8) (if store then .write else .read)

/-- The operands of LDB and STB: a BYT and an index. -/
def bytArgs (x : Ctx) (va vb : Word) : MM Unit := do
  need (va.tag == Tag.byt) (.of .tag 1)
  x.ptrArg va 1
  fixArg vb 2

/-- LDB (R146). -/
def ldbBody (c d a b : Nat) : MM Next := do
  let va ← rd c a
  let vb ← rd c b
  let s ← get
  let x := s.coreCtx c
  bytArgs x va vb
  let i := vb.pay.toInt
  let l ← octetLoc x va i false
  let w ← x.load l
  let k := i.toNat % 8
  wr c d (fixN (fld w.pay (8 * k + 7) (8 * k)))
  pure .seq
def execLdb (c : CoreId) (d a b : RegN) (s : State) : Host.Outcome State Fault Refusal :=
  .next (s.runCore c.val (preDAB d.val a.val b.val 0) (ldbBody c.val d.val a.val b.val))

/-- STB (R146): a d out of range faults after the checks of the access. -/
def stbBody (c d a b : Nat) : MM Next := do
  let va ← rd c a
  let vb ← rd c b
  let vd ← rd c d
  let s ← get
  let x := s.coreCtx c
  bytArgs x va vb
  fixArg vd 3
  let i := vb.pay.toInt
  let l ← octetLoc x va i true
  let old ← x.readRaw l
  need (x.sup || !isStructural old.tag) { Exn.at .priv l.sel l.off with mtag := old.tag }
  need (fld vd.pay 63 8 == 0) (.of .tag 3)
  let k := i.toNat % 8
  x.store l ⟨Tag.raww, setFld old.pay (8 * k + 7) (8 * k) vd.pay.toNat⟩ 3
  pure .seq
def execStb (c : CoreId) (d a b : RegN) (s : State) : Host.Outcome State Fault Refusal :=
  .next (s.runCore c.val (preDAB d.val a.val b.val 0) (stbBody c.val d.val a.val b.val))

/-- A fault about an operand that is a memory word (R148): it is operand 4, at the word's address. -/
def aboutWord (l : Loc) (w : Word) (e : Exn) : Exn :=
  { e with opnd := 4, xad := xadWord l.sel l.off, mtag := w.tag }

/-- MOVS and MOVSB (R146–R148): both words are resolved, the lower offset first, before either is read (R132 step 4). -/
def movsBody (c d a sgs sgd : Nat) (n : Int) : MM Next := do
  need (d != a) (.of .illegal)
  let va ← rd c a
  let vd ← rd c d
  let s ← get
  let x := s.coreCtx c
  fixArg va 1
  fixArg vd 3
  let (ls, ld) ← if vd.pay.toInt < va.pay.toInt then do
      let ld ← segLoc x c sgd vd 0 .write
      let ls ← segLoc x c sgs va 0 .read
      pure (ls, ld)
    else do
      let ls ← segLoc x c sgs va 0 .read
      let ld ← segLoc x c sgd vd 0 .write
      pure (ls, ld)
  let w ← x.load ls true
  need (x.sup || !isStructural w.tag) (.of .priv)
  mapExn (fun (e : Exn) => if e.opnd = 5 then aboutWord ls w e else e) (x.storeChk ld w 5)
  x.storeDo ld w
  stepReg c a va n
  stepReg c d vd n
  pure .seq
def execMovs (c : CoreId) (d a : RegN) (sgs sgd : SgN) (s : State) : Host.Outcome State Fault Refusal :=
  .next (s.runCore c.val (preSeg d.val a.val) (movsBody c.val d.val a.val sgs.val sgd.val 1))
def execMovsb (c : CoreId) (d a : RegN) (sgs sgd : SgN) (s : State) : Host.Outcome State Fault Refusal :=
  .next (s.runCore c.val (preSeg d.val a.val) (movsBody c.val d.val a.val sgs.val sgd.val (-1)))

/-- ADDS, MAXS and MINS (R146, R148): operand a of the generic operation is d, operand b the memory word. A customer tag of class MICRO there
faults TAG: no routine is entered (DESIGN CHOICE: notes/assumptions/92.md). -/
def accBody (op c d a sg : Nat) (imm : Int) : MM Next := do
  let va ← rd c a
  let vd ← rd c d
  let s ← get
  let x := s.coreCtx c
  fixArg va 1
  numTag vd (op != 0x01) 3
  let l ← segLoc x c sg va imm .read
  let w ← x.load l true
  let r ← mapExn (fun (e : Exn) => if e.opnd = 1 then { e with opnd := 3 } else if e.opnd = 2 then aboutWord l w e else e)
    (match genOp x c op vd w with | some g => g | none => fault (.of .illegal))
  putRes c d r
  stepReg c a va 1
  pure .seq
def preAcc (d a : Nat) : Pre := preDA d a (grpS ||| grpQ)
def execAdds (c : CoreId) (d a : RegN) (sg : SgN) (imm : BitVec 9) (s : State) : Host.Outcome State Fault Refusal :=
  .next (s.runCore c.val (preAcc d.val a.val) (accBody 0x01 c.val d.val a.val sg.val imm.toInt))
def execMaxs (c : CoreId) (d a : RegN) (sg : SgN) (imm : BitVec 9) (s : State) : Host.Outcome State Fault Refusal :=
  .next (s.runCore c.val (preAcc d.val a.val) (accBody 0x0E c.val d.val a.val sg.val imm.toInt))
def execMins (c : CoreId) (d a : RegN) (sg : SgN) (imm : BitVec 9) (s : State) : Host.Outcome State Fault Refusal :=
  .next (s.runCore c.val (preAcc d.val a.val) (accBody 0x0D c.val d.val a.val sg.val imm.toInt))

end Sys2Proof.Machine
end

