-- ==== Sys2Proof/Machine/DevOps.lean ====
section
/-!
DEFINITION. DEVRD and DEVWR (spec 06 R159, R160): the register windows of DEV handles.
-/
namespace Sys2Proof.Machine

open Sys2Proof

/-- The fields of a window register by the right that writes them (Table 6-12). whole: every write of the register writes all of them; an
action or w1c field is written by a 1; changed: a rw field is written where its value changes. -/
inductive DevMode where
  | whole | ones | changed
  deriving DecidableEq, Repr

/-- A register of a window: its address, the fields that WRITE and CONTROL reach, and how a write touches them. -/
structure DevReg where
  pa   : Nat
  wr   : W64 := 0#64
  ct   : W64 := 0#64
  mode : DevMode := .whole
  deriving DecidableEq, Repr

def devAll : W64 := fmask 63 0

/-- Window sizes (Table 6-12, Table 1-7). -/
def devSize : Nat → Nat
  | 0x01 => 16 | 0x02 => 32 | 0x03 => 16 | 0x04 => 0x900 | 0x05 => 3 | 0x06 => 5 | 0x07 => 3 | 0x08 => 0x10000 | 0x09 => 0x1000
  | 0x0A => 0x1000 | 0x0B => 0x1000 | 0x0C => 1 | 0x0D => 4 | _ => 0

/-- A register of a peripheral instance: DATA, DATA1 to DATA7 and EOF by WRITE, every other by CONTROL. -/
def devPer (base i : Nat) : DevReg :=
  if i = 8 || i = 9 || (decide (0x11 ≤ i) && decide (i ≤ 0x17)) then { pa := base + i, wr := devAll } else { pa := base + i, ct := devAll }

/-- Index i of the window of unit u of a class; none where the table names no register. -/
def State.devReg (s : State) (cls u i : Nat) : Option DevReg :=
  match cls with
  | 0x01 =>
    let pa := Reg.DMA_CCFG (u / 16) (u % 16) + i
    (match i with
     | 0 => some { pa := pa, ct := devAll }
     | 1 => some { pa := pa, wr := devAll }
     | 2 => some { pa := pa, wr := 1#64, ct := 6#64, mode := .ones }
     | 3 => some { pa := pa, ct := fmask 3 2, mode := .ones }
     | _ => some { pa := pa })
  | 0x02 =>
    let pa := Reg.MLD_NIQ u + i
    (match i with
     | 0 => some { pa := pa, ct := devAll }
     | 1 => some { pa := pa, ct := devAll }
     | 2 => some { pa := pa, ct := devAll }
     | 3 => some { pa := pa, wr := fmask 3 2, ct := fmask 1 0 ||| fmask 5 4, mode := .ones }
     | 4 => some { pa := pa, ct := fmask 4 4, mode := .ones }
     | i => if i < 16 then some { pa := pa } else some { pa := Reg.MLD_NAGD (16 * u + (i - 16)), ct := devAll })
  | 0x03 =>
    let pa := Reg.SNS_CFRAME u + i
    if i ≤ 12 then some { pa := pa, ct := devAll }
    else if i = 13 then some { pa := pa, wr := fmask 3 1, mode := .ones }
    else some { pa := pa }
  | 0x04 =>
    if i = 0 then some { pa := Reg.STK_GCTL u, ct := devAll }
    else if i < 0x100 then none
    else
      let ch := (i - 0x100) / 8
      let j := i % 8
      if 4 < j || !(s.chPhase ch != 0 && s.chGroup ch == u) then none
      else if j = 4 then some { pa := Reg.STK_CHCFG ch + j }
      else if j = 3 then some { pa := Reg.STK_CHCFG ch + j, wr := devAll }
      else some { pa := Reg.STK_CHCFG ch + j, ct := devAll }
  | 0x05 => if i = 0 then some { pa := Reg.PWM_PWCFG u, ct := devAll } else some { pa := Reg.PWM_PWCFG u + i, wr := devAll }
  | 0x06 =>
    let pa := Reg.PWM_ENCCFG u + i
    (match i with
     | 2 => some { pa := pa }
     | 3 => some { pa := pa, wr := devAll }
     | 4 => some { pa := pa, ct := fmask 1 0, mode := .ones }
     | _ => some { pa := pa, ct := devAll })
  | 0x07 =>
    (match i with
     | 0 => some { pa := Reg.HKA_HRAW u }
     | 1 => some { pa := Reg.HKA_HRES u }
     | _ => some { pa := Reg.HKA_HLIM u, ct := devAll })
  | 0x08 => some (devPer (0xFF00C00000 + 0x10000 * u) i)
  | 0x09 => some (devPer (0xFF00C50000 + 0x1000 * u) i)
  | 0x0A => some (devPer (0xFF00C60000 + 0x1000 * u) i)
  | 0x0B => some (devPer (0xFF00C70000 + 0x1000 * u) i)
  | 0x0C => some { pa := Reg.GPIO_GPCFG u, wr := fmask 6 6, ct := fmask 15 8 ||| fmask 5 5, mode := .changed }
  | 0x0D =>
    (match i with
     | 0 => some { pa := Reg.INTC_SCFG u, ct := devAll }
     | 1 => some { pa := Reg.INTC_SMASK u, ct := devAll }
     | 2 => some { pa := Reg.INTC_SSTAT u, ct := fmask 11 11 ||| fmask 9 9, mode := .ones }
     | _ => none)
  | _ => none

/-- The resource of a class. -/
def devRes : Nat → Option State.Res
  | 0x01 => some .dmaCh | 0x03 => some .sense | 0x04 => some .group | 0x05 => some .pwm | 0x06 => some .encoder | 0x07 => some .hka
  | 0x08 => some .eth | 0x09 => some .can | 0x0A => some .uart | 0x0B => some .i2c | 0x0C => some .gpio | 0x0D => some .source | _ => none

/-- The partition owns the unit (R15, R50). -/
def State.devOwned (s : State) (p cls u : Nat) : Bool :=
  match devRes cls with
  | some r => s.owner r u == some p
  | none => s.rb (Reg.MLD_NGEOM0 u) 63 && s.nOwner u == p

/-- The checks of DEVRD and DEVWR up to the window's size (R159 steps 1 to 3): class, unit and index. -/
def devCheck (c : Nat) (va vb : Word) : MM (Nat × Nat × Nat) := do
  let s ← get
  let cls := fld va.pay 63 56
  let u := fld va.pay 15 0
  need (fld va.pay 55 52 == s.corePart c && s.devOwned (s.corePart c) cls u) (.of .segRights 1)
  let i := vb.pay.toInt
  need (decide (0 ≤ i) && decide (i < (devSize cls : Int))) (.of .segLimit 2)
  pure (cls, u, i.toNat)

/-- The operands of both: a well-formed DEV word and a FIX index. -/
def devArgs (va vb : Word) : MM Unit := do
  let s ← get
  need (va.tag == Tag.dev && !s.malformed va) (.of .tag 1)
  fixArg vb 2

/-- DEVRD (R159, R160). -/
def devrdBody (c d a b : Nat) : MM Next := do
  let va ← rd c a
  let vb ← rd c b
  devArgs va vb
  let (cls, u, i) ← devCheck c va vb
  need (bitAt va.pay 40) (.of .segRights 1)
  let s ← get
  match s.devReg cls u i with
  | none => wr c d (fixN 0)
  | some r => do
    let v ← ask (fun s => s.ioRead (s.coreCtx c).req r.pa (s.coreCtx c).peek)
    wr c d (fixW v)
  pure .seq
def execDevrd (c : CoreId) (d a b : RegN) (s : State) : Host.Outcome State Fault Refusal :=
  .next (s.runCore c.val (preDAB d.val a.val b.val 0) (devrdBody c.val d.val a.val b.val))

/-- The fields a write touches. -/
def State.devTouched (s : State) (r : DevReg) (v : W64) : W64 :=
  match r.mode with | .whole => devAll | .ones => v | .changed => v ^^^ s.ioR r.pa

/-- The effect of a write through a window: CCFG.SUP keeps its value; index 3 of an interrupt source raises it (Table 6-12). -/
def State.devWrite (s : State) (c cls u i : Nat) (r : Option DevReg) (v : W64) : State :=
  match r with
  | none => if cls = 0x0D && i = 3 then s.raiseDoorbell (s.corePart c) u else s
  | some r =>
    if r.wr ||| r.ct = 0#64 then s
    else
      let v := if cls = 0x01 && i = 0 then setBit v 16 (s.rb r.pa 16) else v
      s.ioWrite (s.coreCtx c).req r.pa v

/-- DEVWR (R159, R160). -/
def devwrBody (c d a b : Nat) : MM Next := do
  let va ← rd c a
  let vb ← rd c b
  let vd ← rd c d
  devArgs va vb
  rawArg vd 3
  let (cls, u, i) ← devCheck c va vb
  let s ← get
  let r := s.devReg cls u i
  let t := fun (m : DevReg → W64) => match r with | some r => (s.devTouched r vd.pay &&& m r) != 0#64 | none => false
  let doorbell := cls == 0x0D && i == 3
  need (bitAt va.pay 41 || !(t (·.wr) || doorbell)) (.of .segRights 1)
  need (bitAt va.pay 42 || !t (·.ct)) (.of .segRights 1)
  upd (fun s => s.devWrite c cls u i r vd.pay)
  pure .seq
def execDevwr (c : CoreId) (d a b : RegN) (s : State) : Host.Outcome State Fault Refusal :=
  .next (s.runCore c.val (preDAB d.val a.val b.val 0) (devwrBody c.val d.val a.val b.val))

end Sys2Proof.Machine
end

