-- ==== Sys2Proof/Machine/AllocOps.lean ====
section
/-!
DEFINITION. Allocation instructions (spec 06 R149, R150), the atomics and reservations (R133, R151–R154).
-/
namespace Sys2Proof.Machine

open Sys2Proof

/-- ALLOC (R149, R150). -/
def allocBody (c d a b : Nat) : MM Next := do
  let va ← rd c a
  let vb ← rd c b
  let s ← get
  fixArg va 1
  let w ← (s.coreCtx c).allocObj c va.pay.toNat vb 1 2
  wr c d w
  pure .seq
def execAlloc (c : CoreId) (d a b : RegN) (s : State) : Host.Outcome State Fault Refusal :=
  .next (s.runCore c.val (preDAB d.val a.val b.val 0) (allocBody c.val d.val a.val b.val))

/-- ALLOCB (R149). -/
def allocbBody (c d a : Nat) : MM Next := do
  let va ← rd c a
  let s ← get
  need (va.tag == Tag.fix && fld va.pay 63 43 == 0) (.of .tag 1)
  let n := va.pay.toNat
  let w ← (s.coreCtx c).newObj c 0x0B ((n + 7) / 8) ((n + 7) / 8 * 8 - n) []
  wr c d w
  pure .seq
def execAllocb (c : CoreId) (d a : RegN) (s : State) : Host.Outcome State Fault Refusal :=
  .next (s.runCore c.val (preDA d.val a.val 0) (allocbBody c.val d.val a.val))

/-- CLOSE (R149): the closed words are l0 to l(n − 1). -/
def closeBody (c d a b : Nat) : MM Next := do
  let va ← rd c a
  let vb ← rd c b
  let s ← get
  let x := s.coreCtx c
  need (va.tag == Tag.code) (.of .tag 1)
  x.ptrArg va 1
  need (vb.tag == Tag.fix && decide (vb.pay.toNat ≤ 8)) (.of .tag 2)
  let ws := (List.range vb.pay.toNat).map (fun i => s.reg c (16 + i))
  ws.forM (fun w => x.srcOk w)
  x.areaOk c va
  ws.forM (fun w => x.areaOk c w)
  let w ← x.newObj c 0x0D (1 + ws.length) 0 (va :: ws)
  wr c d w
  pure .seq
/-- CLOSE reads hand registers beside its operands where n is not 0. -/
def closePre (s : State) (c d a b : Nat) : Pre :=
  let w := s.reg c b
  preDAB d a b (if w.tag == Tag.fix && decide (1 ≤ w.pay.toNat) && decide (w.pay.toNat ≤ 8) then grpW else 0)
def execClose (c : CoreId) (d a b : RegN) (s : State) : Host.Outcome State Fault Refusal :=
  .next (s.runCore c.val (closePre s c.val d.val a.val b.val) (closeBody c.val d.val a.val b.val))

/-- SIZEOF (R149). -/
def sizeofBody (c d a : Nat) : MM Next := do
  let va ← rd c a
  let s ← get
  let x := s.coreCtx c
  x.ptrArg va 1
  let n ← (if va.tag = Tag.cons then pure 2 else do
    let (_, h) ← x.header va 1
    pure (if va.tag = Tag.byt then 8 * Ctx.size h - fld h 47 40 else Ctx.size h))
  wr c d (fixN n)
  pure .seq
def execSizeof (c : CoreId) (d a : RegN) (s : State) : Host.Outcome State Fault Refusal :=
  .next (s.runCore c.val (preDA d.val a.val 0) (sizeofBody c.val d.val a.val))

/-! Atomics. -/

/-- The decode facts of an atomic instruction: x bit 0 selects a segment register, x bits 4:1; else they are zero (R133). -/
def preAtom (d a b : Nat) (x : BitVec 5) (extra : Nat) : Pre :=
  { preDAB d a b ((if x.getLsbD 0 then grpS else 0) ||| extra) with illegal := !x.getLsbD 0 && x != 0#5 }

/-- The target word of an atomic instruction (R133), resolved as a load and, where it stores, as a store; whether it is body word 0 of a WEAK. -/
def atomLoc (cx : Ctx) (c : Nat) (va vb : Word) (x : BitVec 5) (store : Bool) : MM (Loc × Bool × Bool) := do
  if x.getLsbD 0 then do
    let s ← get
    let sel := s.sgR c (x.toNat / 2)
    let off := va.pay.toInt + vb.pay.toInt
    let l ← cx.resolveI sel off .read
    let l ← if store then cx.resolveI sel off .write else pure l
    cx.offsetOk l
    pure (l, true, false)
  else do
    let (l, wk) ← cx.elemLoc va 1 vb.pay.toInt 2 store
    let l ← if store then cx.resolve l.sel l.off .read else pure l
    pure (l, false, wk)

/-- The tags of the address operands (R133). -/
def atomArgs (cx : Ctx) (va vb : Word) (x : BitVec 5) : MM Unit := do
  if x.getLsbD 0 then fixArg va 1 else cx.ptrArg va 1
  fixArg vb 2

/-- RESERVE (R151). -/
def reserveBody (c d a b : Nat) (x : BitVec 5) : MM Next := do
  let va ← rd c a
  let vb ← rd c b
  let s ← get
  let cx := s.coreCtx c
  atomArgs cx va vb x
  let (l, o, wk) ← atomLoc cx c va vb x false
  let w ← cx.load l o wk
  wr c d w
  upd (fun s => s.modCore c (fun k => { k with resv := some (l.pa / 8) }))
  pure .seq
def execReserve (c : CoreId) (d a b : RegN) (x : BitVec 5) (s : State) : Host.Outcome State Fault Refusal :=
  .next (s.runCore c.val (preAtom d.val a.val b.val x 0) (reserveBody c.val d.val a.val b.val x))

/-- COMMIT (R151): every check of a store first; then the store, or nothing. -/
def commitBody (c d a b : Nat) (x : BitVec 5) : MM Next := do
  let va ← rd c a
  let vb ← rd c b
  let vd ← rd c d
  let s ← get
  let cx := s.coreCtx c
  atomArgs cx va vb x
  cx.srcOk vd
  let (l, _, _) ← atomLoc cx c va vb x true
  cx.storeChk l vd 3
  let s ← get
  let ok := (s.core c).resv == some (l.pa / 8)
  if ok then cx.storeDo l vd else upd (fun s => s.countCore c 0x16)
  upd (fun s => s.modCore c (fun k => { k with resv := none }))
  wr c d (boolW ok)
  pure .seq
def execCommit (c : CoreId) (d a b : RegN) (x : BitVec 5) (s : State) : Host.Outcome State Fault Refusal :=
  .next (s.runCore c.val (preAtom d.val a.val b.val x 0) (commitBody c.val d.val a.val b.val x))

/-- SWAP (R153). -/
def swapBody (c d a b : Nat) (x : BitVec 5) : MM Next := do
  let va ← rd c a
  let vb ← rd c b
  let vd ← rd c d
  let s ← get
  let cx := s.coreCtx c
  atomArgs cx va vb x
  cx.srcOk vd
  let (l, o, wk) ← atomLoc cx c va vb x true
  cx.storeChk l vd 3
  let w ← cx.load l o wk
  cx.storeDo l vd
  wr c d w
  pure .seq
def execSwap (c : CoreId) (d a b : RegN) (x : BitVec 5) (s : State) : Host.Outcome State Fault Refusal :=
  .next (s.runCore c.val (preAtom d.val a.val b.val x 0) (swapBody c.val d.val a.val b.val x))

/-- FADD (R153): a FIX pair adds as ADDW, a QTY pair of equal dimensions exactly. l: the target word's place, for operand 4. -/
def faddSum (l : Loc) (w vd : Word) : MM (Word × Option RawFlags) :=
  if w.tag = Tag.fix ∧ vd.tag = Tag.fix then
    let r := addwRes w.pay vd.pay
    pure (fixW r.1, some r.2)
  else if w.tag = Tag.qty ∧ vd.tag = Tag.qty then do
    need (fld w.pay 17 0 == fld vd.pay 17 0) (aboutWord l w (.of .unit))
    let v := sfld w.pay 63 18 + sfld vd.pay 63 18
    need (decide (-(2 ^ 45 : Int) ≤ v) && decide (v < (2 ^ 45 : Int))) (.of .qtyRange)
    pure (⟨Tag.qty, setFld (putFld 17 0 (fld w.pay 17 0)) 63 18 (v % 2 ^ 46).toNat⟩, none)
  else fault (aboutWord l w (.of .tag))
def faddBody (c d a b : Nat) (x : BitVec 5) : MM Next := do
  let va ← rd c a
  let vb ← rd c b
  let vd ← rd c d
  let s ← get
  let cx := s.coreCtx c
  atomArgs cx va vb x
  need (vd.tag == Tag.fix || vd.tag == Tag.qty) (.of .tag 3)
  let (l, o, wk) ← atomLoc cx c va vb x true
  cx.storeChk l vd 3
  let w ← cx.load l o wk
  let (n, f) ← faddSum l w vd
  cx.storeDo l n
  wr c d w
  upd (fun s => match f with | some f => s.putFlags c f | none => s)
  pure .seq
def execFadd (c : CoreId) (d a b : RegN) (x : BitVec 5) (s : State) : Host.Outcome State Fault Refusal :=
  .next (s.runCore c.val (preAtom d.val a.val b.val x grpQ) (faddBody c.val d.val a.val b.val x))

/-- The two target words of CAS2 (R133, R154): through a pointer, two body words of the object. -/
def cas2Locs (cx : Ctx) (c : Nat) (va vb : Word) (x : BitVec 5) : MM (Loc × Loc × Bool × Bool) := do
  let (l0, o, wk) ← atomLoc cx c va vb x true
  let l1 ← if o then do
      let s ← get
      let off := va.pay.toInt + vb.pay.toInt + 1
      let l ← cx.resolveI (s.sgR c (x.toNat / 2)) off .read
      let _ ← cx.resolveI (s.sgR c (x.toNat / 2)) off .write
      cx.offsetOk l
      pure l
    else do
      let (l, _) ← cx.elemLoc va 1 (vb.pay.toInt + 1) 2 true
      pure l
  pure (l0, l1, o, wk)
/-- CAS2 (R154); an odd address ranks last (R132 step 8). -/
def cas2Body (c d a b : Nat) (x : BitVec 5) : MM Next := do
  need (quadOk d) (.of .illegal)
  let va ← rd c a
  let vb ← rd c b
  let q ← rdQuad c d
  let s ← get
  let cx := s.coreCtx c
  atomArgs cx va vb x
  cx.srcOk q.w2
  cx.srcOk q.w3
  let (l0, l1, o, wk) ← cas2Locs cx c va vb x
  cx.storeChk l0 q.w2 3
  cx.storeChk l1 q.w3 3
  need (l0.pa % 2 == 0) (.at .segLimit l0.sel l0.off)
  let m0 ← cx.load l0 o wk
  let m1 ← cx.load l1 o false
  if m0 = q.w0 ∧ m1 = q.w1 then do
    cx.storeDo l0 q.w2
    cx.storeDo l1 q.w3
    wr c (d + 2) trueW
  else do
    wr c d m0
    wr c (d + 1) m1
    wr c (d + 2) falseW
  pure .seq
def execCas2 (c : CoreId) (d a b : RegN) (x : BitVec 5) (s : State) : Host.Outcome State Fault Refusal :=
  .next (s.runCore c.val (preAtom d.val a.val b.val x 0) (cas2Body c.val d.val a.val b.val x))

end Sys2Proof.Machine
end

