-- ==== Sys2Proof/Machine/QueueOps.lean ====
section
/-!
DEFINITION. Queue and timer instructions (spec 06 R155, R156, spec 11 R283–R288, R295).
-/
namespace Sys2Proof.Machine

open Sys2Proof

/-- A handle operand (R155). -/
def queArg (w : Word) (opnd : Nat) : MM Unit := do
  let s ← get
  need (w.tag == Tag.que && !s.malformed w) (.of .tag opnd)

/-- A QUEUE fault: the reason and the queue go to QERRc (R288). -/
def queueFault {α : Type} (c reason q : Nat) (opnd : Nat := 1) : MM α := do
  upd (fun s => s.ioW (Reg.DLR_QERR c) (putFld 31 16 q ||| putFld 7 0 reason))
  fault (.of .queue opnd)

/-- QUEUE with a reason where a condition fails; a refused push is counted. -/
def needQ (b : Bool) (c reason q : Nat) (opnd : Nat := 1) (push : Bool := false) : MM Unit :=
  if b then pure () else do
    upd (fun s => if push then s.countUn 0x08 0 else s)
    queueFault c reason q opnd

/-- The Dealer domains are on (R298). -/
def dealerOn (c q : Nat) (opnd : Nat := 1) : MM Unit := do
  let s ← get
  needQ (!s.dealerOff) c QR.off q opnd

/-- The checks of a handle in the order of R288: OFF, STALE, the requester's partition, the right. push: a push, deal or TSET, by PUSH; else a
pop, wait, QTRY or QFREE, by POP. -/
def handleCheck (c : Nat) (h : Word) (push : Bool) (opnd : Nat := 1) : MM Nat := do
  let q := queNum h.pay
  dealerOn c q opnd
  upd (fun s => s.lookQueue q)
  let s ← get
  need (s.genCurrent q (queGen h.pay)) (.of .stale opnd)
  needQ (s.queueOwner q == some (s.corePart c) || (push && cfgXp (s.queue q).cfg)) c QR.xpart q opnd push
  needQ (if push then quePush h.pay else quePop h.pay) c QR.noRight q opnd push
  pure q

/-- An item is pushed in a class (R284). -/
def pushItem (c q cls : Nat) (it : Item) : MM Unit := do
  needQ (decide (cls ≤ 3)) c QR.cls q 1 true
  let s ← get
  needQ (decide ((s.queue q).count + 1 ≤ cfgCap (s.queue q).cfg)) c QR.full q 1 true
  upd (fun s => s.acceptItem q cls it)

/-- QPUSH (R155, R284). -/
def qpushBody (c d a : Nat) : MM Next := do
  need (quadOk d) (.of .illegal)
  let h ← rd c a
  queArg h 1
  let q ← handleCheck c h true
  let it ← rdQuad c d
  let s ← get
  pushItem c q (cfgDcls (s.queue q).cfg) it
  pure .seq
def execQpush (c : CoreId) (d a : RegN) (s : State) : Host.Outcome State Fault Refusal :=
  .next (s.runCore c.val (preDA d.val a.val 0) (qpushBody c.val d.val a.val))

/-- QDEAL (R155, R284). -/
def qdealBody (c d a b : Nat) : MM Next := do
  need (quadOk d) (.of .illegal)
  let h ← rd c a
  let vb ← rd c b
  queArg h 1
  fixArg vb 2
  let q ← handleCheck c h true
  let it ← rdQuad c d
  pushItem c q vb.pay.toNat it
  pure .seq
def execQdeal (c : CoreId) (d a b : RegN) (s : State) : Host.Outcome State Fault Refusal :=
  .next (s.runCore c.val (preDAB d.val a.val b.val 0) (qdealBody c.val d.val a.val b.val))

/-- The item a pop or a commit took; an uncorrectable header met by its barrier faults (R265, R296). -/
def taken {α : Type} (r : Except (Nat × Nat) α) : MM α :=
  match r with
  | .ok x => pure x
  | .error e => fault (.at .memUncorr e.1 e.2)

/-- A popped item is written to the quad (R285); the trace records it. -/
def dealItem (c d : Nat) (h : W64) (it : Item) : MM Unit := do
  wrQuad c d it
  upd (fun s => s.trace c 5 (s.cl c) 0 h)

/-- QPOP (R155, R285). -/
def qpopBody (c d a : Nat) : MM Next := do
  need (quadOk d) (.of .illegal)
  let h ← rd c a
  queArg h 1
  let q ← handleCheck c h false
  match ← taken (← ask (fun s => s.popItem q)) with
  | some it => dealItem c d h.pay it
  | none => wr c d eofW
  pure .seq
def execQpop (c : CoreId) (d a : RegN) (s : State) : Host.Outcome State Fault Refusal :=
  .next (s.runCore c.val (preDA d.val a.val 0) (qpopBody c.val d.val a.val))

/-- QWAIT: an empty queue takes the core into its waiter list (R156, R285). -/
def qwaitBody (c d a : Nat) : MM Next := do
  need (quadOk d) (.of .illegal)
  let h ← rd c a
  queArg h 1
  let q ← handleCheck c h false
  match ← taken (← ask (fun s => s.popItem q)) with
  | some it => do
    dealItem c d h.pay it
    pure .seq
  | none => do
    upd (fun s => (s.modQueue q (fun x => { x with waiters := x.waiters ++ [c] })).touchQueue q)
    throw (.wait (.qwait q d h.pay))
def execQwait (c : CoreId) (d a : RegN) (s : State) : Host.Outcome State Fault Refusal :=
  .next (s.runCore c.val (preDA d.val a.val 0) (qwaitBody c.val d.val a.val))

/-- The commit of an item dealt to a waiting core: it leaves the queue, enters d to d + 3, and the QWAIT retires (R156, R285). -/
def qwaitCommit (s : State) (c : Nat) : State :=
  match (s.core c).wait with
  | .qwait q d h =>
    (match (s.queue q).dealtTo c with
     | none => s
     | some e =>
       if !s.running c then s
       else
         let s := s.modCore c (fun x => { x with wait := .none })
         s.runDecoded c {} (do
           upd (fun s => s.touchQueue q)
           let it ← taken (← ask (fun s => s.takeItem q (some c, e)))
           dealItem c d h it
           pure .seq))
  | _ => s
/-- QWAIT_ITEM_COMMIT (R285). -/
def execQwaitItemCommit (c : CoreId) (s : State) : Host.Outcome State Fault Refusal := .next (qwaitCommit s c.val)

/-- QTRY (R155, R284). -/
def qtryBody (c d a : Nat) : MM Next := do
  let h ← rd c a
  queArg h 1
  let q ← handleCheck c h false
  let s ← get
  wr c d (fixN (s.queue q).count)
  pure .seq
def execQtry (c : CoreId) (d a : RegN) (s : State) : Host.Outcome State Fault Refusal :=
  .next (s.runCore c.val (preDA d.val a.val 0) (qtryBody c.val d.val a.val))

/-- QNEW (R286). -/
def qnewBody (c d a b : Nat) : MM Next := do
  let va ← rd c a
  let vb ← rd c b
  need (va.tag == Tag.fix || va == nilW) (.of .tag 1)
  fixArg vb 2
  let n := if va.tag = Tag.fix then some va.pay.toNat else none
  dealerOn c (n.getD 0)
  let s ← get
  match s.qnew (s.corePart c) n vb.pay.toNat with
  | .error r => queueFault c r (n.getD 0)
  | .ok (q, s') => do
    set s'
    wr c d (queWord q (s'.queue q).gen true true)
    pure .seq
def execQnew (c : CoreId) (d a b : RegN) (s : State) : Host.Outcome State Fault Refusal :=
  .next (s.runCore c.val { preDAB d.val a.val b.val 0 with sup := true } (qnewBody c.val d.val a.val b.val))

/-- QFREE (R287). -/
def qfreeBody (c a : Nat) : MM Next := do
  let h ← rd c a
  queArg h 1
  let q ← handleCheck c h false
  let s ← get
  let x := s.queue q
  needQ (x.count == 0 && x.waiters.isEmpty) c QR.busy q
  upd (fun s => s.retireQueue q)
  pure .seq
def execQfree (c : CoreId) (a : RegN) (s : State) : Host.Outcome State Fault Refusal :=
  .next (s.runCore c.val { sup := true, groups := regGrp a.val, opnds := { a := some a.val } } (qfreeBody c.val a.val))

/-- The dimension of a second (Table 2-4). -/
abbrev dimS : Nat := 0x200

/-- TSET that arms (R155, R295): d is read as the item before it is written. -/
def tsetArm (c d : Nat) (h vb : Word) : MM Next := do
  need (fld vb.pay 17 0 == dimS) (.of .unit 2)
  let q ← handleCheck c h true
  let it ← rdQuad c d
  let s ← get
  let p := s.corePart c
  needQ (decide (s.rf (Reg.DLR_TUSE p) 20 0 < s.rf (Reg.DLR_QRANGE p) 62 42)) c QR.noTimer q
  match ← ask (fun s => s.takeTimer) with
  | none => queueFault c QR.noTimer q
  | some t => do
    upd (fun s => s.armTimer t p q (queGen h.pay) (sfld vb.pay 63 18) it)
    let s ← get
    wr c d (fixW (State.timerId t (s.timer t).gen))
    pure .seq

/-- TSET that cancels (R155, R295). -/
def tsetCancel (c d : Nat) (h : Word) : MM Next := do
  let vd ← rd c d
  fixArg vd 3
  let q ← handleCheck c h true
  let s ← get
  let t := fld vd.pay 19 0
  let x := s.timer t
  let ok := x.armed && x.gen == fld vd.pay 35 20 && x.part == s.corePart c && x.queue == q && x.qgen == queGen h.pay
  if ok then upd (fun s => s.retireTimer t) else pure ()
  wr c d (boolW ok)
  pure .seq

/-- TSET: b selects its form (Table 6-7). -/
def tsetBody (c d a b : Nat) : MM Next := do
  let h ← rd c a
  let vb ← rd c b
  need (quadOk d) (.of .illegal)
  queArg h 1
  if vb = nilW then tsetCancel c d h
  else do
    need (vb.tag == Tag.qty) (.of .tag 2)
    tsetArm c d h vb
/-- TSET_ARM (R295). -/
def execTsetArm (c : CoreId) (d a b : RegN) (s : State) : Host.Outcome State Fault Refusal :=
  .next (s.runCore c.val (preDAB d.val a.val b.val 0) (tsetBody c.val d.val a.val b.val))
/-- TSET_CANCEL (R295). -/
def execTsetCancel (c : CoreId) (d a b : RegN) (s : State) : Host.Outcome State Fault Refusal :=
  .next (s.runCore c.val (preDAB d.val a.val b.val 0) (tsetBody c.val d.val a.val b.val))

end Sys2Proof.Machine
end

