-- ==== Sys2Proof/Machine/RemoteOps.lean ====
section
/-!
DEFINITION. Remote instructions, the service of remote requests, and the responses that end a transaction (spec 06 R157, R158, spec 13
R353–R361).
-/
namespace Sys2Proof.Machine

open Sys2Proof

/-! Issue (R157, R348, R355, R356, R360). -/

/-- A REM operand (R48, R52). -/
def remArg (w : Word) (opnd : Nat) : MM Unit := do
  let s ← get
  need (w.tag == Tag.rem && !s.malformed w) (.of .tag opnd)

/-- A word on its way out of the node: what is sent in its place, and the words that REFINC counts first. TAG is the instruction's fault
for a word that R355 refuses, and REMOTE_FAIL where no export entry is free. -/
def outArg (p dst : Nat) (w : Word) : MM (Word × List Word) := do
  let s ← get
  match s.outWord p dst w with
  | .ok (v, r, s') => do
    set s'
    pure (v, r.toList)
  | .error k => fault (if k = NakCode.tag then .of .tag 3 else .of .remoteFail 1)

/-- A word that R355 refuses: a QUE without PUSH, a DEV, or a malformed pointer or QUE, that would leave the node. -/
def outTag (s : State) (dst : Nat) (w : Word) : Bool :=
  dst == s.cgNode || !((w.tag == Tag.que && !quePush w.pay) || w.tag == Tag.dev || ((s.isPtr w.tag || w.tag == Tag.que) && s.malformed w))

/-- A free transaction identifier; with none free, the instruction stays as it was. -/
def takeTxn : MM Nat := do
  let s ← get
  match s.freeTxn with
  | some t => pure t
  | none => throw (.wait .none)

/-- REMOTE_FAIL where no route to the node is up (R157, R348). -/
def routeNeed (dst : Nat) : MM Unit := do
  let s ← get
  need (dst == s.cgNode || (s.chooseRoute dst).isSome) (.of .remoteFail 1)

/-- A transaction starts: its message leaves, or waits for the REFINCs of the REM words it carries (R360). -/
def startTxn (t : Nat) (x : CTxn) : MM Unit := do
  let s ← get
  let s := s.modTxn t (fun o => { x with phase := .live, gen := o.gen, freedAt := o.freedAt })
  let r := match x.refs with
    | [] => s.sendTxn t
    | w :: _ => s.sendRefinc w (some t) none x.part
  match r with
  | some s => set s
  | none => fault (.of .remoteFail 1)

/-- RLD and RST (R157): the request is issued, and the core waits for its answer. kind: what is sent, with the data word of RST. -/
def remoteBody (c d a b : Nat) (data : Option Word) : MM Next := do
  let w ← rd c a
  let i ← rd c b
  remArg w 1
  fixArg i 2
  let dst := remNode w.pay
  let s ← get
  match data with
  | some v => need (!isStructural v.tag && v.tag != Tag.raww && outTag s dst v) (.of .tag 3)
  | none => pure ()
  routeNeed dst
  let t ← takeTxn
  let p := s.corePart c
  let (v, refs) ← match data with
    | some v => outArg p dst v
    | none => pure (Word.void, [])
  let s ← get
  let body := if data.isSome then [w, i, v] else [w, i]
  startTxn t { kind := if data.isSome then .rst else .rld, part := p, core := c, a := a, b := b, d := d, refs := refs,
               msg := some (s.mkMsg (if data.isSome then .wr else .rd) dst t (s.txn t).gen body) }
  upd (fun s => s.countCore c 0x1A)
  throw (.wait (.remote t))

/-- A fault before anything is sent leaves the export table as it was (R355). -/
def undoOnFault {α : Type} (m : MM α) : MM α := fun s =>
  match m s with
  | .error (.exn e) s' => .error (.exn e) { s' with cg := s.cg }
  | r => r

/-- RLD (R157). -/
def rldBody (c d a b : Nat) : MM Next := remoteBody c d a b none
def execRld (c : CoreId) (d a b : RegN) (s : State) : Host.Outcome State Fault Refusal :=
  .next (s.runCore c.val (preDAB d.val a.val b.val 0) (rldBody c.val d.val a.val b.val))

/-- RST (R157). -/
def rstBody (c d a b : Nat) : MM Next := do
  let v ← rd c d
  remoteBody c d a b (some v)
def execRst (c : CoreId) (d a b : RegN) (s : State) : Host.Outcome State Fault Refusal :=
  .next (s.runCore c.val (preDAB d.val a.val b.val 0) (undoOnFault (rstBody c.val d.val a.val b.val)))

/-- RPUSH (R157, R158): the request is posted, and ends later in one record. -/
def rpushBody (c d a b : Nat) : MM Next := do
  need (quadOk d) (.of .illegal)
  let w ← rd c a
  let h ← rd c b
  remArg w 1
  queArg h 2
  let it ← rdQuad c d
  let dst := remNode w.pay
  let s ← get
  need (outTag s dst it.w0 && outTag s dst it.w1 && outTag s dst it.w2 && outTag s dst it.w3) (.of .tag 3)
  let _ ← handleCheck c h true 2
  routeNeed dst
  let t ← takeTxn
  let p := s.corePart c
  let (v0, r0) ← outArg p dst it.w0
  let (v1, r1) ← outArg p dst it.w1
  let (v2, r2) ← outArg p dst it.w2
  let (v3, r3) ← outArg p dst it.w3
  let s ← get
  startTxn t { kind := .rpush, part := p, core := c, a := a, b := b, d := d, refs := r0 ++ r1 ++ r2 ++ r3, remW := w, item0 := it.w0,
               que := h.pay, msg := some (s.mkMsg .push dst t (s.txn t).gen [w, v0, v1, v2, v3]) }
  upd (fun s => s.countCore c 0x1A)
  pure .seq

def execRpush (c : CoreId) (d a b : RegN) (s : State) : Host.Outcome State Fault Refusal :=
  .next (s.runCore c.val (preDAB d.val a.val b.val 0) (undoOnFault (rpushBody c.val d.val a.val b.val)))

/-- EXPORT (R353). -/
def exportBody (c d a : Nat) : MM Next := do
  let w ← rd c a
  let s ← get
  need ((s.isPtr w.tag || (w.tag == Tag.que && quePush w.pay)) && !s.malformed w) (.of .tag 1)
  match s.newExport (s.corePart c) false 0 w with
  | none => fault (.of .alloc 1)
  | some (i, s') => do
    set s'
    wr c d (remWord s'.cgNode (s'.xent i).gen i)
    pure .seq
def execExportI (c : CoreId) (d a : RegN) (s : State) : Host.Outcome State Fault Refusal :=
  .next (s.runCore c.val (preDA d.val a.val 0) (exportBody c.val d.val a.val))

/-- UNEXPORT (R353): an entry of the core's partition. -/
def unexportBody (c a : Nat) : MM Next := do
  let w ← rd c a
  remArg w 1
  let s ← get
  need (remNode w.pay == s.cgNode) (.of .tag 1)
  let i := remIdx w.pay
  let e := s.xent i
  need (e.phase == .live && e.gen == remGen w.pay && e.part == s.corePart c) (.of .stale 1)
  upd (fun s => s.retireExport i)
  pure .seq
def execUnexport (c : CoreId) (a : RegN) (s : State) : Host.Outcome State Fault Refusal :=
  .next (s.runCore c.val { sup := true, groups := regGrp a.val, opnds := { a := some a.val } } (unexportBody c.val a.val))

/-! Service (R354, R357). -/

/-- The NAK code of a fault of the element checks (R354 step 6). -/
def nakOf (e : Exn) : Nat :=
  match e.cause with
  | .segLimit => NakCode.range
  | .tag => NakCode.tag
  | .memUncorr => NakCode.ue
  | _ => NakCode.rights

/-- Body word i of a message. -/
def bodyW (m : CMsg) (i : Nat) : Word := (m.body[i]?).getD Word.void

namespace State

/-- Steps 1 to 5 of R354: the partition and the entry, or a NAK code. -/
def serveCheck (s : State) (m : CMsg) : Except Nat (Nat × XEnt) :=
  let r := (bodyW m 0).pay
  let e := s.xent (remIdx r)
  match s.xOwner (remIdx r) with
  | none => .error NakCode.noentry
  | some p =>
    if (s.part p).resetting || (s.part p).resetReq then .error NakCode.off
    else if e.phase != .live || e.gen != remGen r then .error NakCode.stale
    else if e.queue != (m.kind == .push) then .error NakCode.kind
    else if m.kind == .wr && !s.rb (Reg.CGL_XRANGE p) 62 then .error NakCode.rights
    else .ok (p, e)

/-- A word that may not be stored or pushed from a message (R354 step 7). -/
def msgTag (s : State) (w : Word) : Bool := isStructural w.tag || w.tag == Tag.raww || w.tag == Tag.dev || s.malformed w

end State

/-- How the node accesses memory for a partition (R354). -/
def serveCtx (p : Nat) : Ctx := { who := .eng 7, part := p, sup := true, req := .jtag }

/-- The target of an export through the load barrier (R271). -/
def serveTarget (i : Nat) (e : XEnt) (p : Nat) : MM Word := do
  let t ← (serveCtx p).deliver e.target none false false
  upd (fun s => s.modXent i (fun e => { e with target := t }))
  pure t

/-- The element of a RD. -/
def serveLoad (m : CMsg) (p : Nat) (e : XEnt) : MM Word := do
  let t ← serveTarget (remIdx (bodyW m 0).pay) e p
  (serveCtx p).loadElem t 0 (bodyW m 1).pay.toInt 0

/-- The store of a WR; none where step 7 refuses its data word. -/
def serveStore (m : CMsg) (p : Nat) (e : XEnt) : MM (Option Unit) := do
  let t ← serveTarget (remIdx (bodyW m 0).pay) e p
  let x := serveCtx p
  let w := bodyW m 2
  let (l, _) ← x.elemLoc t 0 (bodyW m 1).pay.toInt 0 true
  x.storeChk l w 0
  let s ← get
  if s.msgTag w then pure none
  else do
    upd (fun s => s.receiveRem m.src.toNat w)
    x.storeDo l w
    pure (some ())

namespace State

/-- RD (R354, R355): answered by RDACK, which a REM of a third node holds back until it is counted (R360). -/
def serveRd (s : State) : State :=
  match s.takeMsg .rd with
  | none => s
  | some (m, s1) =>
    let s1 := s1.countUn 0x15 0
    match s1.serveCheck m with
    | .error k => s1.respondNak m k 0
    | .ok (p, e) =>
      match (serveLoad m p e).run s1 with
      | (.error (.wait _), _) => s
      | (.error (.exn f), s2) => s2.respondNak m (nakOf f) 0
      | (.ok w, s2) =>
        if w.tag = Tag.raww then s2.respondNak m NakCode.tag 0
        else match s2.outWord p m.src.toNat w with
          | .error k => s2.respondNak m k 0
          | .ok (v, none, s3) => s3.respond m .rdack [v]
          | .ok (v, some r, s3) => (s3.sendRefinc r none (some (s3.mkMsg .rdack m.src.toNat m.txid.toNat m.txgen.toNat [v])) p).getD s3

/-- WR (R354). -/
def serveWr (s : State) : State :=
  match s.takeMsg .wr with
  | none => s
  | some (m, s1) =>
    let s1 := s1.countUn 0x15 0
    match s1.serveCheck m with
    | .error k => s1.respondNak m k 0
    | .ok (p, e) =>
      match (serveStore m p e).run s1 with
      | (.error (.wait _), _) => s
      | (.error (.exn f), s2) => s2.respondNak m (nakOf f) 0
      | (.ok none, s2) => s2.respondNak m NakCode.tag 0
      | (.ok (some _), s2) => s2.respond m .wrack []

/-- PUSH (R354, R357): the filter first, then the checks, then the queue. -/
def servePush (s : State) : State :=
  match s.takeMsg .push with
  | none => s
  | some (m, s1) =>
    let s1 := s1.countUn 0x15 0
    let key := fun (e : Nat × Nat × Nat × Nat) => e.1 == m.src.toNat && e.2.1 == m.txid.toNat && e.2.2.1 == m.txgen.toNat
    if s1.cg.filter.any key then s1.respond m .pushack []
    else if 65536 ≤ s1.cg.filter.length then s1.respondNak m NakCode.busy 0
    else match s1.serveCheck m with
      | .error k => s1.respondNak m k 0
      | .ok (p, e) =>
        let ws := [bodyW m 1, bodyW m 2, bodyW m 3, bodyW m 4]
        if ws.any (fun w => s1.msgTag w) then s1.respondNak m NakCode.tag 0
        else
          match s1.enginePush p (queNum e.target.pay) (queGen e.target.pay) ⟨bodyW m 1, bodyW m 2, bodyW m 3, bodyW m 4⟩ with
          | (some r, s2) => s2.respondNak m NakCode.queue r
          | (none, s2) =>
            let s2 := ws.foldl (fun s w => s.receiveRem m.src.toNat w) s2
            (s2.modCg (fun x => { x with filter := x.filter ++ [(m.src.toNat, m.txid.toNat, m.txgen.toNat, s2.now + 12000000)] })).respond
              m .pushack []

/-! Responses (R157, R158, R356–R360). -/

/-- A RLD or RST ends: its identifier retires, and the core that still waits goes on, or takes the fault (R157). -/
def endRemote (s : State) (t : Nat) (x : CTxn) (r : Except Exn (Option Word)) : State :=
  let waits := (s.core x.core).wait == .remote t
  let s := s.retireTxn t
  if !waits then s
  else
    let s := s.modCore x.core (fun k => { k with wait := .none })
    match r with
    | .ok (some w) => (s.setReg x.core x.d w).retire x.core .seq
    | .ok none => s.retire x.core .seq
    | .error e => s.takeFault x.core e (s.xop x.core { a := some x.a, b := some x.b, d := some x.d } 0#8)

/-- A transaction whose message cannot be sent fails with REMOTE_FAIL (R360). -/
def failTxn (s : State) (t code : Nat) : State :=
  let x := s.txn t
  if x.phase != .live then s
  else match x.kind with
  | .rpush => (s.modTxn t (fun x => { x with nak := code })).endRpush t true 0x11 0
  | .refinc => s.retireTxn t
  | _ => s.endRemote t x (.error (.of .remoteFail 1))

/-- The oldest response of a kind, with its transaction where its generation is current and the transaction is one that it answers; any
other is dropped and counted (R356). -/
def takeResponse (s : State) (k : CKind) (ok : TxKind → Bool) : State × Option (CMsg × Nat × CTxn) :=
  match s.takeMsg k with
  | none => (s, none)
  | some (m, s) =>
    match s.currentTxn m with
    | none => (s.staleResponse, none)
    | some (t, x) => if ok x.kind then (s, some (m, t, x)) else (s.staleResponse, none)

/-- RDACK completes a RLD (R157, R359). -/
def rdackArrives (s : State) : State :=
  match s.takeResponse .rdack (· == .rld) with
  | (s, none) => s
  | (s, some (m, t, x)) => (s.receiveRem m.src.toNat (bodyW m 0)).endRemote t x (.ok (some (bodyW m 0)))

/-- WRACK completes a RST. -/
def wrackArrives (s : State) : State :=
  match s.takeResponse .wrack (· == .rst) with
  | (s, none) => s
  | (s, some (_, t, x)) => s.endRemote t x (.ok none)

/-- PUSHACK ends a RPUSH (R358). -/
def pushackArrives (s : State) : State :=
  match s.takeResponse .pushack (· == .rpush) with
  | (s, none) => s
  | (s, some (_, t, x)) => if x.rcd.isSome then s else s.endRpush t false 0 1

/-- NAK (R157, R357, R358). -/
def nakArrives (s : State) : State :=
  match s.takeResponse .nak (· != .refinc) with
  | (s, none) => s
  | (s, some (m, t, x)) =>
    let code := fld (bodyW m 0).pay 7 0
    if x.kind != .rpush then s.endRemote t x (.error (.of (if code = NakCode.stale then .stale else .remoteFail) 1))
    else if x.rcd.isSome then s
    else
      let s := s.modTxn t (fun x => { x with nak := code, qreason := fld (bodyW m 0).pay 15 8 })
      if code = NakCode.lost ∨ code = NakCode.unreach ∨ code = NakCode.busy then
        s.modTxn t (fun x => { x with again := true, lost := x.lost || code == NakCode.lost })
      else s.endRpush t true (if code = NakCode.stale then 0x12 else 0x11) 0

/-- REFINC (R359, R360): counted, and answered by REFACK. -/
def refincArrives (s : State) : State :=
  match s.takeMsg .refinc with
  | none => s
  | some (m, s) =>
    let w := (bodyW m 0).pay
    (s.refInc (fld w 23 0) (fld w 39 24) 1).respond m .refack m.body
/-- REFDEC (R359). -/
def refdecArrives (s : State) : State :=
  match s.takeMsg .refdec with
  | none => s
  | some (m, s) => let w := (bodyW m 0).pay; s.refDec (fld w 23 0) (fld w 39 24)

/-- REFACK (R360): the held response leaves, or the waiting transaction sends its next REFINC or its message. -/
def refackArrives (s : State) : State :=
  match s.takeResponse .refack (· == .refinc) with
  | (s, none) => s
  | (s, some (_, t, x)) =>
    let s := s.retireTxn t
    let s := match x.held with
      | some m => s.sendOrDrop m
      | none => s
    match x.parent with
    | none => s
    | some q =>
      if (s.txn q).phase != .live then s
      else
        let s := s.modTxn q (fun y => { y with refs := y.refs.drop 1 })
        match (match (s.txn q).refs with
               | [] => s.sendTxn q
               | w :: _ => s.sendRefinc w (some q) none (s.txn q).part) with
        | some s => s
        | none => s.failTxn q NakCode.unreach

/-- CCTL.TOUT after the last send, with no answer (R356, R357, R360). -/
def transactionTimeout (s : State) (t : Nat) : State :=
  let x := s.txn t
  if !(x.phase == .live && x.sent && x.rcd.isNone && !x.again) then s
  else
    let s := s.advanceTo (x.lastSend + s.toutNs)
    match x.kind with
    | .rpush => s.modTxn t (fun x => { x with again := true, lost := true })
    | .refinc =>
      let s := s.retireTxn t
      (match x.parent with
       | some q => s.failTxn q NakCode.lost
       | none => s)
    | _ => s.endRemote t x (.error (.of .remoteFail 1))

/-- An RPUSH of a core has no record in its reply queue yet. -/
def rpushOpen (s : State) (c : Nat) : Bool := s.cg.txns.any (fun e => e.2.phase == .live && e.2.kind == .rpush && e.2.core == c)

/-- A FENCE that waits for records completes when the last has been pushed (R163). -/
def releaseFences (s : State) : State :=
  (List.range 64).foldl (fun s c =>
    match (s.core c).wait with
    | .fence _ => if s.rpushOpen c then s else (s.modCore c (fun x => { x with wait := .none })).retire c .seq
    | _ => s) s

end State

/-! The rows. -/

/-- RD (R354). -/
def execRd (s : State) : Host.Outcome State Fault Refusal := whenUp s State.serveRd
/-- WR (R354). -/
def execWr (s : State) : Host.Outcome State Fault Refusal := whenUp s State.serveWr
/-- PUSH (R357). -/
def execPush (s : State) : Host.Outcome State Fault Refusal := whenUp s State.servePush
/-- RDACK (R157). -/
def execRdack (s : State) : Host.Outcome State Fault Refusal := whenUp s State.rdackArrives
/-- WRACK (R157). -/
def execWrack (s : State) : Host.Outcome State Fault Refusal := whenUp s State.wrackArrives
/-- PUSHACK (R358). -/
def execPushack (s : State) : Host.Outcome State Fault Refusal := whenUp s (fun s => s.pushackArrives.releaseFences)
/-- NAK (R157). -/
def execNak (s : State) : Host.Outcome State Fault Refusal := whenUp s (fun s => s.nakArrives.releaseFences)
/-- REFINC (R360). -/
def execRefinc (s : State) : Host.Outcome State Fault Refusal := whenUp s State.refincArrives
/-- REFDEC (R359). -/
def execRefdec (s : State) : Host.Outcome State Fault Refusal := whenUp s State.refdecArrives
/-- REFACK (R360). -/
def execRefack (s : State) : Host.Outcome State Fault Refusal := whenUp s (fun s => s.refackArrives.releaseFences)
/-- TRANSACTION_TIMEOUT (R356). -/
def execTransactionTimeout (t : BitVec 16) (s : State) : Host.Outcome State Fault Refusal := whenUp s (fun s => (s.transactionTimeout t.toNat).releaseFences)
/-- RPUSH_RESEND (R357). -/
def execRpushResend (t : BitVec 16) (s : State) : Host.Outcome State Fault Refusal := whenUp s (fun s => s.rpushResend t.toNat)
/-- RPUSH_GIVE_UP (R358). -/
def execRpushGiveUp (t : BitVec 16) (s : State) : Host.Outcome State Fault Refusal := whenUp s (fun s => (s.rpushGiveUp t.toNat).releaseFences)
/-- RPUSH_RECORD_RETRY (R358). -/
def execRpushRecordRetry (t : BitVec 16) (s : State) : Host.Outcome State Fault Refusal := whenUp s (fun s => (s.retryRpushRecord t.toNat).releaseFences)
/-- PUSH_FILTER_EXPIRY (R357). -/
def execPushFilterExpiry (s : State) : Host.Outcome State Fault Refusal := whenUp s State.filterExpiry
/-- IMPORT_RELEASE (R361). -/
def execImportRelease (s : State) : Host.Outcome State Fault Refusal := whenUp s State.importRelease

end Sys2Proof.Machine
end

