-- ==== Sys2Proof/Machine/BranchOps.lean ====
section
/-!
DEFINITION. Branches, jumps, calls and returns (spec 03 R63, R64, R88–R90, spec 04 R92, spec 06 R139–R141).
-/
namespace Sys2Proof.Machine

open Sys2Proof

/-- A branch on a register: the test, then the move of the index (R92, R139). -/
def branchBody (c a : Nat) (disp : Int) (test : Word → MM Bool) : MM Next := do
  let va ← rd c a
  let t ← test va
  let s ← get
  if t then branchTo (s.coreCtx c) c disp else pure .seq
def runBranch (test : Word → MM Bool) (c : CoreId) (a : RegN) (disp : BitVec 18) (s : State) : State :=
  s.runCore c.val { groups := regGrp a.val, opnds := { a := some a.val } } (branchBody c.val a.val disp.toInt test)

def testTrue (w : Word) : MM Bool := truth w 1
def testFalse (w : Word) : MM Bool := do
  let t ← truth w 1
  pure (!t)
def testZero (w : Word) : MM Bool := do
  rawArg w 1
  pure (w.pay == 0#64)
def testNonzero (w : Word) : MM Bool := do
  rawArg w 1
  pure (w.pay != 0#64)

/-- BT (R139). -/
def execBt (c : CoreId) (a : RegN) (disp : BitVec 18) (s : State) : Host.Outcome State Fault Refusal := .next (runBranch testTrue c a disp s)
/-- BF (R139). -/
def execBf (c : CoreId) (a : RegN) (disp : BitVec 18) (s : State) : Host.Outcome State Fault Refusal := .next (runBranch testFalse c a disp s)
/-- BNIL (R139). -/
def execBnil (c : CoreId) (a : RegN) (disp : BitVec 18) (s : State) : Host.Outcome State Fault Refusal :=
  .next (runBranch (fun w => pure (w == nilW)) c a disp s)
/-- BNNIL (R139). -/
def execBnnil (c : CoreId) (a : RegN) (disp : BitVec 18) (s : State) : Host.Outcome State Fault Refusal :=
  .next (runBranch (fun w => pure (w != nilW)) c a disp s)
/-- BZW (R139). -/
def execBzw (c : CoreId) (a : RegN) (disp : BitVec 18) (s : State) : Host.Outcome State Fault Refusal := .next (runBranch testZero c a disp s)
/-- BNZW (R139). -/
def execBnzw (c : CoreId) (a : RegN) (disp : BitVec 18) (s : State) : Host.Outcome State Fault Refusal :=
  .next (runBranch testNonzero c a disp s)

/-- JMP (R139). -/
def jmpBody (c : Nat) (disp : Int) : MM Next := do
  let s ← get
  branchTo (s.coreCtx c) c disp
def execJmp (c : CoreId) (disp : BitVec 23) (s : State) : Host.Outcome State Fault Refusal :=
  .next (s.runCore c.val {} (jmpBody c.val disp.toInt))

/-- The entry descriptor of a CODE object accepts n arguments (Table 3-7): a reserved count, or a bit that must be zero, accepts none. -/
def entryAccepts (w0 : Word) (n : Nat) : Bool :=
  fld w0.pay 56 32 == 0 && decide (fld w0.pay 62 60 ≤ n) && fld w0.pay 62 60 != 7 &&
    (bitAt w0.pay 63 || (decide (n ≤ fld w0.pay 59 57) && fld w0.pay 59 57 != 7))
/-- A VAR entry. -/
def entryVar (w0 : Word) : Bool := bitAt w0.pay 63

/-- The target of CALL and TCALL (R89, R140): the word for o6 or i6, the first instruction, and body word 0. -/
def callTarget (x : Ctx) (t : Word) (n : Nat) : MM (Word × Ip × Word) := do
  let s ← get
  need ((t.tag == Tag.code || t.tag == Tag.fn) && !s.malformed t) (.of .tag 1)
  let k ← if t.tag = Tag.fn then x.loadElem t 1 0 0 else pure t
  let s ← get
  need (k.tag == Tag.code && !s.malformed k) (.of .tag 1)
  let sel := ptrSel k.pay
  let (off, w0) ← codeWord0 x sel (ptrOff k.pay)
  need (decide (off < 2 ^ 28)) (.of .segLimit 1)
  need (codeOk w0 && entryAccepts w0 n) (.of .illegal)
  pure (if t.tag = Tag.fn then t else nilW, { sel := sel, off := off, idx := 0 }, w0)

/-- Execution moves to a target by CALL, TCALL or RET: the trace records it. -/
def callTo (c : Nat) (dest : Ip) : MM Next := do
  upd (fun s => s.trace c 1 (s.cl c) 0 (retPay dest))
  pure (.goto dest)

/-- ILLEGAL at CL 6 (R70). -/
def notSnap (c : Nat) : MM Unit := do
  let s ← get
  need (!s.snap c) (.of .illegal)

/-- CALL (R64, R89, R140). -/
def callBody (c a n : Nat) : MM Next := do
  notSnap c
  let t ← rd c a
  let s ← get
  let (f, dest, w0) ← callTarget (s.coreCtx c) t n
  let s ← get
  need (decide (s.handN c < 15)) (.of .handSpill)
  let ip := (s.core c).ip
  wr c 15 ⟨Tag.ret, retPay { ip with idx := ip.idx + 1 }⟩
  wr c 14 f
  upd (fun s => (s.moveChp c 1).dirty c grpC)
  if entryVar w0 then wr c 23 (fixN n) else pure ()
  callTo c dest
def execCall (c : CoreId) (a : RegN) (n : BitVec 3) (s : State) : Host.Outcome State Fault Refusal :=
  .next (s.runCore c.val { illegal := n == 7#3, groups := regGrp a.val ||| grpW, opnds := { a := some a.val } }
    (callBody c.val a.val n.toNat))

/-- TCALL (R141). -/
def tcallBody (c a n : Nat) : MM Next := do
  let t ← rd c a
  let s ← get
  let (f, dest, w0) ← callTarget (s.coreCtx c) t n
  let s ← get
  let outs := (List.range 6).map (fun k => s.reg c (8 + k))
  outs.zipIdx.forM (fun e => wr c (24 + e.2) e.1)
  wr c 30 f
  if entryVar w0 then wr c 23 (fixN n) else pure ()
  callTo c dest
def execTcall (c : CoreId) (a : RegN) (n : BitVec 3) (s : State) : Host.Outcome State Fault Refusal :=
  .next (s.runCore c.val { illegal := n == 7#3, groups := regGrp a.val ||| grpW, opnds := { a := some a.val } } (tcallBody c.val a.val n.toNat))

/-- RET (R90). -/
def retBody (c : Nat) : MM Next := do
  notSnap c
  let r ← rd c 31
  need (r.tag == Tag.ret) (.of .tag)
  let s ← get
  need (s.handN c != 1) (.of .handFill)
  let x := s.coreCtx c
  let sel := retSel r.pay
  let off0 := retOff r.pay
  let idx := retIdx r.pay
  let _ ← x.resolve sel off0 .exec
  let _ ← x.resolve sel (off0 + 1) .exec
  let _ ← x.resolve sel (off0 + 4 + idx / 2) .exec
  let (off, w0) ← codeWord0 x sel off0
  need (w0.tag == Tag.fix) (.of .illegal)
  need (decide (idx < 2 * icount w0)) (.of .segLimit)
  upd (fun s => (s.moveChp c 15).dirty c grpC)
  callTo c { sel := sel, off := off, idx := idx }
def execRet (c : CoreId) (s : State) : Host.Outcome State Fault Refusal :=
  .next (s.runCore c.val { groups := grpW } (retBody c.val))

end Sys2Proof.Machine
end

