-- ==== Sys2Proof/Machine/RepeatOps.lean ====
section
/-!
DEFINITION. Repeat prefixes and iterations (spec 04 R101–R106), and the custom page (R100, spec 08 R188–R200).
-/
namespace Sys2Proof.Machine

open Sys2Proof

/-! The custom page. -/

/-- The decode facts of a custom slot: an empty slot is reserved; the entry's SUP mark (R99, R100, R188). The groups of all three register fields
must be present, whichever the routine uses (DESIGN CHOICE: notes/assumptions/96.md). -/
def preCustom (e : W64) (d a b : Nat) : Pre := { preDAB d a b 0 with illegal := !bitAt e 31, sup := bitAt e 29 }
/-- The routine of a custom slot is entered. -/
def customBody (c slot d a b x : Nat) : MM Next := do
  let s ← get
  microStart c (s.decEntry c (0xD0 + slot)) (0xD0 + slot) d a b x none
/-- CUSTOM_INSTRUCTION (R100). -/
def execCustomInstruction (c : CoreId) (slot : Fin 48) (d a b : RegN) (x : BitVec 8) (s : State) : Host.Outcome State Fault Refusal :=
  .next (s.runCore c.val (preCustom (s.decEntry c.val (0xD0 + slot.val)) d.val a.val b.val)
    (customBody c.val slot.val d.val a.val b.val x.toNat))
/-- MICRO_COMMIT (R196). -/
def execMicroCommit (c : CoreId) (s : State) : Host.Outcome State Fault Refusal := .next (s.microCommit c.val)
/-- MICRO_RESTART_POINT (R196, R198). -/
def execMicroRestartPoint (c : CoreId) (s : State) : Host.Outcome State Fault Refusal := .next (s.microRestart c.val)

/-! Prefixes. -/

/-- The repeatable instruction that a word encodes (Table 4-2, Table 4-3, R100): its decode facts and its body; none for any other word. -/
def repTarget (s : State) (c : Nat) (w : BitVec 32) : Option (Pre × MM Next) :=
  let n := w.toNat
  let op := n / 2 ^ 23 % 256
  let d := n / 2 ^ 18 % 32
  let a := n / 2 ^ 13 % 32
  let b := n / 2 ^ 8 % 32
  let sg := n / 2 ^ 9 % 16
  let imm : Int := (BitVec.ofNat 9 n).toInt
  let ill := (decodeInstr 0 w).isNone
  if n.testBit 31 then none
  else match op with
  | 0x49 => some ({ preDA d a 0 with illegal := ill }, finishOp c (carOp 0x49 c d a 1))
  | 0x59 => some (preSeg d a, stsBody c d a sg imm)
  | 0x60 => some ({ preSeg d a with illegal := ill }, movsBody c d a sg (n / 2 ^ 5 % 16) 1)
  | 0x61 => some ({ preSeg d a with illegal := ill }, movsBody c d a sg (n / 2 ^ 5 % 16) (-1))
  | 0x62 => some (preAcc d a, accBody 0x01 c d a sg imm)
  | 0x63 => some (preAcc d a, accBody 0x0E c d a sg imm)
  | 0x64 => some (preAcc d a, accBody 0x0D c d a sg imm)
  | _ =>
    if 0xD0 ≤ op ∧ bitAt (s.decEntry c op) 31 ∧ bitAt (s.decEntry c op) 28 then
      some (preCustom (s.decEntry c op) d a b, customBody c (op - 0xD0) d a b (n % 256))
    else none

/-- RPT of a repeat (spec 04, RPT). -/
def rptWord (count : Nat) (act nrep : Bool) : W64 := putFld 33 33 nrep.toNat ||| putFld 32 32 act.toNat ||| putFld 31 0 count

/-- The target after a prefix is checked (R101 steps 1 and 2). -/
def targetCheck (c : Nat) : MM Unit := do
  let s ← get
  let w ← fetchWord (s.coreCtx c) c ((s.core c).ip.idx + 1)
  let s ← get
  need (repTarget s c w).isSome (.of .illegalRepeat)

/-- Execution goes on after the target. -/
def pastTarget (c : Nat) : MM Next := do
  let s ← get
  pure (.goto { (s.core c).ip with idx := (s.core c).ip.idx + 2 })

/-- The count of a prefix (R101 steps 3 and 4). -/
def prefixCount (c : Nat) (src : RepSrc) : MM Int := do
  match src with
  | .reg a => do
    needGroups c (regGrp a.val ||| grpC)
    let w ← rd c a.val
    fixArg w 1
    pure w.pay.toInt
  | .imm n => do
    needGroups c grpC
    pure n.toNat

/-- A prefix that latches its count, or resumes (R101, R105). -/
def repBody (c : Nat) (nrep : Bool) (src : RepSrc) : MM Next := do
  targetCheck c
  let s ← get
  if s.repAct c then do
    need (bitAt (s.rptR c) 33 == nrep) (.of .illegalRepeat)
    needGroups c grpC
    if fld (s.rptR c) 31 0 = 0 then do
      upd (fun s => (s.rptW c (setBit (s.rptR c) 32 false)).dirty c grpC)
      pastTarget c
    else do
      upd (fun s => s.countCore c 0x02)
      pure .done
  else do
    let n ← prefixCount c src
    let s ← get
    need (decide (0 ≤ n) && decide (n < 2 ^ 32) && (!nrep || decide (n ≤ (s.part (s.corePart c)).repLim))) (.of .illegalRepeat)
    upd (fun s => (s.rptW c (rptWord n.toNat (n != 0) nrep)).dirty c grpC)
    if n = 0 then pastTarget c
    else do
      upd (fun s => s.countCore c 0x02)
      pure .done

/-- The decode facts of a prefix; the immediate form of REP.N has a count of 6 bits (Table 4-2). -/
def preRep (s : State) (c : Nat) (nrep : Bool) (src : RepSrc) : Pre :=
  match src with
  | .reg a => { isRep := true, opnds := if s.repAct c then {} else { a := some a.val } }
  | .imm n => { isRep := true, illegal := nrep && decide (64 ≤ n.toNat) }

/-- REP.I (R101). -/
def execRepI (c : CoreId) (src : RepSrc) (s : State) : Host.Outcome State Fault Refusal :=
  .next (s.runCore c.val (preRep s c.val false src) (repBody c.val false src))
/-- REP.N (R101). -/
def execRepN (c : CoreId) (src : RepSrc) (s : State) : Host.Outcome State Fault Refusal :=
  .next (s.runCore c.val (preRep s c.val true src) (repBody c.val true src))

/-! Iterations. -/

/-- The target of a repeat with its iteration's commit (R102). -/
def iterBody (c : Nat) (body : MM Next) : MM Next := do
  match ← body with
  | .seq => do
    upd (fun s => s.iterated c)
    pure .done
  | n => pure n

/-- A BREAK hit on the target of REP.N waits, as every event of level 1, for the end of the repeat (R103, R106). -/
def holdBreak (s : State) (c : Nat) : State :=
  match s.fetchPa c ((s.core c).ip.idx + 1) with
  | none => s
  | some pa =>
    if !s.dbgOn c || (s.cl c == 0 && s.rb (Reg.DBG_DBGSTAT c) 2) then s
    else
      let bits := s.breakHits c pa (((s.core c).ip.idx + 1) % 2 == 1)
      let s := s.recordHits c bits pa
      if bits = 0 || s.cl c != 0 then s
      else s.modCore c (fun x => { x with stopRet := match x.stopRet with
        | some (w, m) => some (w, m ||| bits)
        | none => some (false, bits) })

/-- The comparators' test of the target's fetch. -/
def iterBreak (s : State) (c : Nat) : Bool × State :=
  if s.repHeld c then (false, holdBreak s c) else s.breakTest c ((s.core c).ip.idx + 1)

/-- One iteration of the active repeat (R102): the target is fetched and executed. -/
def repeatIteration (s : State) (c : Nat) : State :=
  if !s.ready c || !s.repAct c || fld (s.rptR c) 31 0 == 0 then s
  else
    match iterBreak s c with
    | (true, s) => s
    | (false, s) =>
      match (fetchWord (s.coreCtx c) c ((s.core c).ip.idx + 1)).run s with
      | (.error (.exn e), s) => s.takeFault c e 0#64
      | (.error (.wait _), s) => s
      | (.ok w, s) =>
        match repTarget s c w with
        | none => s.takeFault c (.of .illegalRepeat) 0#64
        | some (p, body) => s.runDecoded c { p with isRep := true, groups := p.groups ||| grpC } (iterBody c body)
/-- REPEAT_ITERATION (R102). -/
def execRepeatIteration (c : CoreId) (s : State) : Host.Outcome State Fault Refusal := .next (repeatIteration s c.val)

end Sys2Proof.Machine
end

