-- ==== Sys2Proof/Machine/SystemOps.lean ====
section
/-!
DEFINITION. TRAP, RETX, the control registers, WAIT and FENCE (spec 03 R71–R73, spec 06 R161–R163, spec 07 R176).
-/
namespace Sys2Proof.Machine

open Sys2Proof

/-- TRAP n (R161, R168). -/
def trapBody (c n : Nat) : MM Next := do
  notSnap c
  need (decide (n ≤ 1023)) (.of .illegal)
  fault { cause := .trap, trapn := n }
def execTrap (c : CoreId) (k : BitVec 13) (s : State) : Host.Outcome State Fault Refusal :=
  .next (s.runCore c.val {} (trapBody c.val k.toNat))

/-- RETX (R176). The fill of R68 writes a hand, and faults GROUP_ABSENT while W is absent (R81). -/
def execRetx (c : CoreId) (s : State) : Host.Outcome State Fault Refusal :=
  .next (s.runCore c.val { sup := true, groups := if s.handN c.val = 1 then grpW else 0 } (retxM c.val))

/-! Control registers. -/

/-- CRNs of Table 3-3. -/
def crnOk (k : Nat) : Bool := decide (k ≤ 0x39)
/-- User mode may read, and may write (Table 3-3). -/
def crnUserR (k : Nat) : Bool := k == CRN.cst || k == CRN.rpt || k == CRN.asr || k == CRN.fsr
def crnUserW (k : Nat) : Bool := k == CRN.asr || k == CRN.fsr
/-- The group of a control register: C is never absent (GDS.CA). -/
def crnGrp (k : Nat) : Nat := if k = CRN.asr ∨ k = CRN.fsr then grpQ else if 1 ≤ k ∧ k ≤ 4 then grpC else 0

namespace State

/-- A control register as it reads at the current level (R69). -/
def crRead (s : State) (c k : Nat) : W64 :=
  if k = CRN.cst then s.cstR c
  else if k = CRN.rpt then s.rptR c
  else if k = CRN.asr then s.asrR c
  else if k = CRN.fsr then s.fsrR c
  else s.crR c k

/-- A field that holds an offset keeps its value where the one written is no multiple of n (R10). -/
def offsetField (old v : W64) (n : Nat) : W64 := putFld 47 0 (if fld v 47 0 % n = 0 then fld v 47 0 else fld old 47 0)
/-- SEL and bit 51. -/
def selField (v : W64) : W64 := v &&& fmask 63 51

/-- A control register as WRCR writes it: the writable fields, and none with a reserved encoding (R10). -/
def crWrite (s : State) (c k : Nat) (v : W64) : State :=
  let old := s.crRead c k
  if k = CRN.cst then
    let x := setBit (s.crR c CRN.cst) 8 (bitAt v 8)
    s.crW c CRN.cst (if fld v 5 3 ≤ 5 then setFld x 5 3 (fld v 5 3) else x)
  else if k = CRN.chp ∨ k = CRN.shp then s.crW c k (v &&& fmask 3 0)
  else if k = CRN.spp then s.crW c k ((v &&& fmask 63 52) ||| offsetField old v 16)
  else if k = CRN.rpt then s.rptW c (v &&& fmask 33 0)
  else if k = CRN.gds then s.crW c k (v &&& (fmask 12 11 ||| fmask 9 8 ||| fmask 4 0))
  else if k = CRN.bkw then s.crW c k (selField v ||| offsetField old v 64)
  else if k = CRN.ccx then s
  else if k = CRN.xtb then s.crW c k (v &&& (fmask 63 51 ||| fmask 47 0))
  else if k < CRN.asr then s.crW c k (selField v ||| offsetField old v 8)
  else if k = CRN.asr then s.asrW c (v &&& asrBits)
  else if k = CRN.fsr then s.fsrW c (v &&& fsrBits)
  else
    let x := v &&& saveMask ((k - 0x10) % 6)
    s.crW c k (if (k - 0x10) % 6 = 3 ∧ 5 ≤ fld v 21 19 then setFld x 21 19 (fld old 21 19) else x)

end State

/-- A control register is listed, and open to the mode (R71, R72). -/
def crnChk (c k : Nat) (user : Bool) : MM Unit := do
  let s ← get
  need (crnOk k) (.of .illegal)
  need (user || s.sup c) (.of .priv)

/-- RDCR (R72). -/
def rdcrBody (c d k : Nat) : MM Next := do
  crnChk c k (crnUserR k)
  let s ← get
  wr c d (fixW (s.crRead c k))
  pure .seq
def execRdcr (c : CoreId) (d : RegN) (k : BitVec 13) (s : State) : Host.Outcome State Fault Refusal :=
  .next (s.runCore c.val { groups := regGrp d.val ||| crnGrp k.toNat,
                           opnds := { d := some d.val } } (rdcrBody c.val d.val k.toNat))

/-- WRCR (R72). -/
def wrcrBody (c a k : Nat) : MM Next := do
  crnChk c k (crnUserW k)
  let w ← rd c a
  need (k != CRN.ccx) (.of .illegal)
  rawArg w 1
  upd (fun s => (s.crWrite c k w.pay).dirty c (crnGrp k))
  pure .seq
def execWrcr (c : CoreId) (a : RegN) (k : BitVec 13) (s : State) : Host.Outcome State Fault Refusal :=
  .next (s.runCore c.val { groups := regGrp a.val ||| crnGrp k.toNat,
                           opnds := { a := some a.val } } (wrcrBody c.val a.val k.toNat))

/-- WAIT (R162): it completes at once where an event can be taken; otherwise the core waits in Doze, at the instruction after it. -/
def waitBody (c : Nat) : MM Next := do
  let s ← get
  if s.eventPending c false then pure .seq
  else do
    upd (fun s => (s.retire c .seq).modCore c (fun x => { x with wait := .doze }))
    pure .done
/-- WAIT alone executes with an event waiting at the boundary before it: that is the event that arrives while it runs, which R162 names. -/
def execWaitI (c : CoreId) (s : State) : Host.Outcome State Fault Refusal :=
  .next (if s.atInstr c.val then s.fetchRun c.val { sup := true } (waitBody c.val) else s)

/-- FENCE (R163): only REM awaits what the model does later; a k of 0 acts as 0xF. -/
def fenceBody (c k : Nat) : MM Next := do
  let s ← get
  if (k = 0 ∨ k.testBit 2) ∧ s.rpushOpen c then throw (.wait (.fence k)) else pure .seq
def execFence (c : CoreId) (k : BitVec 13) (s : State) : Host.Outcome State Fault Refusal :=
  .next (s.runCore c.val { illegal := decide (16 ≤ k.toNat) } (fenceBody c.val k.toNat))

end Sys2Proof.Machine
end

