-- ==== Sys2Proof/Machine/ContextOps.lean ====
section
/-!
DEFINITION. Hand, context and segment instructions (spec 03 R65, R66, R78, R81–R87, spec 06 R164).
-/
namespace Sys2Proof.Machine

open Sys2Proof

/-- The supervisor rights of an instruction that is supervisor only. -/
def supCtx (s : State) (c : Nat) : Ctx := s.coreCtx c

/-- HSPILL (R65, R70). -/
def hspillBody (c : Nat) : MM Next := do
  notSnap c
  let s ← get
  need (decide (2 < s.handN c)) (.of .illegal)
  let x := supCtx s c
  let l ← spillLocs x c (fun k => Tab.get (s.core c).hands k Word.void)
  spillDo x c l
  upd (fun s => s.dirty c grpC)
  pure .seq
def execHspill (c : CoreId) (s : State) : Host.Outcome State Fault Refusal :=
  .next (s.runCore c.val { sup := true, groups := grpW ||| grpC } (hspillBody c.val))

/-- HFILL (R66, R70). -/
def hfillBody (c : Nat) : MM Next := do
  notSnap c
  let s ← get
  need (decide (s.handN c < 15)) (.of .illegal)
  let ws ← fillWords (supCtx s c) c
  fillDo c ws
  upd (fun s => s.dirty c (grpW ||| grpC))
  pure .seq
def execHfill (c : CoreId) (s : State) : Host.Outcome State Fault Refusal :=
  .next (s.runCore c.val { sup := true, groups := grpW ||| grpC } (hfillBody c.val))

/-! Context save areas (Table 3-5). -/

/-- Words of a group in a CSA: offset and count. -/
def csaPlace (g : Nat) : Nat × Nat :=
  match g with
  | 0 => (0x08, 8)
  | 1 => (0x40, 256)
  | 2 => (0x10, 6)
  | 3 => (0x20, 16)
  | _ => (0x30, 2)

/-- The words CTXSW writes for a group: registers of the main bank; the resume PC is a RET word, control and segment registers are FIX. -/
def csaWords (s : State) (c lvl g : Nat) : List Word :=
  let x := s.core c
  match g with
  | 0 => (List.range 8).map (fun k => Tab.get x.g k Word.void)
  | 1 => (List.range 256).map (fun k => Tab.get x.hands k Word.void)
  | 2 => [fixW (s.crR c CRN.chp), fixW (s.crR c CRN.shp), fixW (s.crR c CRN.spp), fixW (s.crR c CRN.rpt),
          ⟨Tag.ret, s.crR c (CRN.save lvl 0)⟩, fixW (s.crR c (CRN.save lvl 1))]
  | 3 => (List.range 16).map (fun k => fixN (Tab.get x.sg k 0))
  | _ => [fixW (s.crR c CRN.asr), fixW (s.crR c CRN.fsr)]

namespace State

/-- A group loaded from a CSA (R84). -/
def putGroup (s : State) (c g : Nat) (ws : List Word) : State :=
  let w := fun (k : Nat) => ws.getD k Word.void
  match g with
  | 0 => forN 8 (fun k s => s.modCore c (fun x => { x with g := Tab.set x.g k (w k) Word.void })) s
  | 1 => s.putHands c ws
  | 3 => forN 16 (fun k s => s.modCore c (fun x => { x with sg := Tab.set x.sg k (fld (w k).pay 11 0) 0 })) s
  | _ => (s.crW c CRN.asr ((w 0).pay &&& asrBits)).crW c CRN.fsr ((w 1).pay &&& fsrBits)

/-- C loaded from a CSA (R83 step 3). -/
def putC (s : State) (c lvl : Nat) (ws : List Word) : State :=
  let w := fun (k : Nat) => (ws.getD k Word.void).pay
  (((((s.crW c CRN.chp (w 0 &&& fmask 3 0)).crW c CRN.shp (w 1 &&& fmask 3 0)).crW c CRN.spp
    ((w 2 &&& fmask 63 52) ||| offsetField (s.crR c CRN.spp) (w 2) 16)).crW c CRN.rpt (w 3 &&& fmask 33 0)).crW c
    (CRN.save lvl 0) (w 4)).crW c (CRN.save lvl 1) (w 5 &&& saveMask 1)

end State

/-- The stores of a group into a CSA, checked. -/
def csaStores (x : Ctx) (p : W64) (o : Nat) (ws : List Word) : MM (List (Loc × Word)) := do
  let ls ← csaLocs x p o ws.length .bankWrite
  let lw := ls.zip ws
  lw.forM (fun e => x.storeChk e.1 e.2 0)
  pure lw

/-- The stores of CTXSW into the outgoing CSA (R83 step 2). -/
def ctxOut (x : Ctx) (c lvl : Nat) : MM (List (Loc × Word)) := do
  let s ← get
  let p := s.crR c CRN.ccx
  if !bitAt p 51 then pure []
  else do
    let gds := s.crR c CRN.gds
    let gs := [0, 1, 2, 3, 4].filter (fun g => g == 2 || (bitAt gds g && !bitAt gds (8 + g)))
    let l ← gs.mapM (fun g => csaStores x p (csaPlace g).1 (csaWords s c lvl g))
    let h ← csaStores x p 0 [fixN 0]
    pure (l.flatten ++ h)

/-- CTXSW (R83). -/
def ctxswBody (c a : Nat) : MM Next := do
  let s ← get
  let lvl := s.cl c
  need (decide (2 ≤ lvl) && decide (lvl ≤ 5)) (.of .illegal)
  let va ← rd c a
  rawArg va 1
  need (fld va.pay 51 48 == 0) (.of .tag 1)
  let x := supCtx s c
  let p := va.pay
  let ls ← csaLocs x p 0 320 .bankRead
  need (ptrOff p % 64 == 0) (.at .segRights (ptrSel p) (ptrOff p))
  let hd ← x.resolve (ptrSel p) (ptrOff p) .bankWrite
  let w ← x.readRaw hd
  need (fld w.pay 6 0 == 0) (.at .segRights (ptrSel p) (ptrOff p))
  let out ← ctxOut x c lvl
  let ws ← ((ls.drop 0x10).take 6).mapM (fun l => x.load l true)
  let own ← csaStores x p 0 [fixN (c + 1)]
  out.forM (fun e => x.storeDo e.1 e.2)
  own.forM (fun e => x.storeDo e.1 e.2)
  let ccx := (p &&& fmask 63 52) ||| putFld 51 51 1 ||| (p &&& fmask 47 0)
  upd (fun s => ((s.putC c lvl ws).crW c CRN.ccx ccx).crW c CRN.gds (fmask 12 11 ||| fmask 9 8))
  upd (fun s => (s.modCore c (fun k => { k with accs := [], resv := none, hold := none })).trace c 4 lvl 0 ccx)
  pure .seq
def execCtxsw (c : CoreId) (a : RegN) (s : State) : Host.Outcome State Fault Refusal :=
  .next (s.runCore c.val { sup := true, groups := regGrp a.val ||| grpC, opnds := { a := some a.val } } (ctxswBody c.val a.val))

/-- GFILL (R84). -/
def gfillBody (c g : Nat) : MM Next := do
  need (g != 2 && decide (g ≤ 4)) (.of .illegal)
  let s ← get
  if !s.absent c (8 + g) then pure .seq
  else do
    let ccx := s.crR c CRN.ccx
    need (bitAt ccx 51) (.of .illegal)
    let x := supCtx s c
    let ls ← csaLocs x ccx (csaPlace g).1 (csaPlace g).2 .bankRead
    let ws ← ls.mapM (fun l => x.load l true)
    upd (fun s => ((s.putGroup c g ws).crSetF c CRN.gds (8 + g) (8 + g) 0).crSetF c CRN.gds g g 0)
    upd (fun s => s.modCore c (fun k => { k with accs := [] }))
    pure .seq
def execGfill (c : CoreId) (k : BitVec 13) (s : State) : Host.Outcome State Fault Refusal :=
  .next (s.runCore c.val { sup := true } (gfillBody c.val k.toNat))

/-- The bank window on word k: the image's grant, BKW.EN and the range of k (R86 steps 1 and 2); the CSA it names. -/
def window (c k : Nat) : MM W64 := do
  let s ← get
  need (s.part (s.corePart c)).bankWin (.of .priv)
  let b := s.crR c CRN.bkw
  need (bitAt b 51 && decide (k ≤ 0x13F)) (.of .illegal)
  pure b

/-- LDBW (R86). -/
def ldbwBody (c d k : Nat) : MM Next := do
  let b ← window c k
  let s ← get
  let x := supCtx s c
  let l ← x.resolve (ptrSel b) (ptrOff b + k) .bankRead
  let w ← x.load l true
  wr c d w
  pure .seq
def execLdbw (c : CoreId) (d : RegN) (k : BitVec 13) (s : State) : Host.Outcome State Fault Refusal :=
  .next (s.runCore c.val { sup := true, groups := regGrp d.val, opnds := { d := some d.val } } (ldbwBody c.val d.val k.toNat))

/-- STBW (R86): never into a loaded CSA, and never its header. -/
def stbwBody (c a k : Nat) : MM Next := do
  let w ← rd c a
  let b ← window c k
  let s ← get
  let x := supCtx s c
  let l ← x.resolve (ptrSel b) (ptrOff b + k) .bankWrite
  let hd ← x.resolve (ptrSel b) (ptrOff b) .bankWrite
  let h ← x.readRaw hd
  need (fld h.pay 6 0 == 0 && k != 0) (.at .segRights l.sel l.off)
  x.store l w 1
  pure .seq
def execStbw (c : CoreId) (a : RegN) (k : BitVec 13) (s : State) : Host.Outcome State Fault Refusal :=
  .next (s.runCore c.val { sup := true, groups := regGrp a.val, opnds := { a := some a.val } } (stbwBody c.val a.val k.toNat))

/-- The views of a partition's networks keep their descriptors, and no other descriptor covers a word of one (R315). -/
def State.viewsKept (s : State) (p k : Nat) (n : Desc) : Bool :=
  (List.range 8).all (fun m => !(s.nDefined m && s.nOwner m == p) ||
    (if fld (s.ioR (Reg.MLD_NGEOM0 m)) 57 46 = k then n == s.tableDesc p k
     else
       let lo := (s.net m).viewBase
       !n.v || decide (n.base + n.limit ≤ lo) || decide (lo + 16 * (s.nFcap m + s.nTcap m) ≤ n.base)))

/-- A store of another core's micro-shadow has been checked under a selector and not yet performed: SEGSET waits for it (R78). -/
def State.storesUnder (s : State) (c p k : Nat) : Bool :=
  (List.range 64).any (fun j => j != c && s.coreOwned j && s.corePart j == p &&
    (match (s.core j).micro with | some m => m.stores.any (fun e => e.sel == k) | none => false))

/-- SEGSET (R78, R244, R315): the descriptor, and every cached copy of it in the partition's cores. -/
def segsetBody (c d a k : Nat) : MM Next := do
  let w0 ← rd c d
  let w1 ← rd c a
  rawArg w1 1
  rawArg w0 3
  let s ← get
  let p := s.corePart c
  let pt := s.part p
  let n : Desc := ⟨w0.pay, w1.pay⟩
  need (decide (k < pt.tsize)) (.of .segInvalid)
  need (!n.v || (n.wellFormed && grantsCover pt.grants (pt.grants.length + 1) n.base n.limit)) (.of .segRights)
  need (s.homeKept p k n && s.viewsKept p k n) (.of .segRights)
  if s.storesUnder c p k then throw (.wait .none) else pure ()
  upd (fun s =>
    let s := (s.coreWrite c (pt.segBase + 2 * k) false ⟨Tag.raww, n.w0⟩).coreWrite c (pt.segBase + 2 * k + 1) false ⟨Tag.raww, n.w1⟩
    (List.range 64).foldl (fun s j =>
      if s.coreOwned j && s.corePart j == p then s.modCore j (fun x => { x with dcache := x.dcache.filter (fun e => e.2.1 != k) }) else s) s)
  pure .seq
def execSegset (c : CoreId) (d a : RegN) (k : BitVec 13) (s : State) : Host.Outcome State Fault Refusal :=
  .next (s.runCore c.val { sup := true, groups := regGrps [d.val, a.val], opnds := { a := some a.val, d := some d.val } }
    (segsetBody c.val d.val a.val k.toNat))

end Sys2Proof.Machine
end

