-- ==== Sys2Proof/Machine/CacheOps.lean ====
section
/-!
DEFINITION. Cache maintenance instructions and PREF (spec 06 R165, R166, spec 09 R220–R222).
-/
namespace Sys2Proof.Machine

open Sys2Proof

/-- A by-address form: the word that k's segment register and a's offset name, with the right the form needs, then its effect. -/
def lineBody (c a k : Nat) (acc : Acc) (f : State → Nat → State) : MM Next := do
  let va ← rd c a
  let s ← get
  let l ← segLoc (s.coreCtx c) c (k % 16) va 0 acc
  upd (fun s => f s l.pa)
  pure .seq
/-- Its decode facts: the bits of k above the segment register are zero. -/
def preLine (sup : Bool) (a k : Nat) : Pre :=
  { illegal := decide (16 ≤ k), sup := sup, groups := regGrp a ||| grpS, opnds := { a := some a } }

/-- CCLEAN (R165, R220). -/
def execCclean (c : CoreId) (a : RegN) (k : BitVec 13) (s : State) : Host.Outcome State Fault Refusal :=
  .next (s.runCore c.val (preLine false a.val k.toNat) (lineBody c.val a.val k.toNat .read State.cclean))
/-- CINV (R165, R220). -/
def execCinv (c : CoreId) (a : RegN) (k : BitVec 13) (s : State) : Host.Outcome State Fault Refusal :=
  .next (s.runCore c.val (preLine true a.val k.toNat) (lineBody c.val a.val k.toNat .write State.cinv))
/-- CCINV (R165, R220). -/
def execCcinv (c : CoreId) (a : RegN) (k : BitVec 13) (s : State) : Host.Outcome State Fault Refusal :=
  .next (s.runCore c.val (preLine false a.val k.toNat) (lineBody c.val a.val k.toNat .read State.ccinv))
/-- IINV (R165, R220). -/
def execIinv (c : CoreId) (a : RegN) (k : BitVec 13) (s : State) : Host.Outcome State Fault Refusal :=
  .next (s.runCore c.val (preLine false a.val k.toNat) (lineBody c.val a.val k.toNat .exec State.iinv))

/-- PREF: a no-operation wherever a check would fault (R165). -/
def prefBody (c a k : Nat) : MM Next := fun s =>
  match (do
    let va ← rd c a
    let s ← get
    segLoc (s.coreCtx c) c (k % 16) va 0 (if k.testBit 4 then .write else .read) : MM Loc) s with
  | .ok l s' => .ok .seq (if isIo l.pa then s' else s'.prefetch c l.pa (k.testBit 4) l.desc.uncached)
  | .error _ _ => .ok .seq s
def execPref (c : CoreId) (a : RegN) (k : BitVec 13) (s : State) : Host.Outcome State Fault Refusal :=
  .next (s.runCore c.val { preLine false a.val k.toNat with illegal := decide (32 ≤ k.toNat) } (prefBody c.val a.val k.toNat))

/-! Set and way (Table 6-11). -/

/-- The cache that the operand names. -/
def swCache (c : Nat) (v : W64) : Nat :=
  match fld v 1 0 with
  | 0 => cL1I c
  | 1 => cL1D c
  | 2 => cL2 (c / 8)
  | _ => cL3 (fld v 6 2)

/-- SET, WAY and SLICE lie in the geometry of the level. -/
def swGeom (v : W64) : Bool :=
  let set := fld v 22 11
  let way := fld v 10 7
  match fld v 1 0 with
  | 0 | 1 => decide (set < 128) && decide (way < 4) && fld v 6 2 == 0
  | 2 => decide (way < 8) && fld v 6 2 == 0
  | _ => decide (set < 2048)

namespace State

/-- The dirty words of a line at a level are discarded. -/
def dropDirty (s : State) (lvl line : Nat) : State :=
  forN 8 (fun w s =>
    let pa := 8 * line + w
    if lvl = 1 then { s with l1d := Tab.set s.l1d pa none none }
    else { s with l2 := Tab.set s.l2 pa none none }) s

/-- CINVSW on a line of L1D, with its dirty data. -/
def discardL1D (s : State) (c line : Nat) : State :=
  if s.holds (cL1D c) line then ((s.dropDirty 1 line).modTag (cL1D c) line (fun _ => {})).clearResvCore c line else s
/-- CINVSW on a line of L2, with the copies above it. -/
def discardL2 (s : State) (k line : Nat) : State :=
  let s := (List.range 8).foldl (fun s j =>
    let s := s.discardL1D (8 * k + j) line
    if s.holds (cL1I (8 * k + j)) line then s.dropL1I (8 * k + j) line else s) s
  (s.dropDirty 2 line).modTag (cL2 k) line (fun _ => {})

/-- CCLEANSW, CINVSW and CCINVSW on a line at a level (R221). -/
def cleanSW (s : State) (c lvl line : Nat) : State :=
  match lvl with
  | 0 => s
  | 1 => s.cleanL1D c line
  | 2 => s.cleanL2 (c / 8) line
  | _ => s.cleanLine line
def invSW (s : State) (c lvl line : Nat) : State :=
  match lvl with
  | 0 => s.dropL1I c line
  | 1 => s.discardL1D c line
  | 2 => s.discardL2 (c / 8) line
  | _ => s.discardLine line
def cleanInvSW (s : State) (c lvl line : Nat) : State :=
  match lvl with
  | 0 => s.dropL1I c line
  | 1 => s.evictL1D c line
  | 2 => s.evictL2 (c / 8) line
  | _ => (s.cleanLine line).evictL3 line

end State

/-- A set and way form (R166): TAG, PRIV, ILLEGAL, then the effect on the line that the way holds. -/
def swBody (c a : Nat) (f : State → Nat → Nat → Nat → State) : MM Next := do
  let va ← rd c a
  need (va.tag == Tag.fix && fld va.pay 63 23 == 0) (.of .tag 1)
  let s ← get
  let v := va.pay
  let lvl := fld v 1 0
  need (lvl != 3 || s.corePart c == 0) (.of .priv)
  need (swGeom v) (.of .illegal)
  let e := s.tagAt (swCache c v) (fld v 22 11) (fld v 10 7)
  if e.valid then upd (fun s => f s c lvl e.line) else pure ()
  pure .seq
def preSW (a k : Nat) : Pre := { illegal := k != 0, sup := true, groups := regGrp a, opnds := { a := some a } }

/-- CCLEANSW (R166, R221). -/
def execCcleansw (c : CoreId) (a : RegN) (k : BitVec 13) (s : State) : Host.Outcome State Fault Refusal :=
  .next (s.runCore c.val (preSW a.val k.toNat) (swBody c.val a.val State.cleanSW))
/-- CINVSW (R166, R221). -/
def execCinvsw (c : CoreId) (a : RegN) (k : BitVec 13) (s : State) : Host.Outcome State Fault Refusal :=
  .next (s.runCore c.val (preSW a.val k.toNat) (swBody c.val a.val State.invSW))
/-- CCINVSW (R166, R221). -/
def execCcinvsw (c : CoreId) (a : RegN) (k : BitVec 13) (s : State) : Host.Outcome State Fault Refusal :=
  .next (s.runCore c.val (preSW a.val k.toNat) (swBody c.val a.val State.cleanInvSW))

end Sys2Proof.Machine
end

