-- ==== Sys2Proof/Machine/CoreEvents.lean ====
section
/-!
DEFINITION. The events of a core (spec 07 R167–R175; spec 10 R258; spec 20 R486–R489): entries of asynchronous levels, debug events, the halt request
and the handshake routine.
-/
namespace Sys2Proof.Machine

open Sys2Proof

namespace State

/-! Debug events and the halt request at CL 0 (R169, R486–R489). -/

/-- A debug event or the halt request can be taken now: CL 0, a boundary, and no enabled interrupt waits. -/
def monitorBoundary (s : State) (c : Nat) : Bool :=
  s.running c && s.cl c == 0 && s.atBoundary c 1 && !s.higherDue c 1

/-- The halt request is pending. -/
def haltDue (s : State) (c : Nat) : Bool := s.rb (Reg.DBG_DBGSTAT c) 1

/-- A debug event enters level 1 (R486): DHIT.LAST records the comparators, XOP1 is zero. -/
def debugEnter (s : State) (c : Nat) (k : Cause) (bits : Nat) (xad : W64) : State :=
  let s := s.modCore c (fun x => { x with stepAt := false })
  (s.wf (Reg.DBG_DHIT c) 7 0 bits).takeEvent c { lvl := 1, vec := k.vector, cause := k.code, xpc := {}, xad := xad }

/-- A debug event is taken, unless its entry would wait. -/
def debugEvent (s : State) (c : Nat) (k : Cause) (f : State → State) : State :=
  s.unlessWaits c { lvl := 1, vec := k.vector, cause := k.code, xpc := {} } f

/-- The latched hits that STOPRET takes (R488): they move from LATCHED into LAST. -/
def stopRetEnter (s : State) (c : Nat) (watch : Bool) (bits : Nat) : State :=
  s.debugEvent c (if watch then .watch else .brk) fun s =>
  let s := s.wf (Reg.DBG_DHIT c) 15 8 (s.rf (Reg.DBG_DHIT c) 15 8 - bits)
  (s.modCore c (fun x => { x with stopRet := none })).debugEnter c (if watch then .watch else .brk) bits 0#64

/-- BREAK_EVENT: a latched hit after RETX; else, with no other debug event waiting, the hit of the next instruction's fetch. -/
def breakEvent (s : State) (c : Nat) : State :=
  if !s.monitorBoundary c || s.haltDue c then s
  else match (s.core c).stopRet with
    | some (false, bits) => s.stopRetEnter c false bits
    | some (true, _) => s
    | none =>
      if s.debugDue c || (s.core c).wait != .none then s
      else match s.breakTest c (s.core c).ip.idx with
        | (true, s) => s.debugEvent c .brk (fun s => s.debugEnter c .brk (s.core c).breakAt 0#64)
        | (false, s) => s

/-- WATCH_EVENT: a latched hit after RETX; else the hits of the last commit, with the first hitting word in XAD. -/
def watchEvent (s : State) (c : Nat) : State :=
  if !s.monitorBoundary c || s.haltDue c then s
  else match (s.core c).stopRet with
    | some (true, bits) => s.stopRetEnter c true bits
    | some (false, _) => s
    | none => match (s.core c).watchAt with
      | none => s
      | some (sel, off, bits) =>
        s.debugEvent c .watch (fun s => (s.modCore c (fun x => { x with watchAt := none })).debugEnter c .watch bits (xadWord sel off))

/-- STEP_EVENT: single step, where no comparator hit waits. -/
def stepEvent (s : State) (c : Nat) : State :=
  if !s.monitorBoundary c || s.haltDue c || (s.core c).stopRet.isSome || (s.core c).watchAt.isSome || !(s.core c).stepAt then s
  else s.debugEvent c .step (fun s => s.debugEnter c .step 0 0#64)

/-- HALT_REQUEST_ENTRY: the entry clears HREQ. -/
def haltEntry (s : State) (c : Nat) : State :=
  if !s.monitorBoundary c || !s.haltDue c then s
  else
    let e : Event := { lvl := 1, vec := 0x41, cause := 0x41, xpc := {} }
    s.unlessWaits c e (fun s => (s.wf (Reg.DBG_DBGSTAT c) 1 1 0).takeEvent c e)

/-! The handshake routine (R258). -/

/-- One spill of the trim: the action of HSPILL with its checks (R65). -/
def trimSpill (c : Nat) : MM Unit := do
  let s ← get
  need (decide (2 < s.handN c)) (.of .illegal)
  let x : Ctx := { s.coreCtx c with sup := true, peek := false }
  let l ← spillLocs x c (fun k => Tab.get (s.core c).hands k Word.void)
  spillDo x c l
  upd (fun s => s.dirty c grpC)

/-- Step 1: spills while N exceeds PHCUR; a spill that would fault ends the trimming. -/
def trimHands (s : State) (h c : Nat) : Nat → State
  | 0 => s
  | k + 1 =>
    if s.absent c 9 || s.handN c ≤ s.rf (Reg.SWP_HCFG h) 11 8 then s
    else match (trimSpill c).run s with
      | (.ok _, s) => s.trimHands h c k
      | (.error _, s) => s

/-- HANDSHAKE: at a boundary of a running core that Sweep has requested it from, in Idle-only mode while it waits (R272); in Throughput mode the last microword of H3 waits for the end of
EVAC (Table 10-5). -/
def handshake (s : State) (c : Nat) : State :=
  match s.sweep.heap, (s.core c).hshake with
  | some h, some k =>
    if !s.running c || !s.atBoundary c 1 || (s.heapMode h == 2 && (s.core c).wait == .none) then s
    else
      let s := (s.trimHands h c 16).handshakeScan h c k
      let s := s.modSweep (fun x => { x with waiting := x.waiting.erase c })
      s.modCore c (fun x => { x with hshake := none, accs := [], evacHold := k == .h3 && s.heapMode h == 0 })
  | _, _ => s

end State

/-! The meanings. -/

/-- LEVEL_EVENT_ENTRY (R174). -/
def execLevelEventEntry (c : CoreId) (lvl : Fin 8) (s : State) : Host.Outcome State Fault Refusal :=
  .next (s.levelEvent c lvl)

/-- SNAP_ENTRY (R175). -/
def execSnapEntry (c : CoreId) (s : State) : Host.Outcome State Fault Refusal :=
  .next (s.levelEvent c 6)

/-- BREAK_EVENT (R486). -/
def execBreakEvent (c : CoreId) (s : State) : Host.Outcome State Fault Refusal :=
  .next (s.breakEvent c)

/-- WATCH_EVENT (R486). -/
def execWatchEvent (c : CoreId) (s : State) : Host.Outcome State Fault Refusal :=
  .next (s.watchEvent c)

/-- STEP_EVENT (R486). -/
def execStepEvent (c : CoreId) (s : State) : Host.Outcome State Fault Refusal :=
  .next (s.stepEvent c)

/-- HALT_REQUEST_ENTRY (R489). -/
def execHaltRequestEntry (c : CoreId) (s : State) : Host.Outcome State Fault Refusal :=
  .next (s.haltEntry c)

/-- DBGCTL_HALT (R489): a write of DBGCTL that sets HALT and leaves the other fields. -/
def execDbgctlHalt (r : Req) (c : CoreId) (s : State) : Host.Outcome State Fault Refusal :=
  whenUp s (fun s => s.ioWrite r (Reg.DBG_DBGCTL c) (s.ioR (Reg.DBG_DBGCTL c) ||| 2#64))

/-- HANDSHAKE (R258). -/
def execHandshake (c : CoreId) (s : State) : Host.Outcome State Fault Refusal :=
  whenUp s (fun s => s.handshake c)

end Sys2Proof.Machine
end

