-- ==== Sys2Proof/Machine/RegEvents.lean ====
section
/-!
DEFINITION. Register accesses (spec 01 R23–R25), the descriptor cache, and the INTC commands (spec 07 R179–R182).
-/
namespace Sys2Proof.Machine

open Sys2Proof

namespace State

/-- A register read that a command makes: the payload goes to the model's field `lastRead`. -/
def readAt (s : State) (r : Req) (pa : Nat) (peek : Bool) : State :=
  let (v, s) := s.ioRead r pa peek
  { s with lastRead := v }

end State

/-- REGISTER_WRITE (R24). -/
def execRegisterWrite (r : Req) (pa : BitVec 40) (v : W64) (s : State) : Host.Outcome State Fault Refusal :=
  whenUp s (fun s => s.ioWrite r pa.toNat v)

/-- RDAT_READ (R492). -/
def execRdatRead (r : Req) (c : CoreId) (s : State) : Host.Outcome State Fault Refusal :=
  whenUp s (fun s => s.readAt r (Reg.DBG_RDAT c) false)

/-- DCINV_WRITE (R80). -/
def execDcinvWrite (r : Req) (c : CoreId) (v : W64) (s : State) : Host.Outcome State Fault Refusal :=
  whenUp s (fun s => s.ioWrite r (Reg.CORE_DCINV c) v)

/-- RAISE_WRITE (R179). -/
def execRaiseWrite (r : Req) (v : W64) (s : State) : Host.Outcome State Fault Refusal :=
  whenUp s (fun s => s.ioWrite r Reg.INTC_RAISE v)

/-- CLAIM_READ (R181). -/
def execClaimRead (r : Req) (c : CoreId) (lvl : Fin 8) (peek : Bool) (s : State) : Host.Outcome State Fault Refusal :=
  whenUp s (fun s => s.readAt r (Reg.INTC_CLAIM (8 * c.val + lvl.val)) peek)

/-- EOI_WRITE (R182). -/
def execEoiWrite (r : Req) (c : CoreId) (v : W64) (s : State) : Host.Outcome State Fault Refusal :=
  whenUp s (fun s => s.ioWrite r (Reg.INTC_EOI c) v)

/-- INTC_SOURCE_ASSERT (R182). -/
def execIntcSourceAssert (src : SrcId) (s : State) : Host.Outcome State Fault Refusal :=
  whenUp s (fun s => s.sourceAssert src)

/-- INTC_OFFER (R181). -/
def execIntcOffer (src : SrcId) (s : State) : Host.Outcome State Fault Refusal :=
  whenUp s (fun s => s.offerSource src)

end Sys2Proof.Machine
end

