-- ==== Sys2Proof/Machine/MemEvents.lean ====
section
/-!
DEFINITION. Events of caches, memory controllers and control stores (spec 08 R207; spec 09; spec 16 R427).
-/
namespace Sys2Proof.Machine

open Sys2Proof

/-- A write that clears one enable bit and leaves the rest of its register. -/
def clearEnable (s : State) (r : Req) : CacheEn → State
  | .l1i c => let a := Reg.L2C_L1CTL (c.val / 8) (c.val % 8); s.ioWrite r a (s.ioR a &&& 2#64)
  | .l1d c => let a := Reg.L2C_L1CTL (c.val / 8) (c.val % 8); s.ioWrite r a (s.ioR a &&& 1#64)
  | .l2 k => let a := Reg.L2C_L2CTL k; s.ioWrite r a (setFld (s.ioR a) 0 0 0)

/-- LINE_FILL (R215). -/
def execLineFill (i : Nat) (s : State) : Host.Outcome State Fault Refusal :=
  whenUp s (fun s => s.lineFill i)

/-- WRITEBACK_ACK (R219). -/
def execWritebackAck (i : Nat) (s : State) : Host.Outcome State Fault Refusal :=
  whenUp s (fun s => s.writebackAck i)

/-- CACHE_DISABLE (R223). -/
def execCacheDisable (r : Req) (k : CacheEn) (s : State) : Host.Outcome State Fault Refusal :=
  whenUp s (fun s => clearEnable s r k)

/-- SCRATCHPAD_REQUEST (R226): a write of an L2CTL. -/
def execScratchpadRequest (r : Req) (pa : BitVec 40) (v : W64) (s : State) : Host.Outcome State Fault Refusal :=
  whenUp s (fun s => s.ioWrite r pa.toNat v)

/-- WAY_POWER_REQUEST (R229): a write of an L2CTL or an L3CTL. -/
def execWayPowerRequest (r : Req) (pa : BitVec 40) (v : W64) (s : State) : Host.Outcome State Fault Refusal :=
  whenUp s (fun s => s.ioWrite r pa.toNat v)

/-- WMASK_WRITE (R228). -/
def execWmaskWrite (r : Req) (slice : Fin 32) (k : Fin 5) (v : W64) (s : State) : Host.Outcome State Fault Refusal :=
  whenUp s (fun s => s.ioWrite r (Reg.L3C_WMASK slice k) v)

/-- MODE_TRANSITION_COMPLETE (R19). -/
def execModeTransitionComplete (m : ModeSel) (s : State) : Host.Outcome State Fault Refusal :=
  whenUp s (fun s => s.modeComplete m)

/-- CACHE_ARRAY_SCRUB (R235). -/
def execCacheArrayScrub (arr : ArrayId) (f : ArrayFinding) (s : State) : Host.Outcome State Fault Refusal :=
  whenUp s (fun s => s.arrayScrub arr f)

/-- PATROL_SCRUB (R240). -/
def execPatrolScrub (ch : Fin 4) (s : State) : Host.Outcome State Fault Refusal :=
  whenUp s (fun s => s.patrolScrub ch)

/-- MINJ_WRITE (R241). -/
def execMinjWrite (r : Req) (ch : Fin 4) (v : W64) (s : State) : Host.Outcome State Fault Refusal :=
  whenUp s (fun s => s.ioWrite r (Reg.MEMC_MINJ ch) v)

/-- MICROWORD_SCRUB (R207). -/
def execMicrowordScrub (cl : Fin 8) (f : MicroFinding) (s : State) : Host.Outcome State Fault Refusal :=
  whenUp s (fun s => s.microScrub cl f)

/-- DRAM_BACKGROUND_INIT (R427). -/
def execDramBackgroundInit (ch : Fin 4) (s : State) : Host.Outcome State Fault Refusal :=
  whenUp s (fun s => s.dramInit ch)

end Sys2Proof.Machine
end

