-- ==== Sys2Proof/Machine/SweepEvents.lean ====
section
/-!
DEFINITION. The commands and events of Sweep (spec 10).
-/
namespace Sys2Proof.Machine

open Sys2Proof

/-- SWEEP_CYCLE_START (R252). -/
def execSweepCycleStart (s : State) : Host.Outcome State Fault Refusal :=
  whenUp s (fun s => s.sweepStart)

/-- HCMD_START (R252). -/
def execHcmdStart (r : Req) (h : Fin 16) (v : W64) (s : State) : Host.Outcome State Fault Refusal :=
  whenUp s (fun s => s.ioWrite r (Reg.SWP_HCMD h) v)

/-- SWEEP_PHASE_END (R253). -/
def execSweepPhaseEnd (s : State) : Host.Outcome State Fault Refusal :=
  whenUp s (fun s => s.sweepPhaseEnd)

/-- MARK_TRACE (R254). -/
def execMarkTrace (s : State) : Host.Outcome State Fault Refusal :=
  whenUp s (fun s => s.markTrace)

/-- SNAPSHOT_DRAIN (R255). -/
def execSnapshotDrain (buf : Fin 80) (s : State) : Host.Outcome State Fault Refusal :=
  whenUp s (fun s => s.snapshotDrain buf)

/-- MEND_ROUND (R257). -/
def execMendRound (s : State) : Host.Outcome State Fault Refusal :=
  whenUp s (fun s => s.mendRound)

/-- REF_PHASE (R260). -/
def execRefPhase (s : State) : Host.Outcome State Fault Refusal :=
  whenUp s (fun s => s.refPhase)

/-- OBJECT_COPY (R262). -/
def execObjectCopy (s : State) : Host.Outcome State Fault Refusal :=
  whenUp s (fun s => s.objectCopy)

/-- REMAP_SCAN (R266). -/
def execRemapScan (s : State) : Host.Outcome State Fault Refusal :=
  whenUp s (fun s => s.remapScan)

/-- PACER_THRESHOLD (R273). -/
def execPacerThreshold (c : CoreId) (ns : Nat) (s : State) : Host.Outcome State Fault Refusal :=
  whenUp s (fun s => s.pacerThreshold c ns)

/-- FINREG_WRITE (R268). -/
def execFinregWrite (r : Req) (h : Fin 16) (v : W64) (s : State) : Host.Outcome State Fault Refusal :=
  whenUp s (fun s => s.ioWrite r (Reg.SWP_FINREG h) v)

/-- AREA_REFILL_WRITE (R249). -/
def execAreaRefillWrite (r : Req) (c : CoreId) (v : W64) (s : State) : Host.Outcome State Fault Refusal :=
  whenUp s (fun s => s.ioWrite r (Reg.SWP_AREA c) v)

/-- AREA_HEAP_WRITE (R279). -/
def execAreaHeapWrite (r : Req) (c : CoreId) (v : W64) (s : State) : Host.Outcome State Fault Refusal :=
  whenUp s (fun s => s.ioWrite r (Reg.SWP_AREA c) v)

/-- SWEEP_MODE_REQUEST (R274). -/
def execSweepModeRequest (r : Req) (h : Fin 16) (v : W64) (s : State) : Host.Outcome State Fault Refusal :=
  whenUp s (fun s => s.ioWrite r (Reg.SWP_HCFG h) v)

end Sys2Proof.Machine
end

