-- ==== Sys2Proof/Machine/DealerEvents.lean ====
section
/-!
DEFINITION. The events of the Dealer and the timer wheel (spec 11 R289–R295).
-/
namespace Sys2Proof.Machine

open Sys2Proof

/-- TIMER_TICK (R295). -/
def execTimerTick (s : State) : Host.Outcome State Fault Refusal :=
  whenUp s (fun s => s.timerTick)

/-- TIMER_FIRE (R295). -/
def execTimerFire (s : State) : Host.Outcome State Fault Refusal :=
  whenUp s (fun s => s.timerFire)

/-- ASH_EXPIRY (R289). -/
def execAshExpiry (s : State) : Host.Outcome State Fault Refusal :=
  whenUp s (fun s => s.ashExpiry)

/-- PRESET_QUEUE_RECREATE (R294). -/
def execPresetQueueRecreate (p : PartId) (s : State) : Host.Outcome State Fault Refusal :=
  whenUp s (fun s => s.recreatePresets p)

end Sys2Proof.Machine
end

