-- ==== Sys2Proof/Machine/CorgilEvents.lean ====
section
/-!
DEFINITION. The events of Corgil ports and of the messages that Corgil itself handles (spec 13; grants by spec 14 R374–R377).
-/
namespace Sys2Proof.Machine

open Sys2Proof

/-- DATA_FRAME_RECEIVE (R345). -/
def execDataFrameReceive (p : Fin 4) (crcOk : Bool) (seq : BitVec 12) (ack : BitVec 12) (msgs : List CMsg) (s : State) : Host.Outcome State Fault Refusal :=
  whenUp s (fun s => s.dataFrame p crcOk seq.toNat ack.toNat msgs)

/-- NAK_FRAME (R345). -/
def execNakFrame (p : Fin 4) (ack : BitVec 12) (s : State) : Host.Outcome State Fault Refusal :=
  whenUp s (fun s => s.nakFrame p ack.toNat)

/-- ACK_FRAME (R345). -/
def execAckFrame (p : Fin 4) (ack : BitVec 12) (s : State) : Host.Outcome State Fault Refusal :=
  whenUp s (fun s => s.ackFrame p ack.toNat)

/-- IDLE_FRAME (R363). -/
def execIdleFrame (p : Fin 4) (ack : BitVec 12) (s : State) : Host.Outcome State Fault Refusal :=
  whenUp s (fun s => s.ackFrame p ack.toNat)

/-- HEARTBEAT_SEND (R363). -/
def execHeartbeatSend (p : Fin 4) (s : State) : Host.Outcome State Fault Refusal :=
  whenUp s (fun s => s.heartbeat p)

/-- REPLAY_TIMEOUT (R345). -/
def execReplayTimeout (p : Fin 4) (s : State) : Host.Outcome State Fault Refusal :=
  whenUp s (fun s => s.replayTimeout p)

/-- PARTNER_DETECT (R342). -/
def execPartnerDetect (p : Fin 4) (s : State) : Host.Outcome State Fault Refusal :=
  whenUp s (fun s => s.partnerDetect p)

/-- TRAINING_END (R343). -/
def execTrainingEnd (p : Fin 4) (t : TrainRes) (s : State) : Host.Outcome State Fault Refusal :=
  whenUp s (fun s => s.trainingEnd p t)

/-- LINK_LOSS (R364). -/
def execLinkLoss (p : Fin 4) (s : State) : Host.Outcome State Fault Refusal :=
  whenUp s (fun s => s.linkLoss p)

/-- LANE_WAKE (R344). -/
def execLaneWake (p : Fin 4) (s : State) : Host.Outcome State Fault Refusal :=
  whenUp s (fun s => s.laneWake p)

/-- LANE_SLEEP (R344). -/
def execLaneSleep (p : Fin 4) (s : State) : Host.Outcome State Fault Refusal :=
  whenUp s (fun s => s.laneSleep p)

/-- PCFG_MODE_WRITE (R342). -/
def execPcfgModeWrite (r : Req) (p : Fin 4) (v : W64) (s : State) : Host.Outcome State Fault Refusal :=
  whenUp s (fun s => s.ioWrite r (Reg.CGLP_PCFG p) v)

/-- RESIDENCE_LIMIT (R351). -/
def execResidenceLimit (p : Fin 4) (s : State) : Host.Outcome State Fault Refusal :=
  whenUp s (fun s => s.residenceLimit p)

/-- TIME_MESSAGE (R362). -/
def execTimeMessage (s : State) : Host.Outcome State Fault Refusal :=
  whenUp s (fun s => s.timeMessage)

/-- TIME_SEND (R362). -/
def execTimeSend (s : State) : Host.Outcome State Fault Refusal :=
  whenUp s (fun s => s.timeSend)

/-- TIME_LOSS (R362). -/
def execTimeLoss (s : State) : Host.Outcome State Fault Refusal :=
  whenUp s (fun s => s.timeLoss)

/-- BGRANT (R365). -/
def execBgrant (s : State) : Host.Outcome State Fault Refusal :=
  whenUp s (fun s => s.bgrant)

/-- BREQ (R376). -/
def execBreq (s : State) : Host.Outcome State Fault Refusal :=
  whenUp s (fun s => s.breqReceive)

/-- BREQ_SEND (R375). -/
def execBreqSend (s : State) : Host.Outcome State Fault Refusal :=
  whenUp s (fun s => s.breqSend)

/-- GRANT_PASS (R376). -/
def execGrantPass (s : State) : Host.Outcome State Fault Refusal :=
  whenUp s (fun s => s.grantPass)

/-- GRANT_SEQ_RESTART (R377). -/
def execGrantSeqRestart (s : State) : Host.Outcome State Fault Refusal :=
  whenUp s (fun s => s.grantSeqRestart)

/-- GRANT_EXPIRY (R374). -/
def execGrantExpiry (s : State) : Host.Outcome State Fault Refusal :=
  whenUp s (fun s => s.grantExpiry)

/-- RTENT_WRITE (R348). -/
def execRtentWrite (r : Req) (v : W64) (s : State) : Host.Outcome State Fault Refusal :=
  whenUp s (fun s => s.ioWrite r Reg.CGL_RTENT v)

/-- RETRAIN_END (R342). -/
def execRetrainEnd (p : Fin 4) (ok : Bool) (s : State) : Host.Outcome State Fault Refusal :=
  whenUp s (fun s => s.retrainEnd p ok)

end Sys2Proof.Machine
end

