-- ==== Sys2Proof/Machine/FieldEvents.lean ====
section
/-!
DEFINITION. The events of the Stoker and of field I/O (spec 14).
-/
namespace Sys2Proof.Machine

open Sys2Proof

/-- ZERO_CROSS_EDGE (R369). -/
def execZeroCrossEdge (ph : Fin 3) (ns : W64) (rising : Bool) (s : State) : Host.Outcome State Fault Refusal :=
  whenUp s (fun s => s.zeroCross ph ns.toNat rising)

/-- ZC_LOCK_LOSS (R369). -/
def execZcLockLoss (ph : Fin 3) (s : State) : Host.Outcome State Fault Refusal :=
  whenUp s (fun s => s.zcTimeout ph)

/-- ZCCFG_WRITE (R369). -/
def execZccfgWrite (r : Req) (ph : Fin 3) (v : W64) (s : State) : Host.Outcome State Fault Refusal :=
  whenUp s (fun s => s.ioWrite r (Reg.STK_ZCCFG ph) v)

/-- HALF_CYCLE_PLAN (R372). -/
def execHalfCyclePlan (ph : Fin 3) (s : State) : Host.Outcome State Fault Refusal :=
  whenUp s (fun s => s.halfCyclePlan ph)

/-- OUTPUT_SWITCH (R370). -/
def execOutputSwitch (ph : Fin 3) (s : State) : Host.Outcome State Fault Refusal :=
  whenUp s (fun s => s.outputSwitch ph)

/-- DEM_WRITE (R371). -/
def execDemWrite (r : Req) (ch : Fin 256) (v : W64) (s : State) : Host.Outcome State Fault Refusal :=
  whenUp s (fun s => s.ioWrite r (Reg.STK_DEM ch) v)

/-- STOKER_SCTL_WRITE (R370). -/
def execStokerSctlWrite (r : Req) (v : W64) (s : State) : Host.Outcome State Fault Refusal :=
  whenUp s (fun s => s.ioWrite r Reg.STK_SCTL v)

/-- GCTL_ARM (R379). -/
def execGctlArm (r : Req) (g : Fin 8) (key : BitVec 16) (s : State) : Host.Outcome State Fault Refusal :=
  whenUp s (fun s => s.ioWrite r (Reg.STK_GCTL g) (putFld 63 48 key.toNat ||| 1#64))

/-- GCTL_DISARM (R380). -/
def execGctlDisarm (r : Req) (g : Fin 8) (s : State) : Host.Outcome State Fault Refusal :=
  whenUp s (fun s => s.ioWrite r (Reg.STK_GCTL g) 2#64)

/-- READBACK_SAMPLE (R381). -/
def execReadbackSample (ho : BitVec 256) (hen : BitVec 8) (s : State) : Host.Outcome State Fault Refusal :=
  whenUp s (fun s => s.readbackSample ho hen)

/-- PWM_PERIOD_START (R382). -/
def execPwmPeriodStart (k : Fin 32) (s : State) : Host.Outcome State Fault Refusal :=
  whenUp s (fun s => s.pwmPeriod k)

/-- PWM_WRITE (R382). -/
def execPwmWrite (r : Req) (k : Fin 32) (duty : Bool) (v : W64) (s : State) : Host.Outcome State Fault Refusal :=
  whenUp s (fun s => s.ioWrite r (if duty then Reg.PWM_PWDUTY k else Reg.PWM_PWPER k) v)

/-- ENCODER_TRANSITION (R383). -/
def execEncoderTransition (e : Fin 8) (a : Bool) (b : Bool) (s : State) : Host.Outcome State Fault Refusal :=
  whenUp s (fun s => s.encStep e a b)

/-- ENCODER_INDEX (R383). -/
def execEncoderIndex (e : Fin 8) (s : State) : Host.Outcome State Fault Refusal :=
  whenUp s (fun s => s.encIndex e)

/-- HKA_CONVERSION (R391). -/
def execHkaConversion (k : Fin 16) (code : BitVec 12) (s : State) : Host.Outcome State Fault Refusal :=
  whenUp s (fun s => s.hkaConversion k code.toNat)

end Sys2Proof.Machine
end

