-- ==== Sys2Proof/Machine/PeriphEvents.lean ====
section
/-!
DEFINITION. The commands and events of the peripheral interfaces (spec 15).
-/
namespace Sys2Proof.Machine

open Sys2Proof

namespace State

/-- USB attach, configuration or cable removal (Table 15-6): LINK is up while the device is configured. A removed cable empties the buffers,
and LINK 0 ends a session that the recovery service carries (R478). -/
def usbLink (s : State) (vbus config hs : Bool) : State :=
  let up := vbus && config && (s.perEn .usb || s.inRecovery)
  let was := s.perLink .usb
  let s := s.ioW Reg.USB_USBSTAT (putFld 2 2 vbus.toNat ||| putFld 1 1 (vbus && config).toNat ||| putFld 0 0 (vbus && hs).toNat)
  let s := s.setLink .usb up
  let s := if vbus then s else s.modPer .usb (fun x => { x with tx := [], frames := [], rx := [] })
  if was && !up && s.inRecovery then s.closeSession else s

end State

/-- PCTL_SRST (R401). -/
def execPctlSrst (r : Req) (p : PerId) (v : W64) (s : State) : Host.Outcome State Fault Refusal :=
  whenUp s (fun s => s.ioWrite r (Reg.PER_PCTL (perBase p)) v)

/-- DATA_WRITE (R398): n + 1 octets, through DATA for eight and DATAn for fewer. -/
def execDataWrite (r : Req) (p : PerId) (n : Fin 8) (v : W64) (s : State) : Host.Outcome State Fault Refusal :=
  whenUp s (fun s => if n.val = 7 then s.ioWrite r (Reg.PER_DATA (perBase p)) v else s.ioWrite r (Reg.PER_DATAn (perBase p) n) v)

/-- DATA_READ (R398). -/
def execDataRead (r : Req) (p : PerId) (peek : Bool) (s : State) : Host.Outcome State Fault Refusal :=
  whenUp s (fun s => s.readAt r (Reg.PER_DATA (perBase p)) peek)

/-- EOF_WRITE (R398). -/
def execEofWrite (r : Req) (p : PerId) (s : State) : Host.Outcome State Fault Refusal :=
  whenUp s (fun s => s.ioWrite r (Reg.PER_EOF (perBase p)) 0#64)

/-- FRAME_RECEIVE (R399). -/
def execFrameReceive (p : PerId) (f : FrameIn) (s : State) : Host.Outcome State Fault Refusal :=
  whenUp s (fun s => s.frameReceive p f)

/-- FRAME_TRANSMIT (R402). -/
def execFrameTransmit (p : PerId) (fail : Bool) (s : State) : Host.Outcome State Fault Refusal :=
  whenUp s (fun s => s.frameTransmit p fail)

/-- OCTET_RECEIVE (R400). -/
def execOctetReceive (p : PerId) (x : Octet) (ok : Bool) (s : State) : Host.Outcome State Fault Refusal :=
  whenUp s (fun s => s.octetReceive p x ok)

/-- OCTET_TRANSMIT (R400). -/
def execOctetTransmit (p : PerId) (s : State) : Host.Outcome State Fault Refusal :=
  whenUp s (fun s => s.octetTransmit p)

/-- GCL_SWAP (R402). -/
def execGclSwap (r : Req) (e : Fin 4) (v : W64) (s : State) : Host.Outcome State Fault Refusal :=
  whenUp s (fun s => s.ioWrite r (Reg.ETH_GCLCTL e) v)

/-- GCL_ACTIVATE (R402). -/
def execGclActivate (e : Fin 4) (s : State) : Host.Outcome State Fault Refusal :=
  whenUp s (fun s => s.gclActivate e)

/-- PTP_TIME_EVENT (R402). -/
def execPtpTimeEvent (e : Fin 4) (s : State) : Host.Outcome State Fault Refusal :=
  whenUp s (fun s => s.ptpEvent e)

/-- PTPSTEP_WRITE (R402). -/
def execPtpstepWrite (r : Req) (e : Fin 4) (v : W64) (s : State) : Host.Outcome State Fault Refusal :=
  whenUp s (fun s => s.ioWrite r (Reg.ETH_PTPSTEP e) v)

/-- CAN_BUS_OFF_RECOVERY (R397). -/
def execCanBusOffRecovery (i : Fin 4) (s : State) : Host.Outcome State Fault Refusal :=
  whenUp s (fun s => s.canRecover i)

/-- USB_LINK_CHANGE (R401). -/
def execUsbLinkChange (vbus : Bool) (config : Bool) (hs : Bool) (s : State) : Host.Outcome State Fault Refusal :=
  whenUp s (fun s => s.usbLink vbus config hs)

/-- ETH_LINK_CHANGE (R397). -/
def execEthLinkChange (e : Fin 4) (up : Bool) (rate : BitVec 12) (s : State) : Host.Outcome State Fault Refusal :=
  whenUp s (fun s => s.ethLink e up rate.toNat)

/-- I2C_TRANSACTION (R397). -/
def execI2cTransaction (r : Req) (i : Fin 4) (v : W64) (res : BusRes) (s : State) : Host.Outcome State Fault Refusal :=
  whenUp s (fun s => (s.ioWrite r (Reg.I2C_I2CCMD i) v).i2cEnd i res)

/-- PMBUS_TRANSACTION (R403). -/
def execPmbusTransaction (r : Req) (v : W64) (res : BusRes) (s : State) : Host.Outcome State Fault Refusal :=
  whenUp s (fun s => (s.ioWrite r Reg.PMB_PMBCMD v).pmbEnd res)

/-- XSPI_TRANSFER (R397). -/
def execXspiTransfer (r : Req) (v : W64) (res : BusRes) (s : State) : Host.Outcome State Fault Refusal :=
  whenUp s (fun s => (s.ioWrite r Reg.XSPI_XLEN v).xspiEnd res)

/-- GPSET_WRITE (R404). -/
def execGpsetWrite (r : Req) (w : Fin 3) (v : W64) (s : State) : Host.Outcome State Fault Refusal :=
  whenUp s (fun s => s.ioWrite r (Reg.GPIO_GPSET w) v)

/-- GPCLR_WRITE (R404). -/
def execGpclrWrite (r : Req) (w : Fin 3) (v : W64) (s : State) : Host.Outcome State Fault Refusal :=
  whenUp s (fun s => s.ioWrite r (Reg.GPIO_GPCLR w) v)

end Sys2Proof.Machine
end

