-- ==== Sys2Proof/Machine/PowerEvents.lean ====
section
/-!
DEFINITION. The commands and events of Hearth: supplies, domains, clocks, resets, low-power states and boot (spec 16, spec 17).
-/
namespace Sys2Proof.Machine

open Sys2Proof

/-- SUPPLY_WARN (R410). -/
def execSupplyWarn (m : Fin 10) (s : State) : Host.Outcome State Fault Refusal :=
  .next (s.supplyWarn m)

/-- SUPPLY_RECOVERED (R410). -/
def execSupplyRecovered (s : State) : Host.Outcome State Fault Refusal :=
  .next s.supplyRecovered

/-- SUPPLY_TRIP (R410). -/
def execSupplyTrip (m : Fin 10) (s : State) : Host.Outcome State Fault Refusal :=
  .next (s.supplyTrip m)

/-- DREEN_ALL (R412). -/
def execDreenAll (r : Req) (v : W64) (s : State) : Host.Outcome State Fault Refusal :=
  whenUp s (fun s => s.ioWrite r Reg.DMPR_DREEN v)

/-- DCORE_WRITE (R414). -/
def execDcoreWrite (r : Req) (v : W64) (s : State) : Host.Outcome State Fault Refusal :=
  whenUp s (fun s => s.ioWrite r Reg.DMPR_DCORE v)

/-- DOMAIN_POWER_UP (R413). -/
def execDomainPowerUp (d : Fin 273) (wcsOk : Bool) (s : State) : Host.Outcome State Fault Refusal :=
  whenUp s (fun s => s.domainUp d wcsOk)

/-- OPP_WRITE (R416). -/
def execOppWrite (r : Req) (v : W64) (s : State) : Host.Outcome State Fault Refusal :=
  whenUp s (fun s => s.ioWrite r Reg.CLK_OPP v)

/-- OPP_TRANSITION (R416). -/
def execOppTransition (s : State) : Host.Outcome State Fault Refusal :=
  whenUp s (fun s => s.oppDone)

/-- THERMAL_READING (R417). -/
def execThermalReading (tj : BitVec 14) (s : State) : Host.Outcome State Fault Refusal :=
  whenUp s (fun s => s.thermalReading tj.toNat)

/-- THERMAL_RESET (R417). -/
def execThermalReset (s : State) : Host.Outcome State Fault Refusal :=
  .next s.thermalReset

/-- THERMAL_COLD_RELEASE (R417). -/
def execThermalColdRelease (s : State) : Host.Outcome State Fault Refusal :=
  .next s.thermalRelease

/-- HPWR_EMBER (R418). -/
def execHpwrEmber (r : Req) (v : W64) (s : State) : Host.Outcome State Fault Refusal :=
  whenUp s (fun s => s.ioWrite r Reg.HRTH_HPWR v)

/-- EMBER_ENTRY (R419). -/
def execEmberEntry (s : State) : Host.Outcome State Fault Refusal :=
  whenUp s (fun s => s.emberEntry)

/-- HPWR_COLD (R420). -/
def execHpwrCold (r : Req) (v : W64) (s : State) : Host.Outcome State Fault Refusal :=
  whenUp s (fun s => s.ioWrite r Reg.HRTH_HPWR v)

/-- COLD_ENTRY (R420). -/
def execColdEntry (s : State) : Host.Outcome State Fault Refusal :=
  whenUp s (fun s => s.coldEntry)

/-- WAKE_SOURCE (R421). -/
def execWakeSource (src : Fin 11) (s : State) : Host.Outcome State Fault Refusal :=
  .next (s.wakeSource src)

/-- VIO_RETURN (R421). -/
def execVioReturn (s : State) : Host.Outcome State Fault Refusal :=
  .next s.vioReturn

/-- EMBER_EXIT (R422). -/
def execEmberExit (ticks : BitVec 64) (digestOk : Bool) (s : State) : Host.Outcome State Fault Refusal :=
  .next (s.emberExit ticks.toNat digestOk)

/-- RTC_CALIBRATION (R422). -/
def execRtcCalibration (s : State) : Host.Outcome State Fault Refusal :=
  whenUp s (fun s => s.rtcSecond)

/-- VHEARTH_LOSS (R406). -/
def execVhearthLoss (s : State) : Host.Outcome State Fault Refusal :=
  .next s.vhearthLoss

/-- POWER_ON_RESET (R425). -/
def execPowerOnReset (s : State) : Host.Outcome State Fault Refusal :=
  .next s.powerOn

/-- RESET_N_PIN (R423). -/
def execResetNPin (s : State) : Host.Outcome State Fault Refusal :=
  .next s.resetPin

/-- RESET_N_RELEASE (R423). -/
def execResetNRelease (s : State) : Host.Outcome State Fault Refusal :=
  .next s.resetRelease

/-- CHIP_RESET (R423). -/
def execChipReset (cause : BitVec 8) (s : State) : Host.Outcome State Fault Refusal :=
  .next (s.chipReset cause.toNat)

/-- HRESET_CHIP (R424). -/
def execHresetChip (r : Req) (v : W64) (s : State) : Host.Outcome State Fault Refusal :=
  whenUp s (fun s => s.ioWrite r Reg.HRTH_HRESET v)

/-- HRESET_PARTITION (R424). -/
def execHresetPartition (r : Req) (v : W64) (s : State) : Host.Outcome State Fault Refusal :=
  whenUp s (fun s => s.ioWrite r Reg.HRTH_HRESET v)

/-- PARTITION_RESET (R424). -/
def execPartitionReset (p : PartId) (s : State) : Host.Outcome State Fault Refusal :=
  whenUp s (fun s => s.partitionReset p)

/-- PARTITION_RELEASE (R424). -/
def execPartitionRelease (p : PartId) (s : State) : Host.Outcome State Fault Refusal :=
  whenUp s (fun s => s.partitionRelease p)

/-- COLD_BOOT (R425). -/
def execColdBoot (a : SlotRead) (b : SlotRead) (trained : Bool) (s : State) : Host.Outcome State Fault Refusal :=
  .next (s.coldBoot a b trained)

end Sys2Proof.Machine
end

