-- ==== Sys2Proof/Machine/SafetyEvents.lean ====
section
/-!
DEFINITION. The commands and events of the safety monitor (spec 18).
-/
namespace Sys2Proof.Machine

open Sys2Proof

/-- FAULT_INPUT_LATCH (R458). -/
def execFaultInputLatch (k : Fin 256) (s : State) : Host.Outcome State Fault Refusal :=
  whenUp s (fun s => s.faultLatch k)

/-- LOCKSTEP_MISMATCH (R455). -/
def execLockstepMismatch (pair : Fin 32) (what : Fin 4) (index : BitVec 24) (s : State) : Host.Outcome State Fault Refusal :=
  whenUp s (fun s => s.lockstepMismatch pair what index.toNat)

/-- COMPARATOR_SELF_TEST (R456). -/
def execComparatorSelfTest (cl : Fin 8) (ok : Bool) (s : State) : Host.Outcome State Fault Refusal :=
  whenUp s (fun s => s.selfTest cl ok)

/-- RC_CHECK (R457). -/
def execRcCheck (ok : Bool) (s : State) : Host.Outcome State Fault Refusal :=
  whenUp s (fun s => s.rcCheck ok)

/-- PLL_LOCK_LOSS (R457). -/
def execPllLockLoss (k : Fin 4) (s : State) : Host.Outcome State Fault Refusal :=
  whenUp s (fun s => s.pllLoss k)

/-- FCFG_WRITE (R459). -/
def execFcfgWrite (r : Req) (k : Fin 256) (v : W64) (s : State) : Host.Outcome State Fault Refusal :=
  whenUp s (fun s => s.ioWrite r (Reg.SAFE_FCFG k) v)

/-- FPEND_CLEAR (R460). -/
def execFpendClear (r : Req) (w : Fin 4) (v : W64) (s : State) : Host.Outcome State Fault Refusal :=
  whenUp s (fun s => s.ioWrite r (Reg.SAFE_FPEND w) v)

/-- SWFLT_WRITE (R463). -/
def execSwfltWrite (r : Req) (v : W64) (s : State) : Host.Outcome State Fault Refusal :=
  whenUp s (fun s => s.ioWrite r Reg.SAFE_SWFLT v)

/-- SWDCFG_WRITE (R464). -/
def execSwdcfgWrite (r : Req) (v : W64) (s : State) : Host.Outcome State Fault Refusal :=
  whenUp s (fun s => s.ioWrite r Reg.SAFE_SWDCFG v)

/-- SWDKICK (R464). -/
def execSwdkick (r : Req) (v : W64) (s : State) : Host.Outcome State Fault Refusal :=
  whenUp s (fun s => s.ioWrite r Reg.SAFE_SWDKICK v)

/-- SAFETY_WATCHDOG_EXPIRY (R464). -/
def execSafetyWatchdogExpiry (s : State) : Host.Outcome State Fault Refusal :=
  whenUp s (fun s => s.swdExpiry)

/-- TWKICK (R467). -/
def execTwkick (r : Req) (p : PartId) (s : State) : Host.Outcome State Fault Refusal :=
  whenUp s (fun s => s.ioWrite r (Reg.SAFE_TWKICK p) 0#64)

/-- TASK_WATCHDOG_EXPIRY (R467). -/
def execTaskWatchdogExpiry (p : PartId) (s : State) : Host.Outcome State Fault Refusal :=
  whenUp s (fun s => s.twExpiry p)

end Sys2Proof.Machine
end

