-- ==== Sys2Proof/Machine/SecurityEvents.lean ====
section
/-!
DEFINITION. The commands and events of the security block (spec 19) and of tuning and the anti-rollback thermometers (spec 17 R445–R450).
-/
namespace Sys2Proof.Machine

open Sys2Proof

/-- SESSION_HELLO (R475). -/
def execSessionHello (carried : List Octet) (s : State) : Host.Outcome State Fault Refusal :=
  whenUp s (fun s => s.hello 0 carried)

/-- SESSION_PASSWORD_HELLO (R476). -/
def execSessionPasswordHello (carried : List Octet) (s : State) : Host.Outcome State Fault Refusal :=
  whenUp s (fun s => s.hello 1 carried)

/-- SESSION_RESPONSE (R475). -/
def execSessionResponse (carried : List Octet) (s : State) : Host.Outcome State Fault Refusal :=
  whenUp s (fun s => s.roleResponse carried)

/-- SESSION_PASSWORD_RESPONSE (R476). -/
def execSessionPasswordResponse (carried : List Octet) (s : State) : Host.Outcome State Fault Refusal :=
  whenUp s (fun s => s.pwdResponse carried)

/-- SESSION_CLOSE_FRAME (R478). -/
def execSessionCloseFrame (carried : List Octet) (s : State) : Host.Outcome State Fault Refusal :=
  whenUp s (fun s => s.closeFrame carried)

/-- SESSION_TIMEOUT (R478). -/
def execSessionTimeout (s : State) : Host.Outcome State Fault Refusal :=
  whenUp s (fun s => s.sessTimeout)

/-- SCTL_CLOSE (R478). -/
def execSctlClose (r : Req) (v : W64) (s : State) : Host.Outcome State Fault Refusal :=
  whenUp s (fun s => s.ioWrite r Reg.SEC_SCTL v)

/-- SIN_WRITE (R474). -/
def execSinWrite (r : Req) (v : W64) (s : State) : Host.Outcome State Fault Refusal :=
  whenUp s (fun s => s.ioWrite r Reg.SEC_SIN v)

/-- SOUT_READ (R474). -/
def execSoutRead (r : Req) (s : State) : Host.Outcome State Fault Refusal :=
  whenUp s (fun s => s.readAt r Reg.SEC_SOUT false)

/-- CMD_STATUS (R479). -/
def execCmdStatus (carried : List Octet) (s : State) : Host.Outcome State Fault Refusal :=
  whenUp s (fun s => s.cmdStatus carried)

/-- CMD_READLOG (R479). -/
def execCmdReadlog (carried : List Octet) (s : State) : Host.Outcome State Fault Refusal :=
  whenUp s (fun s => s.cmdReadlog carried)

/-- CMD_TUNE (R447). -/
def execCmdTune (carried : List Octet) (s : State) : Host.Outcome State Fault Refusal :=
  whenUp s (fun s => s.cmdTune carried)

/-- TUNING_APPLY (R448). -/
def execTuningApply (s : State) : Host.Outcome State Fault Refusal :=
  whenUp s (fun s => s.tuneStep)

/-- CMD_VERIFY (R479). -/
def execCmdVerify (carried : List Octet) (s : State) : Host.Outcome State Fault Refusal :=
  whenUp s (fun s => s.cmdVerify s.preNetCode carried)

/-- CMD_PRESET (R479). -/
def execCmdPreset (carried : List Octet) (s : State) : Host.Outcome State Fault Refusal :=
  whenUp s (fun s => s.cmdPreset carried)

/-- CMD_FLASH (R479). -/
def execCmdFlash (carried : List Octet) (s : State) : Host.Outcome State Fault Refusal :=
  whenUp s (fun s => s.cmdFlash s.preNetCode carried)

/-- CMD_SETPWD (R479). -/
def execCmdSetpwd (carried : List Octet) (s : State) : Host.Outcome State Fault Refusal :=
  whenUp s (fun s => s.cmdSetpwd carried)

/-- CMD_UNLOCK (R479). -/
def execCmdUnlock (carried : List Octet) (s : State) : Host.Outcome State Fault Refusal :=
  whenUp s (fun s => s.cmdUnlock carried)

/-- CMD_OTPWRITE (R480). -/
def execCmdOtpwrite (carried : List Octet) (s : State) : Host.Outcome State Fault Refusal :=
  whenUp s (fun s => s.cmdOtpwrite carried)

/-- CMD_REVOKE (R480). -/
def execCmdRevoke (carried : List Octet) (s : State) : Host.Outcome State Fault Refusal :=
  whenUp s (fun s => s.cmdRevoke carried)

/-- CMD_PROVLOCK (R479). -/
def execCmdProvlock (carried : List Octet) (s : State) : Host.Outcome State Fault Refusal :=
  whenUp s (fun s => s.cmdProvlock carried)

/-- CMD_DEBUG (R479). -/
def execCmdDebug (carried : List Octet) (s : State) : Host.Outcome State Fault Refusal :=
  whenUp s (fun s => s.cmdDebug carried)

/-- CMD_JTAGOFF (R479). -/
def execCmdJtagoff (carried : List Octet) (s : State) : Host.Outcome State Fault Refusal :=
  whenUp s (fun s => s.cmdJtagoff carried)

/-- CMD_PROVISION (R481). -/
def execCmdProvision (carried : List Octet) (s : State) : Host.Outcome State Fault Refusal :=
  whenUp s (fun s => s.cmdProvision carried)

/-- ANTI_ROLLBACK_ADVANCE (R445). -/
def execAntiRollbackAdvance (s : State) : Host.Outcome State Fault Refusal :=
  whenUp s (fun s => s.rollbackAdvance)

end Sys2Proof.Machine
end

