-- ==== Sys2Proof/Machine/DebugEvents.lean ====
section
/-!
DEFINITION. The JTAG port (spec 20 R493, R494) and the trace commands (R495).
-/
namespace Sys2Proof.Machine

open Sys2Proof

namespace State

/-! The DBGACC access (R494). -/

/-- STATUS of an access: 0 OK, 2 REFUSED, 3 ERROR. -/
def jtagDone (s : State) (st : Nat) (w : Word) : State := s.modHs (fun h => { h with dbgSt := st, dbgWord := w })

/-- The address lies in a region of Table 1-6 that is no hole. -/
def inRegion (pa : Nat) : Bool :=
  isDram pa || (decide (0xF000000000 ≤ pa) && decide (pa < 0xF000800000)) || isLog pa || isIo pa

/-- The access is REFUSED. -/
def jtagRefused (s : State) (pa : Nat) : Bool :=
  let lock := s.slocked
  (match findBlk pa with
   | some (.bSEC, _, _) => true
   | some (.bSAFE, _, _) => lock
   | _ => false) ||
  (lock && (List.range 16).any (fun p => (s.part p).safety && (s.part p).grants.any (fun g => decide (g.1 ≤ pa) && decide (pa < g.1 + g.2)))) ||
  !inRegion pa

/-- An ERROR answers no word: what the next capture shows beside STATUS is a free value. -/
def jtagError (s : State) : State :=
  let (n, s) := s.nextFree
  s.jtagDone 3 ⟨BitVec.ofNat 8 (Config.freeNat n), Config.freeW64 n⟩

/-- The access of a DBGACC data register (R494), with the supervisor rights of partition 0. In memory it takes neither barrier and writes a word
of any tag (DESIGN CHOICE: notes/assumptions/65.md). -/
def jtagAccess (s : State) (op pa : Nat) (w : Word) : State :=
  if op = 0 then s
  else if s.jtagRefused pa then s.jtagDone 2 s.hs.dbgWord
  else if isIo pa then
    if (findBlk pa).isNone then s.jtagError
    else if op = 2 then
      (if w.tag == Tag.fix || w.tag == Tag.raww then (s.ioWrite .jtag pa w.pay).jtagDone 0 s.hs.dbgWord else s.jtagError)
    else
      let (v, s) := s.ioRead .jtag pa (op == 3)
      s.jtagDone 0 (fixW v)
  else if !s.implemented pa then s.jtagError
  else if op = 2 then (if Ctx.ring pa then s else s.engWrite 5 pa w).jtagDone 0 s.hs.dbgWord
  else
    let (v, bad, s) := s.engRead 5 pa
    if bad then s.jtagError else s.jtagDone 0 v

/-- JTAG_DBGACC: without rights the instruction acts as BYPASS and captures REFUSED (R493). -/
def jtagDbgacc (s : State) (acc : BitVec 116) : State :=
  let n := acc.toNat
  if !s.jtagRights then s.modHs (fun h => { h with jtag := .bypass, dbgSt := 2 })
  else (s.modHs (fun h => { h with jtag := .dbgacc })).jtagAccess (n % 4) (n / 4 % 2 ^ 40)
    ⟨BitVec.ofNat 8 (n / 2 ^ 42), BitVec.ofNat 64 (n / 2 ^ 50)⟩

end State

/-- JTAG_EXTEST (R493). -/
def execJtagExtest (s : State) : Host.Outcome State Fault Refusal :=
  .next (if s.powered then s.jtagHold .extest else s)

/-- JTAG_SAMPLE_PRELOAD (R493). -/
def execJtagSamplePreload (cells : List (Nat × Bool)) (s : State) : Host.Outcome State Fault Refusal :=
  .next (if s.powered then s.jtagSample cells else s)

/-- JTAG_CLAMP (R493). -/
def execJtagClamp (s : State) : Host.Outcome State Fault Refusal :=
  .next (if s.powered then s.jtagHold .clamp else s)

/-- JTAG_HIGHZ (R493). -/
def execJtagHighz (s : State) : Host.Outcome State Fault Refusal :=
  .next (if s.powered then s.jtagHold .highz else s)

/-- JTAG_DBGACC (R494). -/
def execJtagDbgacc (acc : BitVec 116) (s : State) : Host.Outcome State Fault Refusal :=
  .next (if s.powered then s.jtagDbgacc acc else s)

/-- JTAG_DBGRST (R493). -/
def execJtagDbgrst (s : State) : Host.Outcome State Fault Refusal :=
  .next (if s.powered then s.jtagRst else s)

/-- JTAG_BYPASS (R493). -/
def execJtagBypass (s : State) : Host.Outcome State Fault Refusal :=
  .next (if s.powered then s.jtagBypass else s)

/-- TRCCTL_WRITE (R495). -/
def execTrcctlWrite (r : Req) (v : W64) (s : State) : Host.Outcome State Fault Refusal :=
  whenUp s (fun s => s.ioWrite r Reg.TRC_TRCCTL v)

/-- TRCMARK_WRITE (R495). -/
def execTrcmarkWrite (r : Req) (v : W64) (s : State) : Host.Outcome State Fault Refusal :=
  whenUp s (fun s => s.ioWrite r Reg.TRC_TRCMARK v)

end Sys2Proof.Machine
end

