-- ==== Sys2Proof/Machine/Dispatch.lean ====
section
/-!
DEFINITION. One arm per command: each calls its meaning.
-/
namespace Sys2Proof.Machine

open Sys2Proof

def exec (i : Instr) (s : State) : Host.Outcome State Fault Refusal :=
  match i with
  | .add c d a b => Sys2Proof.Machine.execAdd c d a b s
  | .sub c d a b => Sys2Proof.Machine.execSub c d a b s
  | .mul c d a b => Sys2Proof.Machine.execMul c d a b s
  | .div c d a b => Sys2Proof.Machine.execDiv c d a b s
  | .quo c d a b => Sys2Proof.Machine.execQuo c d a b s
  | .mod c d a b => Sys2Proof.Machine.execMod c d a b s
  | .neg c d a => Sys2Proof.Machine.execNeg c d a s
  | .abs c d a => Sys2Proof.Machine.execAbs c d a s
  | .cmp c d a b => Sys2Proof.Machine.execCmp c d a b s
  | .lt c d a b => Sys2Proof.Machine.execLt c d a b s
  | .le c d a b => Sys2Proof.Machine.execLe c d a b s
  | .numeq c d a b => Sys2Proof.Machine.execNumeq c d a b s
  | .eq c d a b => Sys2Proof.Machine.execEq c d a b s
  | .eqi c d a imm => Sys2Proof.Machine.execEqi c d a imm s
  | .min c d a b => Sys2Proof.Machine.execMin c d a b s
  | .max c d a b => Sys2Proof.Machine.execMax c d a b s
  | .addi c d a imm => Sys2Proof.Machine.execAddi c d a imm s
  | .subi c d a imm => Sys2Proof.Machine.execSubi c d a imm s
  | .muli c d a imm => Sys2Proof.Machine.execMuli c d a imm s
  | .cmpi c d a imm => Sys2Proof.Machine.execCmpi c d a imm s
  | .lti c d a imm => Sys2Proof.Machine.execLti c d a imm s
  | .lei c d a imm => Sys2Proof.Machine.execLei c d a imm s
  | .addw c d a b => Sys2Proof.Machine.execAddw c d a b s
  | .subw c d a b => Sys2Proof.Machine.execSubw c d a b s
  | .mulw c d a b => Sys2Proof.Machine.execMulw c d a b s
  | .divw c d a b => Sys2Proof.Machine.execDivw c d a b s
  | .modw c d a b => Sys2Proof.Machine.execModw c d a b s
  | .negw c d a => Sys2Proof.Machine.execNegw c d a s
  | .andw c d a b => Sys2Proof.Machine.execAndw c d a b s
  | .orw c d a b => Sys2Proof.Machine.execOrw c d a b s
  | .xorw c d a b => Sys2Proof.Machine.execXorw c d a b s
  | .notw c d a => Sys2Proof.Machine.execNotw c d a s
  | .shlw c d a b => Sys2Proof.Machine.execShlw c d a b s
  | .shrw c d a b => Sys2Proof.Machine.execShrw c d a b s
  | .sarw c d a b => Sys2Proof.Machine.execSarw c d a b s
  | .rolw c d a b => Sys2Proof.Machine.execRolw c d a b s
  | .clzw c d a => Sys2Proof.Machine.execClzw c d a s
  | .popw c d a => Sys2Proof.Machine.execPopw c d a s
  | .ashl c d a b => Sys2Proof.Machine.execAshl c d a b s
  | .ashr c d a b => Sys2Proof.Machine.execAshr c d a b s
  | .addwi c d a imm => Sys2Proof.Machine.execAddwi c d a imm s
  | .andwi c d a imm => Sys2Proof.Machine.execAndwi c d a imm s
  | .orwi c d a imm => Sys2Proof.Machine.execOrwi c d a imm s
  | .xorwi c d a imm => Sys2Proof.Machine.execXorwi c d a imm s
  | .shlwi c d a imm => Sys2Proof.Machine.execShlwi c d a imm s
  | .shrwi c d a imm => Sys2Proof.Machine.execShrwi c d a imm s
  | .sarwi c d a imm => Sys2Proof.Machine.execSarwi c d a imm s
  | .fixflo c d a => Sys2Proof.Machine.execFixflo c d a s
  | .flofix c d a => Sys2Proof.Machine.execFlofix c d a s
  | .qtymk c d a b => Sys2Proof.Machine.execQtymk c d a b s
  | .qtyval c d a => Sys2Proof.Machine.execQtyval c d a s
  | .qtydim c d a => Sys2Proof.Machine.execQtydim c d a s
  | .fsqrt c d a => Sys2Proof.Machine.execFsqrt c d a s
  | .fma c d a b => Sys2Proof.Machine.execFma c d a b s
  | .mov c d a => Sys2Proof.Machine.execMov c d a s
  | .tagof c d a => Sys2Proof.Machine.execTagof c d a s
  | .tagset c d a b => Sys2Proof.Machine.execTagset c d a b s
  | .rawof c d a => Sys2Proof.Machine.execRawof c d a s
  | .notI c d a => Sys2Proof.Machine.execNotI c d a s
  | .null c d a => Sys2Proof.Machine.execNull c d a s
  | .tagp c d a x => Sys2Proof.Machine.execTagp c d a x s
  | .movi c d imm => Sys2Proof.Machine.execMovi c d imm s
  | .immi c d imm => Sys2Proof.Machine.execImmi c d imm s
  | .chri c d imm => Sys2Proof.Machine.execChri c d imm s
  | .ldk c d imm => Sys2Proof.Machine.execLdk c d imm s
  | .pairWord c opA opB => Sys2Proof.Machine.execPairWord c opA opB s
  | .car c d a => Sys2Proof.Machine.execCar c d a s
  | .cdr c d a => Sys2Proof.Machine.execCdr c d a s
  | .cons c d a b => Sys2Proof.Machine.execCons c d a b s
  | .setcar c d a => Sys2Proof.Machine.execSetcar c d a s
  | .setcdr c d a => Sys2Proof.Machine.execSetcdr c d a s
  | .len c d a b => Sys2Proof.Machine.execLen c d a b s
  | .nthcdr c d a b => Sys2Proof.Machine.execNthcdr c d a b s
  | .memq c d a b => Sys2Proof.Machine.execMemq c d a b s
  | .assq c d a b => Sys2Proof.Machine.execAssq c d a b s
  | .last c d a => Sys2Proof.Machine.execLast c d a s
  | .revx c d a => Sys2Proof.Machine.execRevx c d a s
  | .walkStep c => Sys2Proof.Machine.execWalkStep c s
  | .lds c d a sg imm => Sys2Proof.Machine.execLds c d a sg imm s
  | .sts c d a sg imm => Sys2Proof.Machine.execSts c d a sg imm s
  | .ldp c d a imm => Sys2Proof.Machine.execLdp c d a imm s
  | .stp c d a imm => Sys2Proof.Machine.execStp c d a imm s
  | .lde c d a b => Sys2Proof.Machine.execLde c d a b s
  | .ste c d a b => Sys2Proof.Machine.execSte c d a b s
  | .ldb c d a b => Sys2Proof.Machine.execLdb c d a b s
  | .stb c d a b => Sys2Proof.Machine.execStb c d a b s
  | .movs c d a sgs sgd => Sys2Proof.Machine.execMovs c d a sgs sgd s
  | .movsb c d a sgs sgd => Sys2Proof.Machine.execMovsb c d a sgs sgd s
  | .adds c d a sg imm => Sys2Proof.Machine.execAdds c d a sg imm s
  | .maxs c d a sg imm => Sys2Proof.Machine.execMaxs c d a sg imm s
  | .mins c d a sg imm => Sys2Proof.Machine.execMins c d a sg imm s
  | .devrd c d a b => Sys2Proof.Machine.execDevrd c d a b s
  | .devwr c d a b => Sys2Proof.Machine.execDevwr c d a b s
  | .alloc c d a b => Sys2Proof.Machine.execAlloc c d a b s
  | .allocb c d a => Sys2Proof.Machine.execAllocb c d a s
  | .close c d a b => Sys2Proof.Machine.execClose c d a b s
  | .sizeof c d a => Sys2Proof.Machine.execSizeof c d a s
  | .reserve c d a b x => Sys2Proof.Machine.execReserve c d a b x s
  | .commit c d a b x => Sys2Proof.Machine.execCommit c d a b x s
  | .cas2 c d a b x => Sys2Proof.Machine.execCas2 c d a b x s
  | .swap c d a b x => Sys2Proof.Machine.execSwap c d a b x s
  | .fadd c d a b x => Sys2Proof.Machine.execFadd c d a b x s
  | .qpush c d a => Sys2Proof.Machine.execQpush c d a s
  | .qpop c d a => Sys2Proof.Machine.execQpop c d a s
  | .qwait c d a => Sys2Proof.Machine.execQwait c d a s
  | .qwaitItemCommit c => Sys2Proof.Machine.execQwaitItemCommit c s
  | .qtry c d a => Sys2Proof.Machine.execQtry c d a s
  | .qnew c d a b => Sys2Proof.Machine.execQnew c d a b s
  | .qfree c a => Sys2Proof.Machine.execQfree c a s
  | .qdeal c d a b => Sys2Proof.Machine.execQdeal c d a b s
  | .tsetArm c d a b => Sys2Proof.Machine.execTsetArm c d a b s
  | .tsetCancel c d a b => Sys2Proof.Machine.execTsetCancel c d a b s
  | .rld c d a b => Sys2Proof.Machine.execRld c d a b s
  | .rst c d a b => Sys2Proof.Machine.execRst c d a b s
  | .rpush c d a b => Sys2Proof.Machine.execRpush c d a b s
  | .exportI c d a => Sys2Proof.Machine.execExportI c d a s
  | .unexport c a => Sys2Proof.Machine.execUnexport c a s
  | .bt c a disp => Sys2Proof.Machine.execBt c a disp s
  | .bf c a disp => Sys2Proof.Machine.execBf c a disp s
  | .bnil c a disp => Sys2Proof.Machine.execBnil c a disp s
  | .bnnil c a disp => Sys2Proof.Machine.execBnnil c a disp s
  | .bzw c a disp => Sys2Proof.Machine.execBzw c a disp s
  | .bnzw c a disp => Sys2Proof.Machine.execBnzw c a disp s
  | .jmp c disp => Sys2Proof.Machine.execJmp c disp s
  | .call c a n => Sys2Proof.Machine.execCall c a n s
  | .tcall c a n => Sys2Proof.Machine.execTcall c a n s
  | .ret c => Sys2Proof.Machine.execRet c s
  | .repI c src => Sys2Proof.Machine.execRepI c src s
  | .repN c src => Sys2Proof.Machine.execRepN c src s
  | .repeatIteration c => Sys2Proof.Machine.execRepeatIteration c s
  | .customInstruction c slot d a b x => Sys2Proof.Machine.execCustomInstruction c slot d a b x s
  | .microCommit c => Sys2Proof.Machine.execMicroCommit c s
  | .microRestartPoint c => Sys2Proof.Machine.execMicroRestartPoint c s
  | .trap c k => Sys2Proof.Machine.execTrap c k s
  | .retx c => Sys2Proof.Machine.execRetx c s
  | .rdcr c d k => Sys2Proof.Machine.execRdcr c d k s
  | .wrcr c a k => Sys2Proof.Machine.execWrcr c a k s
  | .waitI c => Sys2Proof.Machine.execWaitI c s
  | .fence c k => Sys2Proof.Machine.execFence c k s
  | .hspill c => Sys2Proof.Machine.execHspill c s
  | .hfill c => Sys2Proof.Machine.execHfill c s
  | .ctxsw c a => Sys2Proof.Machine.execCtxsw c a s
  | .gfill c k => Sys2Proof.Machine.execGfill c k s
  | .ldbw c d k => Sys2Proof.Machine.execLdbw c d k s
  | .stbw c a k => Sys2Proof.Machine.execStbw c a k s
  | .segset c d a k => Sys2Proof.Machine.execSegset c d a k s
  | .cclean c a k => Sys2Proof.Machine.execCclean c a k s
  | .cinv c a k => Sys2Proof.Machine.execCinv c a k s
  | .ccinv c a k => Sys2Proof.Machine.execCcinv c a k s
  | .iinv c a k => Sys2Proof.Machine.execIinv c a k s
  | .pref c a k => Sys2Proof.Machine.execPref c a k s
  | .ccleansw c a k => Sys2Proof.Machine.execCcleansw c a k s
  | .cinvsw c a k => Sys2Proof.Machine.execCinvsw c a k s
  | .ccinvsw c a k => Sys2Proof.Machine.execCcinvsw c a k s
  | .levelEventEntry c lvl => Sys2Proof.Machine.execLevelEventEntry c lvl s
  | .snapEntry c => Sys2Proof.Machine.execSnapEntry c s
  | .breakEvent c => Sys2Proof.Machine.execBreakEvent c s
  | .watchEvent c => Sys2Proof.Machine.execWatchEvent c s
  | .stepEvent c => Sys2Proof.Machine.execStepEvent c s
  | .haltRequestEntry c => Sys2Proof.Machine.execHaltRequestEntry c s
  | .dbgctlHalt r c => Sys2Proof.Machine.execDbgctlHalt r c s
  | .rdatRead r c => Sys2Proof.Machine.execRdatRead r c s
  | .registerWrite r pa v => Sys2Proof.Machine.execRegisterWrite r pa v s
  | .dcinvWrite r c v => Sys2Proof.Machine.execDcinvWrite r c v s
  | .raiseWrite r v => Sys2Proof.Machine.execRaiseWrite r v s
  | .claimRead r c lvl peek => Sys2Proof.Machine.execClaimRead r c lvl peek s
  | .eoiWrite r c v => Sys2Proof.Machine.execEoiWrite r c v s
  | .intcSourceAssert src => Sys2Proof.Machine.execIntcSourceAssert src s
  | .intcOffer src => Sys2Proof.Machine.execIntcOffer src s
  | .lineFill n => Sys2Proof.Machine.execLineFill n s
  | .writebackAck n => Sys2Proof.Machine.execWritebackAck n s
  | .cacheDisable r k => Sys2Proof.Machine.execCacheDisable r k s
  | .scratchpadRequest r pa v => Sys2Proof.Machine.execScratchpadRequest r pa v s
  | .wayPowerRequest r pa v => Sys2Proof.Machine.execWayPowerRequest r pa v s
  | .wmaskWrite r slice k v => Sys2Proof.Machine.execWmaskWrite r slice k v s
  | .modeTransitionComplete m => Sys2Proof.Machine.execModeTransitionComplete m s
  | .cacheArrayScrub arr f => Sys2Proof.Machine.execCacheArrayScrub arr f s
  | .patrolScrub ch => Sys2Proof.Machine.execPatrolScrub ch s
  | .minjWrite r ch v => Sys2Proof.Machine.execMinjWrite r ch v s
  | .microwordScrub cl f => Sys2Proof.Machine.execMicrowordScrub cl f s
  | .dramBackgroundInit ch => Sys2Proof.Machine.execDramBackgroundInit ch s
  | .sweepCycleStart => Sys2Proof.Machine.execSweepCycleStart s
  | .hcmdStart r h v => Sys2Proof.Machine.execHcmdStart r h v s
  | .sweepPhaseEnd => Sys2Proof.Machine.execSweepPhaseEnd s
  | .handshake c => Sys2Proof.Machine.execHandshake c s
  | .markTrace => Sys2Proof.Machine.execMarkTrace s
  | .snapshotDrain buf => Sys2Proof.Machine.execSnapshotDrain buf s
  | .mendRound => Sys2Proof.Machine.execMendRound s
  | .refPhase => Sys2Proof.Machine.execRefPhase s
  | .objectCopy => Sys2Proof.Machine.execObjectCopy s
  | .remapScan => Sys2Proof.Machine.execRemapScan s
  | .pacerThreshold c ns => Sys2Proof.Machine.execPacerThreshold c ns s
  | .finregWrite r h v => Sys2Proof.Machine.execFinregWrite r h v s
  | .areaRefillWrite r c v => Sys2Proof.Machine.execAreaRefillWrite r c v s
  | .areaHeapWrite r c v => Sys2Proof.Machine.execAreaHeapWrite r c v s
  | .sweepModeRequest r h v => Sys2Proof.Machine.execSweepModeRequest r h v s
  | .timerTick => Sys2Proof.Machine.execTimerTick s
  | .timerFire => Sys2Proof.Machine.execTimerFire s
  | .ashExpiry => Sys2Proof.Machine.execAshExpiry s
  | .presetQueueRecreate p => Sys2Proof.Machine.execPresetQueueRecreate p s
  | .ccmdStart r ch => Sys2Proof.Machine.execCcmdStart r ch s
  | .ccmdStop r ch => Sys2Proof.Machine.execCcmdStop r ch s
  | .ccmdClear r ch => Sys2Proof.Machine.execCcmdClear r ch s
  | .dmaDescriptorStart ch => Sys2Proof.Machine.execDmaDescriptorStart ch s
  | .dmaWordTransfer ch => Sys2Proof.Machine.execDmaWordTransfer ch s
  | .dmaByteTransfer ch => Sys2Proof.Machine.execDmaByteTransfer ch s
  | .dmaFillTransfer ch => Sys2Proof.Machine.execDmaFillTransfer ch s
  | .dmaBlockBoundary e => Sys2Proof.Machine.execDmaBlockBoundary e s
  | .dmaRecordPush ch => Sys2Proof.Machine.execDmaRecordPush ch s
  | .cqwaitRetry ch => Sys2Proof.Machine.execCqwaitRetry ch s
  | .meldAssert n => Sys2Proof.Machine.execMeldAssert n s
  | .meldRetract n => Sys2Proof.Machine.execMeldRetract n s
  | .meldModify1 n => Sys2Proof.Machine.execMeldModify1 n s
  | .meldModifyv n => Sys2Proof.Machine.execMeldModifyv n s
  | .meldPushRetry n => Sys2Proof.Machine.execMeldPushRetry n s
  | .ncmdLoad r n => Sys2Proof.Machine.execNcmdLoad r n s
  | .meldLoadComplete n => Sys2Proof.Machine.execMeldLoadComplete n s
  | .ncmdUnload r n => Sys2Proof.Machine.execNcmdUnload r n s
  | .meldUnloadComplete n => Sys2Proof.Machine.execMeldUnloadComplete n s
  | .ncmdPause r n => Sys2Proof.Machine.execNcmdPause r n s
  | .ncmdResume r n => Sys2Proof.Machine.execNcmdResume r n s
  | .ncmdPreload r n => Sys2Proof.Machine.execNcmdPreload r n s
  | .ncmdClear r n => Sys2Proof.Machine.execNcmdClear r n s
  | .mlanesWrite r v => Sys2Proof.Machine.execMlanesWrite r v s
  | .dataFrameReceive p crcOk seq ack msgs => Sys2Proof.Machine.execDataFrameReceive p crcOk seq ack msgs s
  | .nakFrame p ack => Sys2Proof.Machine.execNakFrame p ack s
  | .ackFrame p ack => Sys2Proof.Machine.execAckFrame p ack s
  | .idleFrame p ack => Sys2Proof.Machine.execIdleFrame p ack s
  | .heartbeatSend p => Sys2Proof.Machine.execHeartbeatSend p s
  | .replayTimeout p => Sys2Proof.Machine.execReplayTimeout p s
  | .partnerDetect p => Sys2Proof.Machine.execPartnerDetect p s
  | .trainingEnd p t => Sys2Proof.Machine.execTrainingEnd p t s
  | .linkLoss p => Sys2Proof.Machine.execLinkLoss p s
  | .laneWake p => Sys2Proof.Machine.execLaneWake p s
  | .laneSleep p => Sys2Proof.Machine.execLaneSleep p s
  | .pcfgModeWrite r p v => Sys2Proof.Machine.execPcfgModeWrite r p v s
  | .residenceLimit p => Sys2Proof.Machine.execResidenceLimit p s
  | .rd => Sys2Proof.Machine.execRd s
  | .wr => Sys2Proof.Machine.execWr s
  | .push => Sys2Proof.Machine.execPush s
  | .rdack => Sys2Proof.Machine.execRdack s
  | .wrack => Sys2Proof.Machine.execWrack s
  | .pushack => Sys2Proof.Machine.execPushack s
  | .nak => Sys2Proof.Machine.execNak s
  | .refinc => Sys2Proof.Machine.execRefinc s
  | .refdec => Sys2Proof.Machine.execRefdec s
  | .refack => Sys2Proof.Machine.execRefack s
  | .transactionTimeout t => Sys2Proof.Machine.execTransactionTimeout t s
  | .rpushResend t => Sys2Proof.Machine.execRpushResend t s
  | .rpushGiveUp t => Sys2Proof.Machine.execRpushGiveUp t s
  | .pushFilterExpiry => Sys2Proof.Machine.execPushFilterExpiry s
  | .importRelease => Sys2Proof.Machine.execImportRelease s
  | .timeMessage => Sys2Proof.Machine.execTimeMessage s
  | .timeSend => Sys2Proof.Machine.execTimeSend s
  | .timeLoss => Sys2Proof.Machine.execTimeLoss s
  | .bgrant => Sys2Proof.Machine.execBgrant s
  | .breq => Sys2Proof.Machine.execBreq s
  | .breqSend => Sys2Proof.Machine.execBreqSend s
  | .grantPass => Sys2Proof.Machine.execGrantPass s
  | .grantSeqRestart => Sys2Proof.Machine.execGrantSeqRestart s
  | .grantExpiry => Sys2Proof.Machine.execGrantExpiry s
  | .rtentWrite r v => Sys2Proof.Machine.execRtentWrite r v s
  | .zeroCrossEdge ph ns rising => Sys2Proof.Machine.execZeroCrossEdge ph ns rising s
  | .zcLockLoss ph => Sys2Proof.Machine.execZcLockLoss ph s
  | .zccfgWrite r ph v => Sys2Proof.Machine.execZccfgWrite r ph v s
  | .halfCyclePlan ph => Sys2Proof.Machine.execHalfCyclePlan ph s
  | .outputSwitch ph => Sys2Proof.Machine.execOutputSwitch ph s
  | .demWrite r ch v => Sys2Proof.Machine.execDemWrite r ch v s
  | .stokerSctlWrite r v => Sys2Proof.Machine.execStokerSctlWrite r v s
  | .gctlArm r g key => Sys2Proof.Machine.execGctlArm r g key s
  | .gctlDisarm r g => Sys2Proof.Machine.execGctlDisarm r g s
  | .readbackSample ho hen => Sys2Proof.Machine.execReadbackSample ho hen s
  | .pwmPeriodStart k => Sys2Proof.Machine.execPwmPeriodStart k s
  | .pwmWrite r k duty v => Sys2Proof.Machine.execPwmWrite r k duty v s
  | .encoderTransition e a b => Sys2Proof.Machine.execEncoderTransition e a b s
  | .encoderIndex e => Sys2Proof.Machine.execEncoderIndex e s
  | .senseChannelDue ch => Sys2Proof.Machine.execSenseChannelDue ch s
  | .senseFrameStart port => Sys2Proof.Machine.execSenseFrameStart port s
  | .senseFrameEnd port reply => Sys2Proof.Machine.execSenseFrameEnd port reply s
  | .senseFaultClear r ch => Sys2Proof.Machine.execSenseFaultClear r ch s
  | .cringWrite r ch v => Sys2Proof.Machine.execCringWrite r ch v s
  | .hkaConversion k code => Sys2Proof.Machine.execHkaConversion k code s
  | .pctlSrst r p v => Sys2Proof.Machine.execPctlSrst r p v s
  | .dataWrite r p n v => Sys2Proof.Machine.execDataWrite r p n v s
  | .dataRead r p peek => Sys2Proof.Machine.execDataRead r p peek s
  | .eofWrite r p => Sys2Proof.Machine.execEofWrite r p s
  | .frameReceive p f => Sys2Proof.Machine.execFrameReceive p f s
  | .frameTransmit p fail => Sys2Proof.Machine.execFrameTransmit p fail s
  | .octetReceive p x ok => Sys2Proof.Machine.execOctetReceive p x ok s
  | .gclSwap r e v => Sys2Proof.Machine.execGclSwap r e v s
  | .gclActivate e => Sys2Proof.Machine.execGclActivate e s
  | .ptpTimeEvent e => Sys2Proof.Machine.execPtpTimeEvent e s
  | .ptpstepWrite r e v => Sys2Proof.Machine.execPtpstepWrite r e v s
  | .canBusOffRecovery n => Sys2Proof.Machine.execCanBusOffRecovery n s
  | .usbLinkChange vbus config hs => Sys2Proof.Machine.execUsbLinkChange vbus config hs s
  | .i2cTransaction r n v res => Sys2Proof.Machine.execI2cTransaction r n v res s
  | .pmbusTransaction r v res => Sys2Proof.Machine.execPmbusTransaction r v res s
  | .xspiTransfer r v res => Sys2Proof.Machine.execXspiTransfer r v res s
  | .gpsetWrite r w v => Sys2Proof.Machine.execGpsetWrite r w v s
  | .gpclrWrite r w v => Sys2Proof.Machine.execGpclrWrite r w v s
  | .supplyWarn m => Sys2Proof.Machine.execSupplyWarn m s
  | .supplyRecovered => Sys2Proof.Machine.execSupplyRecovered s
  | .supplyTrip m => Sys2Proof.Machine.execSupplyTrip m s
  | .dreenAll r v => Sys2Proof.Machine.execDreenAll r v s
  | .dcoreWrite r v => Sys2Proof.Machine.execDcoreWrite r v s
  | .domainPowerUp d wcsOk => Sys2Proof.Machine.execDomainPowerUp d wcsOk s
  | .oppWrite r v => Sys2Proof.Machine.execOppWrite r v s
  | .oppTransition => Sys2Proof.Machine.execOppTransition s
  | .thermalReading tj => Sys2Proof.Machine.execThermalReading tj s
  | .thermalReset => Sys2Proof.Machine.execThermalReset s
  | .hpwrEmber r v => Sys2Proof.Machine.execHpwrEmber r v s
  | .emberEntry => Sys2Proof.Machine.execEmberEntry s
  | .hpwrCold r v => Sys2Proof.Machine.execHpwrCold r v s
  | .coldEntry => Sys2Proof.Machine.execColdEntry s
  | .wakeSource src => Sys2Proof.Machine.execWakeSource src s
  | .vioReturn => Sys2Proof.Machine.execVioReturn s
  | .emberExit ticks digestOk => Sys2Proof.Machine.execEmberExit ticks digestOk s
  | .rtcCalibration => Sys2Proof.Machine.execRtcCalibration s
  | .powerOnReset => Sys2Proof.Machine.execPowerOnReset s
  | .resetNPin => Sys2Proof.Machine.execResetNPin s
  | .chipReset cause => Sys2Proof.Machine.execChipReset cause s
  | .hresetChip r v => Sys2Proof.Machine.execHresetChip r v s
  | .hresetPartition r v => Sys2Proof.Machine.execHresetPartition r v s
  | .partitionReset p => Sys2Proof.Machine.execPartitionReset p s
  | .partitionRelease p => Sys2Proof.Machine.execPartitionRelease p s
  | .coldBoot a b trained => Sys2Proof.Machine.execColdBoot a b trained s
  | .antiRollbackAdvance => Sys2Proof.Machine.execAntiRollbackAdvance s
  | .faultInputLatch k => Sys2Proof.Machine.execFaultInputLatch k s
  | .lockstepMismatch pair what index => Sys2Proof.Machine.execLockstepMismatch pair what index s
  | .comparatorSelfTest cl ok => Sys2Proof.Machine.execComparatorSelfTest cl ok s
  | .rcCheck ok => Sys2Proof.Machine.execRcCheck ok s
  | .pllLockLoss k => Sys2Proof.Machine.execPllLockLoss k s
  | .fcfgWrite r k v => Sys2Proof.Machine.execFcfgWrite r k v s
  | .fpendClear r w v => Sys2Proof.Machine.execFpendClear r w v s
  | .swfltWrite r v => Sys2Proof.Machine.execSwfltWrite r v s
  | .swdcfgWrite r v => Sys2Proof.Machine.execSwdcfgWrite r v s
  | .swdkick r v => Sys2Proof.Machine.execSwdkick r v s
  | .safetyWatchdogExpiry => Sys2Proof.Machine.execSafetyWatchdogExpiry s
  | .twkick r p => Sys2Proof.Machine.execTwkick r p s
  | .taskWatchdogExpiry p => Sys2Proof.Machine.execTaskWatchdogExpiry p s
  | .sessionHello carried => Sys2Proof.Machine.execSessionHello carried s
  | .sessionPasswordHello carried => Sys2Proof.Machine.execSessionPasswordHello carried s
  | .sessionResponse carried => Sys2Proof.Machine.execSessionResponse carried s
  | .sessionPasswordResponse carried => Sys2Proof.Machine.execSessionPasswordResponse carried s
  | .sessionCloseFrame carried => Sys2Proof.Machine.execSessionCloseFrame carried s
  | .sessionTimeout => Sys2Proof.Machine.execSessionTimeout s
  | .sctlClose r v => Sys2Proof.Machine.execSctlClose r v s
  | .sinWrite r v => Sys2Proof.Machine.execSinWrite r v s
  | .soutRead r => Sys2Proof.Machine.execSoutRead r s
  | .cmdStatus carried => Sys2Proof.Machine.execCmdStatus carried s
  | .cmdReadlog carried => Sys2Proof.Machine.execCmdReadlog carried s
  | .cmdTune carried => Sys2Proof.Machine.execCmdTune carried s
  | .tuningApply => Sys2Proof.Machine.execTuningApply s
  | .cmdVerify carried => Sys2Proof.Machine.execCmdVerify carried s
  | .cmdPreset carried => Sys2Proof.Machine.execCmdPreset carried s
  | .cmdFlash carried => Sys2Proof.Machine.execCmdFlash carried s
  | .cmdSetpwd carried => Sys2Proof.Machine.execCmdSetpwd carried s
  | .cmdUnlock carried => Sys2Proof.Machine.execCmdUnlock carried s
  | .cmdOtpwrite carried => Sys2Proof.Machine.execCmdOtpwrite carried s
  | .cmdRevoke carried => Sys2Proof.Machine.execCmdRevoke carried s
  | .cmdProvlock carried => Sys2Proof.Machine.execCmdProvlock carried s
  | .cmdDebug carried => Sys2Proof.Machine.execCmdDebug carried s
  | .cmdJtagoff carried => Sys2Proof.Machine.execCmdJtagoff carried s
  | .cmdProvision carried => Sys2Proof.Machine.execCmdProvision carried s
  | .jtagExtest => Sys2Proof.Machine.execJtagExtest s
  | .jtagSamplePreload cells => Sys2Proof.Machine.execJtagSamplePreload cells s
  | .jtagClamp => Sys2Proof.Machine.execJtagClamp s
  | .jtagHighz => Sys2Proof.Machine.execJtagHighz s
  | .jtagDbgacc acc => Sys2Proof.Machine.execJtagDbgacc acc s
  | .jtagDbgrst => Sys2Proof.Machine.execJtagDbgrst s
  | .jtagBypass => Sys2Proof.Machine.execJtagBypass s
  | .trcctlWrite r v => Sys2Proof.Machine.execTrcctlWrite r v s
  | .trcmarkWrite r v => Sys2Proof.Machine.execTrcmarkWrite r v s
  | .retrainEnd p ok => Sys2Proof.Machine.execRetrainEnd p ok s
  | .rpushRecordRetry t => Sys2Proof.Machine.execRpushRecordRetry t s
  | .vhearthLoss => Sys2Proof.Machine.execVhearthLoss s
  | .thermalColdRelease => Sys2Proof.Machine.execThermalColdRelease s
  | .resetNRelease => Sys2Proof.Machine.execResetNRelease s
  | .ethLinkChange e up rate => Sys2Proof.Machine.execEthLinkChange e up rate s
  | .octetTransmit p => Sys2Proof.Machine.execOctetTransmit p s

end Sys2Proof.Machine
end

