-- ==== Sys2Proof/Safety.lean ====
section
/-!
DEFINITION. The terms of the statements: when memory is canonical, when a core runs an instruction undisturbed, what an instruction of a core
leaves alone, and what a write of registers leaves alone.
-/
namespace Sys2Proof.Machine

open Sys2Proof

/-- The canonical form of memory: addresses strictly rising, and no listed word equal to what an unlisted address reads as, the stored
form of VOID with payload zero (R427). -/
abbrev Memory.wf (m : Tab Stored) : Bool := Tab.wf m 0#80

/-- Nothing changes but I/O registers whose address satisfies P. -/
structure OnlyRegs (P : Nat → Prop) (s t : State) : Prop where
  rest : t = { s with io := t.io }
  regs : ∀ a, ¬ P a → t.ioR a = s.ioR a

/-- The registers of core c that the completion of an instruction can move: its eight event counters (R496) and DBGSTAT, whose SKIP ends
(R487). -/
def runRegs (c a : Nat) : Prop :=
  (∃ j, j < 8 ∧ (a = Reg.DBG_CNTSEL c j ∨ a = Reg.DBG_CNTSEL c j + 1)) ∨ a = Reg.DBG_DBGSTAT c

/-- The registers that an access to memory can move besides what it reads or writes: the event counters (R496), and the channels' records of
the errors a demand read meets (R239). -/
def cacheRegs (a : Nat) : Prop :=
  (∃ c j, c < 64 ∧ j < 8 ∧ (a = Reg.DBG_CNTSEL c j ∨ a = Reg.DBG_CNTSEL c j + 1)) ∨
  (∃ k j, k < 8 ∧ j < 8 ∧ (a = Reg.CNTC_CNTSEL k j ∨ a = Reg.CNTC_CNTSEL k j + 1)) ∨
  (∃ j, j < 32 ∧ (a = Reg.CNTU_CNTSEL j ∨ a = Reg.CNTU_CNTSEL j + 1)) ∨
  (∃ ch, ch < 8 ∧ (a = Reg.MEMC_MERR ch ∨ a = Reg.MEMC_MUEADDR ch))

/-- The registers of the trace unit (R495), which a traced core's jumps and entries move. -/
def traceRegs (a : Nat) : Prop := a = Reg.TRC_TRCCTL ∨ a = Reg.TRC_TRCSTAT ∨ (0xFF00F48000 ≤ a ∧ a < 0xFF00F50000)

/-- Core c runs an instruction with nothing in the way: it is running at a boundary, debugging is off, no repeat is active at its
level, and no register group is absent. -/
structure AtEase (s : State) (c : Nat) : Prop where
  ready : s.ready c = true
  debug : s.dbgOn c = false
  rep   : s.repAct c = false
  here  : s.snap c = true ∨ s.crF c CRN.gds 12 8 = 0

/-- The four register files of a core: its globals, its 256 hand registers, and the two files of its Snap bank. -/
def State.file (s : State) (c : Nat) : Nat → Tab Word
  | 0 => (s.core c).g
  | 1 => (s.core c).hands
  | 2 => (s.core c).snapG
  | 3 => (s.core c).snapHand
  | _ => []

/-- The file and the place in it of the register that a number names now (R63, R69). -/
def State.homeOf (s : State) (c r : Nat) : Nat × Nat :=
  if s.snap c then (if r < 8 then (2, r) else (3, r - 8))
  else if r < 8 then (0, r) else (1, handKey (s.chp c) r)

/-- What an instruction of core c that touches no memory leaves alone, D being the registers it writes and q whether it writes
ASR or FSR: every other register of every bank, every control and segment register, the other bank's status, every other core,
and everything outside the cores but the counters of c. The index of c moves to the next instruction, and the written groups are marked
dirty (R81). -/
structure Keeps (s t : State) (c : Nat) (D : List Nat) (q : Bool) (groups : Nat) : Prop where
  files  : ∀ f k, (f, k) ∉ D.map (s.homeOf c) → Tab.get (t.file c f) k Word.void = Tab.get (s.file c f) k Word.void
  names  : ∀ r, r < 32 → r ∉ D → t.reg c r = s.reg c r
  ctl    : ∀ k, k ≠ CRN.gds → ¬ (q = true ∧ s.snap c = false ∧ (k = CRN.asr ∨ k = CRN.fsr)) → t.crR c k = s.crR c k
  gds    : t.crR c CRN.gds = if s.snap c then s.crR c CRN.gds else s.crR c CRN.gds ||| n64 groups
  snapSt : ¬ (q = true ∧ s.snap c = true) → (t.core c).snapAsr = (s.core c).snapAsr ∧ (t.core c).snapFsr = (s.core c).snapFsr
  next   : (t.core c).ip = { (s.core c).ip with idx := (s.core c).ip.idx + 1 }
  core   : t.core c = { s.core c with
    g := (t.core c).g, hands := (t.core c).hands, snapG := (t.core c).snapG, snapHand := (t.core c).snapHand, cr := (t.core c).cr,
    snapAsr := (t.core c).snapAsr, snapFsr := (t.core c).snapFsr, ip := (t.core c).ip, hold := (t.core c).hold, breakAt := 0,
    walk := none, accs := [] }
  others : ∀ k, k ≠ c → t.core k = s.core k
  regs   : ∀ a, ¬ runRegs c a → t.ioR a = s.ioR a
  rest   : t = { s with cores := t.cores, io := t.io }

/-- The command answers a next state in which register d of core c holds w; ASR, FSR and all else of Keeps stay. -/
def Gives (s : State) (i : Instr) (c : CoreId) (d : RegN) (w : Word) : Prop :=
  ∃ t, exec i s = .next t ∧ t.reg c.val d.val = w ∧ Keeps s t c.val [d.val] false (regGrp d.val)

/-- The command answers a next state in which register d of core c holds w and ASR has N, Z, C and V replaced, its other bits
as they were (R107); FSR and all else of Keeps stay. -/
def GivesFlags (s : State) (i : Instr) (c : CoreId) (d : RegN) (w : Word) (n z cc v : Bool) : Prop :=
  ∃ t, exec i s = .next t ∧ t.reg c.val d.val = w ∧
    t.asrR c.val = setFld (s.asrR c.val) 3 0 (n.toNat * 8 + z.toNat * 4 + cc.toNat * 2 + v.toNat) ∧ t.fsrR c.val = s.fsrR c.val ∧
    Keeps s t c.val [d.val] true (regGrp d.val ||| grpQ)

/-- The index after the one core c stands at. -/
def State.nextIp (s : State) (c : Nat) : Ip := { (s.core c).ip with idx := (s.core c).ip.idx + 1 }

/-- What an instruction of core c that accesses memory leaves alone, execution going on at ip, D being the registers it writes, q whether it
writes ASR or FSR, and `stored` the words it stores to: every word of memory outside `stored` reads as before, whatever the caches have moved;
every other register of every bank, every control and segment register, the status of both banks but for q, and every other
core but for reservations, which end only by a write or an eviction (R152); every I/O register but the event counters, the channels' error
records and the trace unit; and everything else. -/
structure KeepsMem (s t : State) (c : Nat) (D : List Nat) (q : Bool) (groups : Nat) (stored : Nat → Prop) (ip : Ip) : Prop where
  words  : ∀ pa, ¬ stored pa → (t.peekWord pa).1 = (s.peekWord pa).1
  files  : ∀ f k, (f, k) ∉ D.map (s.homeOf c) → Tab.get (t.file c f) k Word.void = Tab.get (s.file c f) k Word.void
  names  : ∀ r, r < 32 → r ∉ D → t.reg c r = s.reg c r
  ctl    : ∀ k, k ≠ CRN.gds → ¬ (q = true ∧ s.snap c = false ∧ (k = CRN.asr ∨ k = CRN.fsr)) → t.crR c k = s.crR c k
  gds    : t.crR c CRN.gds = if s.snap c then s.crR c CRN.gds else s.crR c CRN.gds ||| n64 groups
  snapSt : ¬ (q = true ∧ s.snap c = true) → (t.core c).snapAsr = (s.core c).snapAsr ∧ (t.core c).snapFsr = (s.core c).snapFsr
  next   : (t.core c).ip = ip
  core   : t.core c = { s.core c with
    g := (t.core c).g, hands := (t.core c).hands, snapG := (t.core c).snapG, snapHand := (t.core c).snapHand, cr := (t.core c).cr,
    snapAsr := (t.core c).snapAsr, snapFsr := (t.core c).snapFsr, ip := (t.core c).ip, hold := (t.core c).hold,
    resv := (t.core c).resv, dcache := (t.core c).dcache, walk := (t.core c).walk, breakAt := 0, accs := [] }
  others : ∀ k, k ≠ c → t.core k = { s.core k with resv := (t.core k).resv }
  resv   : ∀ k, k ≠ c → (t.core k).resv = (s.core k).resv ∨ (t.core k).resv = none
  regs   : ∀ a, ¬ cacheRegs a → ¬ runRegs c a → ¬ traceRegs a → t.ioR a = s.ioR a
  canon  : Memory.wf s.mem = true → Memory.wf t.mem = true
  rest   : t = { s with mem := t.mem, l1d := t.l1d, l2 := t.l2, l3 := t.l3, l1i := t.l1i, tags := t.tags, vbuf := t.vbuf,
                        shuf := t.shuf, io := t.io, cores := t.cores, pulses := t.pulses, faultIn := t.faultIn,
                        fills := t.fills }

/-- Core c accesses memory with nothing in the way: its descriptor cache holds no stale copy (R80), no Sweep cycle runs on its partition,
and no object is in transit (R262). -/
structure Settled (s : State) (c : Nat) : Prop where
  fresh   : ∀ e ∈ (s.core c).dcache, (⟨e.2.2.1, e.2.2.2⟩ : Desc) = s.tableDesc (s.corePart c) e.2.1
  cycle   : ∀ h, s.sweep.heap = some h → h < 16 ∧ s.heapPart h ≠ s.corePart c
  transit : ∀ pa, s.transitAt pa = none

/-- The check of R76 grants core c an access of a kind to a segment word, which lies at a memory address. -/
structure Reaches (s : State) (c sel off : Nat) (a : Acc) (pa : Nat) : Prop where
  check : s.checkDesc (s.corePart c) sel (s.coreDesc c sel) off a (s.sup c) = .ok pa
  mem   : isIo pa = false

/-- Core c can read a word at a segment offset: the access is granted, and the word decodes with no uncorrectable error. -/
structure Holds (s : State) (c sel off : Nat) (a : Acc) (pa : Nat) (w : Word) : Prop where
  at_  : Reaches s c sel off a pa
  word : (s.peekWord pa).1 = w
  good : (s.peekWord pa).2 ≠ .uncorr

/-- Core c can store a word at a segment offset (R76, R37, R132, R246): a write is granted, to memory outside the log ring; the word
there decodes and, like the one stored, is no structural word in user mode; no cycle logs it as a REM word (R255); and Table 10-1 admits a pointer
stored there. -/
structure Storable (s : State) (c sel off pa : Nat) (w : Word) : Prop where
  at_   : Reaches s c sel off .write pa
  ring  : Ctx.ring pa = false
  good  : (s.peekWord pa).2 ≠ .uncorr
  old   : s.sup c = true ∨ isStructural (s.peekWord pa).1.tag = false
  rem   : s.sweep.heap = none ∨ (s.peekWord pa).1.tag ≠ Tag.rem
  src   : s.sup c = true ∨ isStructural w.tag = false
  grant : s.storeOk (s.corePart c) w sel (s.coreDesc c sel) pa = true

/-- The object that a pointer word names is read by core c (R54): its header stands at the pointer's offset, of the pointer's kind. -/
structure Object (s : State) (c : Nat) (p : Word) (pa : Nat) (hdr : W64) : Prop where
  ptr    : s.isPtr p.tag = true
  formed : s.malformed p = false
  cell   : p.tag ≠ Tag.cons
  holds  : Holds s c (ptrSel p.pay) (ptrOff p.pay) .read pa ⟨Tag.hdr, hdr⟩
  kind   : fld hdr 63 56 = p.tag.toNat

/-- The command answers a next state in which register d of core c holds w, and all else of KeepsMem stays: no word is stored to. -/
def Loads (s : State) (i : Instr) (c : CoreId) (d : RegN) (w : Word) : Prop :=
  ∃ t, exec i s = .next t ∧ t.reg c.val d.val = w ∧ KeepsMem s t c.val [d.val] false (regGrp d.val) (fun _ => False) (s.nextIp c.val)

/-- The command answers a next state in which the word at pa is w, and all else of KeepsMem stays: only that word is stored to, and
no register is written. -/
def StoresAt (s : State) (i : Instr) (c : CoreId) (pa : Nat) (w : Word) : Prop :=
  ∃ t, exec i s = .next t ∧ t.peekWord pa = (w, .ok) ∧ KeepsMem s t c.val [] false 0 (· = pa) (s.nextIp c.val)

/-- One step of a walk of core c (R143): the command cmd answers a next state in which the registers D hold the words they stand with;
execution goes on behind the walk where it is done, else at a yield point from which the same walk goes on; all else of KeepsMem stays, but
for the words stored to. -/
def Walks (s : State) (cmd i : Instr) (c : CoreId) (D : List (Nat × Word)) (done : Bool) (stored : Nat → Prop := fun _ => False) : Prop :=
  ∃ t, exec cmd s = .next t ∧ (∀ e ∈ D, t.reg c.val e.1 = e.2) ∧ (t.core c.val).walk = (if done then none else some i) ∧
    KeepsMem s t c.val (D.map (·.1)) false (regGrps (D.map (·.1))) stored (if done then s.nextIp c.val else (s.core c.val).ip)

/-- The words that a walk i of core c executes with: its own instruction, and WALK_STEP at its yield point (R143). -/
def stepOf (s : State) (cmd i : Instr) (c : CoreId) : Prop := cmd = i ∨ (cmd = .walkStep c ∧ (s.core c.val).walk = some i)

/-- Both words of the CONS cell that a pointer names are read by core c, holding v0 and v1 (R53, R132). -/
structure Cell (s : State) (c : Nat) (p : Word) (p0 p1 : Nat) (v0 v1 : Word) : Prop where
  tag    : p.tag = Tag.cons
  formed : s.malformed p = false
  car    : Holds s c (ptrSel p.pay) (ptrOff p.pay) .read p0 v0
  cdr    : Holds s c (ptrSel p.pay) (ptrOff p.pay + 1) .read p1 v1

/-- The word that an atomic instruction with operands va and vb and field x addresses (R133): a body word of the object of a pointer, a word
of a cell, or a word at a segment offset; pa its address and w its value. For a store (a is write) the object is not read-only. -/
structure Names (s : State) (c : Nat) (va vb : Word) (x : BitVec 5) (a : Acc) (sel off pa : Nat) (w : Word) : Prop where
  word  : Holds s c sel off .read pa w
  index : vb.tag = Tag.fix
  form  :
    (x = 0#5 ∧ sel = ptrSel va.pay ∧ (off : Int) = ptrOff va.pay + 1 + vb.pay.toInt ∧ 0 ≤ vb.pay.toInt ∧
      ∃ hpa hdr, Object s c va hpa hdr ∧ vb.pay.toInt < (fld hdr 39 0 : Int) ∧ (a = .write → bitAt hdr 55 = false)) ∨
    (x = 0#5 ∧ sel = ptrSel va.pay ∧ off = ptrOff va.pay + vb.pay.toNat ∧ vb.pay.toNat ≤ 1 ∧ va.tag = Tag.cons ∧ s.malformed va = false ∧
      ∀ j, j < 2 → ∃ q, Reaches s c sel (ptrOff va.pay + j) a q) ∨
    (x.getLsbD 0 = true ∧ sel = s.sgR c (x.toNat / 2) ∧ va.tag = Tag.fix ∧ va.pay.toInt + vb.pay.toInt = (off : Int) ∧ s.regionOk pa = true)

/-- The allocation area of core c is open in region r of heap segment h with top words used, and n words fit behind them (R249). -/
structure Room (s : State) (c n h r top : Nat) : Prop where
  valid : s.rb (Reg.SWP_AREA c) 60 = true
  held  : s.rb (Reg.SWP_AREA c) 63 = true
  heap  : s.rf (Reg.SWP_AREA c) 59 56 = h
  reg   : s.rf (Reg.SWP_AREA c) 55 38 = r
  top_  : s.rf (Reg.SWP_AREA c) 34 17 = top
  small : n ≤ 65536
  fits  : top + n ≤ 131072

/-- The area after n words have been taken from it: its TOP, and its region's. -/
def State.taken (s : State) (c n h r top : Nat) : State :=
  (s.wf (Reg.SWP_AREA c) 34 17 (top + n)).setRegion h r (setFld (s.region h r) 40 23 (top + n))

/-- Core c may store a word of a new object into the heap segment of its area (R37, R246). -/
structure Fits (s : State) (c h : Nat) (w : Word) : Prop where
  src   : s.sup c = true ∨ isStructural w.tag = false
  grant : s.storeOk (s.corePart c) w (s.heapSel h) (s.coreDesc c (s.heapSel h)) (s.heapBase h) = true

/-- Core c holds a current handle of a queue of the Dealer with the right to push (or to pop), and its partition may use it (R155, R288). -/
structure Handle (s : State) (c : Nat) (w : Word) (q : Nat) (push : Bool) : Prop where
  tag    : w.tag = Tag.que
  formed : s.malformed w = false
  num    : queNum w.pay = q
  on     : s.dealerOff = false
  live   : s.genCurrent q (queGen w.pay) = true
  part   : s.queueOwner q = some (s.corePart c) ∨ (push = true ∧ cfgXp (s.queue q).cfg = true)
  right  : (if push then quePush w.pay else quePop w.pay) = true

/-- What an item accepted in a class makes of a queue: dealt to the head of the waiter list, else the last of the ring (R284, R285). -/
def QueueSt.accept (x : QueueSt) (cls : Nat) (it : Item) : QueueSt :=
  match x.waiters with
  | [] => { x with held := x.held ++ [(none, cls, it)] }
  | w :: ws => { x with waiters := ws, held := x.held ++ [(some w, cls, it)] }

/-- The item in the quad of d. -/
def State.quad (s : State) (c d : Nat) : Item := ⟨s.reg c d, s.reg c (d + 1), s.reg c (d + 2), s.reg c (d + 3)⟩

/-- What the event counters, the channels' error records and the trace unit hold: what any access or transfer may move besides its own
effect. -/
def sideRegs (a : Nat) : Prop := cacheRegs a ∨ traceRegs a

/-- What an instruction of core c that acts on a unit leaves alone: v is the state before it with the unit's parts as after it, R the unit's
registers that it moves. -/
structure KeepsUnit (s t : State) (c : Nat) (D : List Nat) (q : Bool) (groups : Nat) (R : Nat → Prop) (v : State) : Prop where
  frame : Keeps { v with io := t.io, pulses := t.pulses } t c D q groups
  regs  : ∀ a, ¬ R a → ¬ sideRegs a → ¬ runRegs c a → t.ioR a = s.ioR a

/-- The L1I of core c holds no stale word (R211: it does not follow stores until IINV). -/
def FreshL1I (s : State) (c : Nat) : Prop :=
  ∀ pa x, pa < 2 ^ 40 → Tab.get s.l1i (c * 2 ^ 40 + pa) none = some x →
    (Ecc.decode x).1 = (s.peekWord pa).1 ∧ ((Ecc.decode x).2 = .uncorr ↔ (s.peekWord pa).2 = .uncorr)

/-- Core c fetches from a CODE object of n words of instructions: body word 0 is read, is FIX, and holds ICOUNT n (R57, R92). -/
structure Executes (s : State) (c n : Nat) : Prop where
  settled : Settled s c
  fresh   : FreshL1I s c
  count   : ∃ pa w, Holds s c (s.core c).ip.sel ((s.core c).ip.off + 1) .exec pa w ∧ w.tag = Tag.fix ∧ fld w.pay 31 0 = n ∧ n ≤ 2 ^ 23

/-- The instruction word at an index of the executing CODE object (R57, R92): two to a body word, the even one in bits 31:0. -/
structure CodeAt (s : State) (c n idx : Nat) (i : BitVec 32) : Prop where
  inside : idx < 2 * n
  word   : ∃ pa w, Holds s c (s.core c).ip.sel ((s.core c).ip.off + 4 + idx / 2) .exec pa w ∧ w.tag = Tag.raww ∧
    i.toNat = (if idx % 2 = 1 then fld w.pay 63 32 else fld w.pay 31 0)

/-- A CODE word k is entered by core c: its object's header and body word 0 are read for execution, and its instructions begin at dest
(R57, R89, R140). -/
structure Callable (s : State) (c : Nat) (k : Word) (w0 : Word) (dest : Ip) : Prop where
  tag    : k.tag = Tag.code
  formed : s.malformed k = false
  ip     : dest = { sel := ptrSel k.pay, off := ptrOff k.pay, idx := 0 }
  near   : ptrOff k.pay < 2 ^ 28
  header : ∃ pa h, Holds s c (ptrSel k.pay) (ptrOff k.pay) .exec pa h ∧ h.tag = Tag.hdr ∧ fld h.pay 63 56 = 0x0E
  word0  : ∃ pa, Holds s c (ptrSel k.pay) (ptrOff k.pay + 1) .exec pa w0
  count  : w0.tag = Tag.fix ∧ fld w0.pay 31 0 ≤ 2 ^ 23

/-- The entry descriptor in body word 0 accepts n arguments (Table 3-7): ARGMIN to ARGMAX, no upper bound for VAR. -/
def Accepts (w0 : Word) (n : Nat) : Prop :=
  fld w0.pay 56 32 = 0 ∧ fld w0.pay 62 60 ≤ n ∧ fld w0.pay 62 60 ≠ 7 ∧ (bitAt w0.pay 63 = true ∨ (n ≤ fld w0.pay 59 57 ∧ fld w0.pay 59 57 ≠ 7))

/-- What the word of a CALL or TCALL names (R89, R140): a CODE word itself, the function register then NIL, or an FN word whose element 0
is the CODE word, the function register then the FN word. -/
def Callee (s : State) (c : Nat) (t k f : Word) : Prop :=
  (t = k ∧ f = nilW) ∨
  (t.tag = Tag.fn ∧ f = t ∧ ∃ hpa hdr pa, Object s c t hpa hdr ∧ 0 < fld hdr 39 0 ∧ Holds s c (ptrSel t.pay) (ptrOff t.pay + 1) .read pa k)

/-- A word that core c reads with the rights of supervisor mode, whatever its mode is: what entries use (R174). -/
structure HoldsSup (s : State) (c sel off : Nat) (a : Acc) (pa : Nat) (w : Word) : Prop where
  check : s.checkDesc (s.corePart c) sel (s.coreDesc c sel) off a true = .ok pa
  mem   : isIo pa = false
  word  : (s.peekWord pa).1 = w
  good  : (s.peekWord pa).2 ≠ .uncorr

/-- The checks of an entry of core c at a level above its own pass with nothing to spill, fill or push (R85, R67, R174): the vector
table's word names a CODE object at dest. -/
structure Enterable (s : State) (c lvl vec : Nat) (dest : Ip) : Prop where
  above  : s.cl c < lvl
  table  : bitAt (s.crR c CRN.xtb) 51 = true
  vector : ∃ pa w, HoldsSup s c (ptrSel (s.crR c CRN.xtb)) (ptrOff (s.crR c CRN.xtb) + vec) .read pa w ∧ w.tag = Tag.code ∧
    s.malformed w = false ∧ dest = { sel := ptrSel w.pay, off := ptrOff w.pay, idx := 0 } ∧ ptrOff w.pay < 2 ^ 28 ∧
    (∃ pb h, HoldsSup s c (ptrSel w.pay) (ptrOff w.pay) .exec pb h ∧ h.tag = Tag.hdr ∧ fld h.pay 63 56 = 0x0E) ∧
    ∃ pb h, HoldsSup s c (ptrSel w.pay) (ptrOff w.pay + 1) .exec pb h ∧ h.tag = Tag.fix ∧ fld h.pay 31 0 ≤ 2 ^ 23
  hands  : lvl = 6 ∨ (s.handN c ≠ 16 ∧ ¬ (s.absent c 9 = true ∧ bitAt (s.crR c CRN.ccx) 51 = true))

/-- Core c has entered level lvl (R174, R175): the save set holds the interrupted place, status, repeat and the event's record; CL is the level
and SUP is 1; the bank's RPT, ASR and FSR flags are clear; but for level 6 CHP has moved to a fresh hand and W is present; the
reservation is gone; execution goes on at dest; and nothing else has changed but what the reads of the vector move, and the registers R. -/
structure Enters (s t : State) (c lvl : Nat) (xpc dest : Ip) (xca xad xop : W64) (R : Nat → Prop) : Prop where
  xpc   : t.crR c (CRN.save lvl 0) = retPay xpc
  xst   : t.crR c (CRN.save lvl 1) = putFld 42 32 (fld (s.fsrR c) 10 0) ||| putFld 25 16 (fld (s.asrR c) 9 0) ||| putFld 10 0 (fld (s.cstR c) 10 0)
  xrp   : t.crR c (CRN.save lvl 2) = s.rptR c
  xca   : t.crR c (CRN.save lvl 3) = xca
  xad   : t.crR c (CRN.save lvl 4) = xad
  xop   : t.crR c (CRN.save lvl 5) = xop
  cst   : t.crR c CRN.cst = setFld (setFld (s.crR c CRN.cst) 2 0 lvl) 7 7 1
  main  : lvl ≠ 6 → t.crR c CRN.rpt = 0#64 ∧ t.crR c CRN.asr = 0#64 ∧ t.crR c CRN.fsr = setFld (s.crR c CRN.fsr) 4 0 0 ∧
    t.crR c CRN.gds = setFld (s.crR c CRN.gds) 9 9 0 ∧ t.chp c = (s.chp c + 1) % 16 ∧
    (t.core c).snapRpt = (s.core c).snapRpt ∧ (t.core c).snapAsr = (s.core c).snapAsr ∧ (t.core c).snapFsr = (s.core c).snapFsr
  snap  : lvl = 6 → (t.core c).snapRpt = 0#64 ∧ (t.core c).snapAsr = 0#64 ∧ (t.core c).snapFsr = setFld (s.core c).snapFsr 4 0 0 ∧
    ∀ k, k = CRN.rpt ∨ k = CRN.asr ∨ k = CRN.fsr ∨ k = CRN.gds ∨ k = CRN.chp → t.crR c k = s.crR c k
  ctl   : ∀ k, (∀ j, j < 6 → k ≠ CRN.save lvl j) → k ≠ CRN.cst → k ≠ CRN.rpt → k ≠ CRN.asr → k ≠ CRN.fsr → k ≠ CRN.gds → k ≠ CRN.chp →
    t.crR c k = s.crR c k
  files : ∀ f, t.file c f = s.file c f
  segs  : (t.core c).sg = (s.core c).sg ∧ (t.core c).snapSg = (s.core c).snapSg
  place : (t.core c).ip = dest ∧ (t.core c).resv = none ∧ (t.core c).run = (s.core c).run
  words : ∀ pa, (t.peekWord pa).1 = (s.peekWord pa).1
  others : ∀ k, k ≠ c → t.core k = { s.core k with resv := (t.core k).resv }
  regs  : ∀ a, ¬ R a → ¬ sideRegs a → ¬ runRegs c a → t.ioR a = s.ioR a
  core  : t.core c = { s.core c with
    cr := (t.core c).cr, ip := dest, g := (t.core c).g, hands := (t.core c).hands, snapG := (t.core c).snapG, snapHand := (t.core c).snapHand,
    snapRpt := (t.core c).snapRpt, snapAsr := (t.core c).snapAsr, snapFsr := (t.core c).snapFsr, dcache := (t.core c).dcache,
    resv := none, wait := (t.core c).wait, hold := (t.core c).hold, watchAt := (t.core c).watchAt, stepAt := (t.core c).stepAt,
    stopRet := (t.core c).stopRet, breakAt := 0, accs := [], micro := none, walk := none }
  rest  : t = { s with mem := t.mem, l1d := t.l1d, l2 := t.l2, l3 := t.l3, l1i := t.l1i, tags := t.tags, vbuf := t.vbuf, shuf := t.shuf,
                       io := t.io, cores := t.cores, pulses := t.pulses, faultIn := t.faultIn, offers := t.offers, saf := t.saf,
                       fills := t.fills }

/-- Core c can store a word into a STACK or a BANK segment as the hand and context instructions do (R65, R75, R83): a access of kind a is
granted, and the checks of a store pass as for Storable. -/
structure StorableBy (s : State) (c : Nat) (a : Acc) (sel off pa : Nat) (w : Word) : Prop where
  at_   : Reaches s c sel off a pa
  ring  : Ctx.ring pa = false
  good  : (s.peekWord pa).2 ≠ .uncorr
  old   : s.sup c = true ∨ isStructural (s.peekWord pa).1.tag = false
  rem   : s.sweep.heap = none ∨ (s.peekWord pa).1.tag ≠ Tag.rem
  grant : s.storeOk (s.corePart c) w sel (s.coreDesc c sel) pa = true

/-- Core c runs a supervisor instruction with nothing in the way, whatever groups are absent. -/
structure AtCall (s : State) (c : Nat) : Prop where
  ready : s.ready c = true
  debug : s.dbgOn c = false
  rep   : s.repAct c = false
  sup   : s.sup c = true

/-- The words of group C as a context save area holds them (Table 3-5), at level lvl. -/
def State.cWord (s : State) (c lvl : Nat) : Nat → Word
  | 0 => fixW (s.crR c CRN.chp)
  | 1 => fixW (s.crR c CRN.shp)
  | 2 => fixW (s.crR c CRN.spp)
  | 3 => fixW (s.crR c CRN.rpt)
  | 4 => ⟨Tag.ret, s.crR c (CRN.save lvl 0)⟩
  | _ => fixW (s.crR c (CRN.save lvl 1))

/-- The command answers a next state in which register d of core c holds w, the sticky bits QNX of ASR and those of FSR named are set
beside those that were (R107), and all else of Keeps stays. -/
def GivesSticky (s : State) (i : Instr) (c : CoreId) (d : RegN) (w : Word) (ff : BitVec 5) (qnx : Bool) : Prop :=
  ∃ t, exec i s = .next t ∧ t.reg c.val d.val = w ∧ t.asrR c.val = s.asrR c.val ||| putFld 9 9 qnx.toNat ∧
    t.fsrR c.val = s.fsrR c.val ||| ff.setWidth 64 ∧
    Keeps s t c.val [d.val] true (regGrp d.val ||| (if ff = 0#5 ∧ qnx = false then 0 else grpQ))

/-- The command answers the next state of a synchronous fault of core c (R168–R174), whose entry is `State.takeFault`: o names the registers
whose tags XOP records. -/
def Faults (s : State) (i : Instr) (c : CoreId) (e : Exn) (o : Opnds) : Prop :=
  exec i s = .next (s.takeFault c.val e (s.xop c.val o e.mtag))

/-- The registers of a two-source and of a one-source instruction, as XOP records them; the immediate form's b is FIX. -/
def opndsDAB (d a b : RegN) : Opnds := { a := some a.val, b := some b.val, d := some d.val }
def opndsDA (d a : RegN) : Opnds := { a := some a.val, d := some d.val }

/-- A word that the raw instructions accept: FIX or RAWW (R127). -/
def rawTag (w : Word) : Prop := w.tag = Tag.fix ∨ w.tag = Tag.raww

/-- An integer lies outside the range of 64-bit two's complement. -/
abbrev outOf64 (i : Int) : Prop := i < -(2 ^ 63) ∨ 2 ^ 63 ≤ i

/-- The command answers a next state t with Q t, in which nothing has changed but the I/O registers of R and the parts of the state that v takes
from t. -/
def Does (s : State) (i : Instr) (R : Nat → Prop) (v : State → State) (Q : State → Prop) : Prop :=
  ∃ t, exec i s = .next t ∧ Q t ∧ OnlyRegs R (v t) t

/-- The command leaves everything as it was. -/
def Idle (s : State) (i : Instr) : Prop := exec i s = .next s

/-- The core that a source is offered to (R181): of the cores in SMASK on which its level is enabled the lowest; at level 7 the lowest that
is below CL 7, and the lowest at CL 7 only where every core of SMASK that is powered and not shed is at CL 7; none where there is no such core. -/
def OfferedTo (s : State) (n : Nat) (o : Option Nat) : Prop :=
  let e (c : Nat) : Prop := c < 64 ∧ bitAt (s.srcMask n) c = true ∧ s.levelEnabled c (s.srcLvl n) = true
  let trump : Prop := ∀ k, k < 64 → bitAt (s.srcMask n) k = true → (s.core k).run ≠ .off → (s.core k).run ≠ .shed → s.cl k = 7
  match o with
  | none => ∀ c, e c → s.srcLvl n = 7 ∧ s.cl c = 7 ∧ ¬ trump
  | some c => e c ∧ if s.srcLvl n = 7 ∧ s.cl c < 7 then ∀ k, e k → s.cl k < 7 → c ≤ k else (s.srcLvl n = 7 → trump) ∧ ∀ k, e k → c ≤ k

/-- What a movement of words between caches and memory leaves alone, v being the state before it with the parts that change otherwise as after it:
every word outside `stored` reads as before; the cores but for reservations, which can only end; every I/O register but R and the side
registers; and the canonical form of memory. -/
structure MovesWords (stored R : Nat → Prop) (v s t : State) : Prop where
  words : ∀ pa, ¬ stored pa → (t.peekWord pa).1 = (s.peekWord pa).1
  cores : ∀ k, t.core k = { v.core k with resv := (t.core k).resv }
  resv  : ∀ k, (t.core k).resv = (v.core k).resv ∨ (t.core k).resv = none
  regs  : ∀ a, ¬ R a → ¬ sideRegs a → t.ioR a = s.ioR a
  canon : Memory.wf s.mem = true → Memory.wf t.mem = true
  rest  : t = { v with mem := t.mem, l1d := t.l1d, l2 := t.l2, l3 := t.l3, l1i := t.l1i, tags := t.tags, vbuf := t.vbuf, shuf := t.shuf,
                       io := t.io, cores := t.cores, pulses := t.pulses, faultIn := t.faultIn,
                       fills := t.fills }

/-- The command answers a next state t with Q t, in which words may have moved but only those of `stored` read otherwise, and nothing else has
changed but the registers R and the parts that v takes from t. -/
def DoesMem (s : State) (i : Instr) (stored R : Nat → Prop) (v : State → State) (Q : State → Prop) : Prop :=
  ∃ t, exec i s = .next t ∧ Q t ∧ MovesWords stored R (v t) s t

/-- A queue accepts an item that an engine pushes with the rights of partition p (R288, R289): it is live with this generation, p may push
into it, and there is room. -/
structure Takes (s : State) (p q gen : Nat) : Prop where
  on   : s.dealerOff = false
  live : s.genCurrent q gen = true
  part : s.queueOwner q = some p ∨ cfgXp (s.queue q).cfg = true
  room : (s.queue q).count + 1 ≤ cfgCap (s.queue q).cfg

/-- An engine with the rights of partition p reads a segment word outside the heap segments (R76, R299): granted, to memory, not uncorrectable. -/
structure EngHolds (s : State) (p : Nat) (sup : Bool) (sel off pa : Nat) (w : Word) : Prop where
  check : s.checkDesc p sel (s.tableDesc p sel) off .read sup = .ok pa
  mem   : isIo pa = false
  free  : s.heapAt pa = none
  word  : (s.peekWord pa).1 = w
  good  : (s.peekWord pa).2 ≠ .uncorr

/-- An engine with the rights of partition p may store a word to a segment word outside the heap segments, the log ring and the partition's
descriptor table (R37, R76, R246). -/
structure EngStores (s : State) (p : Nat) (sup : Bool) (sel off pa : Nat) (w : Word) : Prop where
  check : s.checkDesc p sel (s.tableDesc p sel) off .write sup = .ok pa
  mem   : isIo pa = false
  free  : s.heapAt pa = none
  ring  : Ctx.ring pa = false
  good  : (s.peekWord pa).2 ≠ .uncorr
  old   : isStructural (s.peekWord pa).1.tag = false
  rem   : s.sweep.heap = none ∨ (s.peekWord pa).1.tag ≠ Tag.rem
  src   : isStructural w.tag = false
  grant : s.storeOk p w sel (s.tableDesc p sel) pa = true
  table : pa < (s.part p).segBase ∨ (s.part p).segBase + 2 * (s.part p).tsize ≤ pa

/-- A DMA channel moves a descriptor with control word c (R302–R306, Table 11-6): running, in phase MOVE at its beginning, with no request line to
wait for, no stop, no stall on an object and no block boundary to pass, served by its engine; both sides in offset mode and counting. -/
structure Moving (s : State) (ch : Nat) (c : W64) : Prop where
  run    : s.dState ch = dRun
  phase  : (s.dmaCh ch).phase = .move
  start  : s.dmaProg ch = 0
  stop   : (s.dmaCh ch).stop = false
  free   : (s.dmaCh ch).stall = false ∧ (s.dmaCh ch).bound = false
  ctl    : ((s.dmaCh ch).word 0).pay = c
  req    : ctlReq c = 0
  sfix   : ctlSfix c = false
  dfix   : ctlDfix c = false
  dmode  : ctlDmode c = 0
  active : s.dmaActive (ch / 16) = ch
  quiet  : s.sweep.heap = none

/-- Network n has the command it at the head of its input queue q, and its record will be taken by its completion queue (R323, R327). -/
structure Commanded (s : State) (n q cls : Nat) (it : Item) : Prop where
  ready : s.nState n = nReady
  lanes : s.rf Reg.MLD_MLANES 12 8 ≠ 0
  input : s.rb (Reg.MLD_NIQ n) 32 = true ∧ s.rf (Reg.MLD_NIQ n) 15 0 = q ∧ s.genCurrent q (s.rf (Reg.MLD_NIQ n) 31 16) = true ∧
    s.queueOwner q = some (s.nOwner n)
  head  : State.headItem (s.queue q) = some (cls, it)
  idle  : (s.net n).rcd = none ∧ (s.net n).after = 0
  quiet : s.sweep.heap = none
  reply : it.w3 = nilW ∧ it.w0.tag = Tag.fix ∧ fld it.w0.pay 47 32 = 0 ∧ bitAt it.w0.pay 51 = false
  out   : s.rb (Reg.MLD_NCQ n) 32 = true ∧ s.rf (Reg.MLD_NCQ n) 15 0 ≠ q ∧
    Takes s (s.nOwner n) (s.rf (Reg.MLD_NCQ n) 15 0) (s.rf (Reg.MLD_NCQ n) 31 16)
  room  : ((s.net n).amem.map (fun e => e.2.length)).sum ≤ s.nEcap n

/-- A VEC of n elements that an engine reads with the supervisor rights of partition p (R54). -/
structure EngVec (s : State) (p : Nat) (w : Word) (n : Nat) (v : Nat → Word) : Prop where
  tag    : w.tag = Tag.vec
  formed : s.malformed w = false
  header : ∃ pa h, EngHolds s p true (ptrSel w.pay) (ptrOff w.pay) pa ⟨Tag.hdr, h⟩ ∧ fld h 63 56 = Tag.vec.toNat ∧ fld h 39 0 = n
  elems  : ∀ i, i < n → ∃ pa, EngHolds s p true (ptrSel w.pay) (ptrOff w.pay + 1 + i) pa (v i)

/-- Network n has finished the command at the head of q with success: it has left the queue, its record has entered the completion queue, and it is
counted; facts but slot f, tokens and alpha memories stand as they were (R322, R326, R327). -/
structure Completed (s t : State) (n q cls : Nat) (it : Item) (f : Nat) (ident : Word) : Prop where
  input : t.queue q = { s.queue q with held := (s.queue q).held.erase (none, cls, it) }
  out   : let k := s.rf (Reg.MLD_NCQ n) 15 0
    t.queue k = (s.queue k).accept 2 (State.recItem n { op := fld it.w0.pay 63 60, user := fld it.w0.pay 15 0, ident := ident })
  rest  : ∀ k, k ≠ q → k ≠ s.rf (Reg.MLD_NCQ n) 15 0 → t.queue k = s.queue k
  count : t.ioR (Reg.MLD_NCNT n) = setFld (s.ioR (Reg.MLD_NCNT n)) 63 32 (min (s.rf (Reg.MLD_NCNT n) 63 32 + 1) (2 ^ 32 - 1))
  ready : t.nState n = nReady
  facts : ∀ k, k ≠ f → t.fact n k = s.fact n k
  net   : t.net n = { s.net n with facts := (t.net n).facts, outs := [], undo := none, tests := 0 }
  nets  : ∀ k, k ≠ n → t.net k = s.net k

/-- The main route to a node that is not the local one goes out by port p, which is up with nothing waiting and room to retry (R345, R348). -/
structure Linked (s : State) (dst p : Nat) (rt : W64) : Prop where
  remote : dst ≠ s.cgNode ∧ dst < 4096
  entry  : rt = s.routeEnt dst false ∧ bitAt rt 63 = true ∧ fld rt 1 0 = p
  up     : s.pState p = pUp
  idle   : (s.cport p).txq = []
  room   : (s.cport p).retry.length < 64

/-- Port p after the message m has left by it alone in the next DATA frame, with the route of rt and its first hop taken (R345, R349). -/
def State.sentOn (s : State) (p : Nat) (rt : W64) (m : CMsg) : CPort :=
  let x := s.cport p
  let m := { m with hops := BitVec.ofNat 5 (fld rt 52 48), hidx := 1#5, route := BitVec.ofNat 48 (fld rt 47 0) }
  { x with retry := x.retry ++ [(x.txSeq, [{ msg := m, at_ := s.now, sent := true }])], txSeq := (x.txSeq + 1) % 4096,
           sentAt := if x.retry.isEmpty then s.now else x.sentAt }

/-- The message m has left by port p, and nothing by another. -/
def Left (s t : State) (p : Nat) (rt : W64) (m : CMsg) : Prop := t.cport p = s.sentOn p rt m ∧ ∀ k, k ≠ p → t.cport k = s.cport k

/-- Transaction identifier k is the lowest never used (R320, R353, R356). -/
def FreshTxn (s : State) (k : Nat) : Prop :=
  k < 65536 ∧ (s.txn k).phase = .free ∧ (s.txn k).freedAt = 0 ∧ ∀ j, j < k → ¬ ((s.txn j).phase = .free ∧ (s.txn j).freedAt = 0)

/-- A word that leaves a node, and enters one, as it is (R355): no pointer, QUE, DEV, REM, RAWW or structural word. -/
def Plain (s : State) (w : Word) : Prop :=
  s.isPtr w.tag = false ∧ w.tag ≠ Tag.que ∧ w.tag ≠ Tag.dev ∧ w.tag ≠ Tag.rem ∧ w.tag ≠ Tag.raww ∧ isStructural w.tag = false ∧
  s.malformed w = false

/-- The oldest delivered message of its kind, between the others. -/
structure Inbox (s : State) (m : CMsg) (pre post : List CMsg) : Prop where
  box   : s.cg.inbox = pre ++ m :: post
  first : ∀ y ∈ pre, y.kind ≠ m.kind

/-- A live transaction of this node that m answers and that no REFINC waits for (R356). -/
structure Answered (s : State) (m : CMsg) (k : Nat) : Prop where
  ident : m.txid.toNat = k
  live  : (s.txn k).phase = .live
  gen   : (s.txn k).gen = m.txgen.toNat
  alone : ∀ e ∈ s.cg.txns, e.2.phase = .live → e.2.parent ≠ some k

/-- Transaction k has ended: its generation advances and its number rests (R356). -/
def Ended (s t : State) (k : Nat) : Prop :=
  t.txn k = { phase := .ash, gen := nextGen (s.txn k).gen } ∧ (∀ j, j ≠ k → t.txn j = s.txn j) ∧
  t.ash = s.ash ++ [{ kind := .txn, ident := k, expiry := t.now + 2000000 }]


/-- The phases of L lose lock (R369): their flags and events, their tracking, of which the crossing l stays, and their channels, which go off with RUN
255 and ACC kept; the other phases and channels stay. -/
structure LockLost (s t : State) (L : Nat → Prop) (l : Nat → Option Nat) : Prop where
  lost : ∀ q, q < 3 → L q → t.zcLocked q = false ∧ t.rb Reg.STK_SSTAT (10 + q) = false ∧ t.rb Reg.STK_SSTAT (5 + q) = true ∧
    t.zc q = { last := l q }
  kept : ∀ q, q < 3 → ¬ L q → t.ioR (Reg.STK_ZCSTAT q) = s.ioR (Reg.STK_ZCSTAT q) ∧ t.zc q = s.zc q ∧
    t.rb Reg.STK_SSTAT (10 + q) = s.rb Reg.STK_SSTAT (10 + q) ∧ t.rb Reg.STK_SSTAT (5 + q) = s.rb Reg.STK_SSTAT (5 + q)
  off  : ∀ c q, c < 256 → s.chPhase c = q + 1 → L q →
    t.chOn c = false ∧ t.chRun c = 255 ∧ t.chAcc c = s.chAcc c ∧ Tab.get t.stk.ho c false = false
  rest : ∀ c, c < 256 → (∀ q, s.chPhase c = q + 1 → ¬ L q) →
    t.ioR (Reg.STK_CHSTAT c) = s.ioR (Reg.STK_CHSTAT c) ∧ Tab.get t.stk.ho c false = Tab.get s.stk.ho c false

/-- Group g has gone to SAFE with a cause (R380): ENABLE is 0, its source pulses, and its channels are off with RUN 255 and ACC 0. -/
structure WentSafe (s t : State) (g cause : Nat) : Prop where
  ctl   : t.ioR (Reg.STK_GCTL g) = setFld (setFld (s.ioR (Reg.STK_GCTL g)) 6 4 cause) 2 2 0
  pulse : t.pulses = s.pulses ++ [309 + g]
  off   : ∀ c, c < 256 → s.chPhase c ≠ 0 → s.chGroup c = g →
    t.chOn c = false ∧ t.chRun c = 255 ∧ t.chAcc c = 0 ∧ Tab.get t.stk.ho c false = false
  rest  : ∀ c, c < 256 → ¬ (s.chPhase c ≠ 0 ∧ s.chGroup c = g) →
    t.ioR (Reg.STK_CHSTAT c) = s.ioR (Reg.STK_CHSTAT c) ∧ Tab.get t.stk.ho c false = Tab.get s.stk.ho c false
  pwm   : ∀ k, k < 32 → t.pwm k = if s.rb (Reg.PWM_PWCFG k) 2 = true ∧ s.rf (Reg.PWM_PWCFG k) 6 4 = g then { s.pwm k with run := false } else s.pwm k


/-- The entries of a table rise by their keys. -/
def Rising {α : Type} (t : Tab α) : Prop := t.Pairwise (fun a b => a.1 < b.1)

/-- A record with a code and a detail has gone to HLOGPTR.NEXT of the log SRAM, with RTC and, while the core rail is up, TIMENS (R428). -/
structure Logged (s t : State) (code detail : Nat) : Prop where
  words : let a := 0xF100000000 + 4 * s.rf Reg.HRTH_HLOGPTR 7 0
    Tab.get t.mem a 0#80 = Ecc.encode (fixW (putFld 63 56 code ||| putFld 55 0 detail)) ∧
    Tab.get t.mem (a + 1) 0#80 = Ecc.encode (fixW (s.ioR Reg.HRTH_RTC)) ∧
    Tab.get t.mem (a + 2) 0#80 = Ecc.encode (fixW (if s.railUp then s.ioR Reg.CGL_TIMENS else 0#64)) ∧
    Tab.get t.mem (a + 3) 0#80 = Ecc.encode (fixW 0#64)
  rest  : ∀ pa, isLog pa = true → (∀ k, k < 4 → pa ≠ 0xF100000000 + 4 * s.rf Reg.HRTH_HLOGPTR 7 0 + k) → Tab.get t.mem pa 0#80 = Tab.get s.mem pa 0#80
  next  : let n := s.rf Reg.HRTH_HLOGPTR 7 0
    let x := s.ioR Reg.HRTH_HLOGPTR
    t.ioR Reg.HRTH_HLOGPTR = setFld (if n = 255 then setFld x 63 32 (fld x 63 32 + 1) else x) 7 0 ((n + 1) % 256)

/-- What Hearth keeps of its own state through a chip reset (R407), with the state the device comes to. -/
def State.hearthKept (s : State) (dev : DevSt) : HearthSt :=
  { dev := dev, resetN := s.hs.resetN, hot := s.hs.hot, vioLost := s.hs.vioLost, jtag := s.hs.jtag, cells := s.hs.cells,
    dbgSt := s.hs.dbgSt, dbgWord := s.hs.dbgWord }

/-- The chip has been reset (R407, R423): the cause is logged with its detail and stands in HRSTC; the HRTH registers, the log SRAM, the secure
store, OTP and the flash device stay; every other register is at its reset value; and all else is as a reset leaves it. -/
structure WasReset (s t : State) (cause detail : Nat) (mon : Option Nat) (h : HearthSt) : Prop where
  log   : Logged s t 0x01 (cause + 256 * detail)
  lost  : ∀ pa, isLog pa = false → Tab.get t.mem pa 0#80 = 0#80
  cause : let x := setFld (setFld (s.ioR Reg.HRTH_HRSTC) 63 48 (min (s.rf Reg.HRTH_HRSTC 63 48 + 1) 65535)) 7 0 cause
    t.ioR Reg.HRTH_HRSTC = match mon with | none => x | some m => setFld x 15 8 m
  flags : t.ioR Reg.HRTH_HSTATE = setFld (s.ioR Reg.HRTH_HSTATE) 0 0 0 ∧ t.ioR Reg.HRTH_SMSTAT = setFld (s.ioR Reg.HRTH_SMSTAT) 2 2 0
  kept  : ∀ a, 0xFF00D00000 ≤ a → a < 0xFF00D10000 → a ≠ Reg.HRTH_HRSTC → a ≠ Reg.HRTH_HSTATE → a ≠ Reg.HRTH_SMSTAT →
    a ≠ Reg.HRTH_HLOGPTR → t.ioR a = s.ioR a
  regs  : ∀ a, ¬ (0xFF00D00000 ≤ a ∧ a < 0xFF00D10000) → t.ioR a = regReset a
  rest  : ∃ mem io, t =
    { pending := s.pending, freeCtr := s.freeCtr, lastRead := s.lastRead, mem := mem, io := io, flash := s.flash, hs := h,
      sec := { otp := s.sec.otp, pwds := s.sec.pwds, fails := s.sec.fails, nexts := s.sec.nexts } }

/-- The command answers the chip's reset with a cause. -/
def Resets (s : State) (i : Instr) (cause detail : Nat) (mon : Option Nat) (h : HearthSt) : Prop :=
  ∃ t, exec i s = .next t ∧ WasReset s t cause detail mon h

/-- Core c has just started at a place of its partition, with every register at its reset value but the pairing of its cluster (R62, R414). -/
def StartedAt (s t : State) (c sel off : Nat) : Prop :=
  t.core c = { run := .run, ip := { sel := sel, off := off, idx := 0 }, cr := (t.core c).cr } ∧
  ∀ k, t.crR c k = if k = CRN.cst then setFld (crReset k) 9 9 (s.crF c k 9 9) else crReset k


/-- A frame of the service protocol that the device sends before ACCEPT, and one that it sends in an open session, with SEQ and MAC (R474). -/
def State.plainFrame (typ : Nat) (body : List Octet) : List Octet :=
  [1#8, BitVec.ofNat 8 typ, 0#8, 0#8] ++ octetsOf 4 (n64 body.length) ++ octetsOf 8 0#64 ++ body
def State.securedFrame (s : State) (typ : Nat) (body : List Octet) : List Octet :=
  let f := [1#8, BitVec.ofNat 8 typ, 0#8, 0#8] ++ octetsOf 4 (n64 body.length) ++ octetsOf 8 (n64 s.sec.sess.seqOut) ++ body
  f ++ (Config.hmac s.sec.sess.ks f).take 16

/-- The session is open and the next frame is a COMMAND of a code, with the right MAC and SEQ; b is what follows the code (R474, R479). -/
structure Ordered (s : State) (carried : List Octet) (code : Nat) (b : List Octet) : Prop where
  open_ : s.sessOpen = true
  frame : ∃ f, s.nextIn carried = some (f, true) ∧ State.fOk f true = true ∧ State.fType f = 6 ∧ numAt f 16 1 = code ∧ State.fMac f = State.macOf s.sec.sess.ks f ∧
    State.fSeq f = s.sec.sess.seqIn ∧ (State.fBody f).drop 1 = b

/-- The session's role may issue the command here (Table 19-3, R480, R481). -/
def State.mayIssue (s : State) (code : Nat) : Prop :=
  let r := s.sec.sess.role
  (s.inRecovery = true → code = 0x01 ∨ code = 0x11 ∨ code = 0x18 ∨ code = 0x20 ∨ code = 0x30 ∨ code = 0x32) ∧
  (s.inRecovery = false → code ≠ 0x18) ∧
  ((code = 0x01 ∨ code = 0x02) ∨ (code = 0x10 ∧ (r = 1 ∨ r = 2)) ∨ ((code = 0x11 ∨ code = 0x12 ∨ code = 0x20 ∨ code = 0x38) ∧ r ≤ 2) ∨
   ((code = 0x18 ∨ code = 0x32) ∧ r ≤ 1) ∨ ((code = 0x21 ∨ code = 0x31 ∨ code = 0x39) ∧ r = 0) ∨
   (code = 0x30 ∧ (r = 0 ∨ (r = 1 ∧ s.sec.otp.provLock = false))))

/-- A command of the session has been answered with REPLY: the frame has been taken, its SEQ and the reply's are counted. -/
structure Replied (s t : State) (code : Octet) (data : List Octet) : Prop where
  sent  : t.sec.sout = s.sec.sout ++ s.securedFrame 0x07 (code :: data)
  taken : t.sec.frames = if s.inRecovery then s.sec.frames else s.sec.frames.tail
  sess  : t.sec.sess = { s.sec.sess with seqIn := s.sec.sess.seqIn + 1, seqOut := s.sec.sess.seqOut + 1, last := s.now, flashed := t.sec.sess.flashed }

/-- The security block, with what an answer to a command moves taken from t. -/
def State.secAnswer (s t : State) : SecSt :=
  { s.sec with sout := t.sec.sout, frames := t.sec.frames, sess := t.sec.sess }


/-- The core rail is down and nothing runs: no core executes, memory is in its canonical form, and no waiting command brings the rail up or, as
a debug access of a booting device can, writes a register. -/
structure Quiet (s : State) : Prop where
  rail  : s.railUp = false
  still : ∀ c, (s.core c).run ≠ .run
  canon : Memory.wf s.mem = true
  queue : ∀ i ∈ s.pending, (∀ a b ok, i ≠ .coldBoot a b ok) ∧ (∀ n ok, i ≠ .emberExit n ok) ∧ ∀ acc, i ≠ .jtagDbgacc acc

/-- The commands of Hearth and of the JTAG port, which stay powered while the core rail is down (R407, R493). -/
def Hearthly (i : Instr) : Prop :=
  (∃ m, i = .supplyWarn m ∨ i = .supplyTrip m) ∨ (∃ n, i = .wakeSource n) ∨ (∃ n, i = .chipReset n) ∨ (∃ n ok, i = .emberExit n ok) ∨
  (∃ a b ok, i = .coldBoot a b ok) ∨ (∃ l, i = .jtagSamplePreload l) ∨ (∃ acc, i = .jtagDbgacc acc) ∨
  i ∈ ([.supplyRecovered, .thermalReset, .thermalColdRelease, .vioReturn, .vhearthLoss, .powerOnReset, .resetNPin, .resetNRelease,
    .jtagExtest, .jtagClamp, .jtagHighz, .jtagDbgrst, .jtagBypass] : List Instr)

end Sys2Proof.Machine
end

