-- ==== Sys2Proof/Certificates/Slice0/Obligations.lean ====
section
/-!
DEFINITION. The statements about the model.
-/

open Sys2Proof Sys2Proof.Machine

/-- A step runs the command at the front of the queue with the queue's rest; with an empty queue the block idles (the model's choice,
notes/assumptions/2.md). -/
def Obligations.StepRunsFront : Prop :=
  (∀ (s : State) (i : Instr) (q : List Instr), step (s.withPending (i :: q)) = exec i (s.withPending q)) ∧
  ∀ s : State, s.pending = [] → step s = .next s

/-! Instructions that touch only registers. -/

/-- The raw instructions (R127, R128, R129, Tables 5-4 and 5-5), on FIX or RAWW operands. Those with flags write their 64-bit result as a FIX word, and
N, Z, C and V together; DIVW and MODW give the quotient truncated toward zero and the remainder with the sign of a, MIN ÷ −1 returning MIN with
V set, and a zero divisor faults DIV0 for operand b. Those without flags are bitwise, shift by bits 6:0 of the count with 0 or the sign fill from
64 on, rotate modulo 64, and count leading zeros and ones; ASR and FSR stay. -/
def Obligations.RawArithmetic : Prop :=
  (∀ (s : State) (c : CoreId) (d a b : RegN) (imm : BitVec 13), AtEase s c.val → rawTag (s.reg c.val a.val) →
     let x := (s.reg c.val a.val).pay
     let y := (s.reg c.val b.val).pay
     let v : W64 := imm.signExtend 64
     (rawTag (s.reg c.val b.val) →
       GivesFlags s (.addw c d a b) c d (fixW (x + y)) (x + y).msb (decide (x + y = 0#64)) (decide (2 ^ 64 ≤ x.toNat + y.toNat))
         (decide (outOf64 (x.toInt + y.toInt))) ∧
       GivesFlags s (.subw c d a b) c d (fixW (x - y)) (x - y).msb (decide (x - y = 0#64)) (decide (x.toNat < y.toNat))
         (decide (outOf64 (x.toInt - y.toInt))) ∧
       GivesFlags s (.mulw c d a b) c d (fixW (x * y)) (x * y).msb (decide (x * y = 0#64)) (decide (2 ^ 64 ≤ x.toNat * y.toNat))
         (decide (outOf64 (x.toInt * y.toInt)))) ∧
     GivesFlags s (.negw c d a) c d (fixW (-x)) (-x).msb (decide (x = 0#64)) (decide (x ≠ 0#64)) (decide (x = BitVec.intMin 64)) ∧
     GivesFlags s (.addwi c d a imm) c d (fixW (x + v)) (x + v).msb (decide (x + v = 0#64)) (decide (2 ^ 64 ≤ x.toNat + v.toNat))
       (decide (outOf64 (x.toInt + v.toInt)))) ∧
  (∀ (s : State) (c : CoreId) (d a b : RegN), AtEase s c.val → rawTag (s.reg c.val a.val) → rawTag (s.reg c.val b.val) →
     let x := (s.reg c.val a.val).pay
     let y := (s.reg c.val b.val).pay
     (y ≠ 0#64 →
       GivesFlags s (.divw c d a b) c d (fixW (x.sdiv y)) (x.sdiv y).msb (decide (x.sdiv y = 0#64)) false
         (decide (x = BitVec.intMin 64 ∧ y = -1#64)) ∧
       GivesFlags s (.modw c d a b) c d (fixW (x.srem y)) (x.srem y).msb (decide (x.srem y = 0#64)) false false) ∧
     (y = 0#64 →
       Faults s (.divw c d a b) c (.of .div0 2) (opndsDAB d a b) ∧ Faults s (.modw c d a b) c (.of .div0 2) (opndsDAB d a b))) ∧
  (∀ (s : State) (c : CoreId) (d a b : RegN) (imm : BitVec 13), AtEase s c.val → rawTag (s.reg c.val a.val) →
     let x := (s.reg c.val a.val).pay
     let y := (s.reg c.val b.val).pay
     let n := y.toNat % 128
     let m := imm.toNat % 128
     let v : W64 := imm.setWidth 64
     (rawTag (s.reg c.val b.val) →
       Gives s (.andw c d a b) c d (fixW (x &&& y)) ∧ Gives s (.orw c d a b) c d (fixW (x ||| y)) ∧
       Gives s (.xorw c d a b) c d (fixW (x ^^^ y)) ∧
       Gives s (.shlw c d a b) c d (fixW (if 64 ≤ n then 0#64 else x <<< n)) ∧
       Gives s (.shrw c d a b) c d (fixW (if 64 ≤ n then 0#64 else x >>> n)) ∧
       Gives s (.sarw c d a b) c d (fixW (if 64 ≤ n then (if x.msb then -1#64 else 0#64) else x.sshiftRight n)) ∧
       Gives s (.rolw c d a b) c d (fixW (x.rotateLeft (y.toNat % 64)))) ∧
     Gives s (.notw c d a) c d (fixW (~~~x)) ∧
     Gives s (.clzw c d a) c d (fixN (64 - (if x = 0#64 then 0 else Nat.log2 x.toNat + 1))) ∧
     Gives s (.popw c d a) c d (fixN ((List.range 64).countP (fun i => x.getLsbD i))) ∧
     Gives s (.andwi c d a imm) c d (fixW (x &&& v)) ∧ Gives s (.orwi c d a imm) c d (fixW (x ||| v)) ∧
     Gives s (.xorwi c d a imm) c d (fixW (x ^^^ v)) ∧
     Gives s (.shlwi c d a imm) c d (fixW (if 64 ≤ m then 0#64 else x <<< m)) ∧
     Gives s (.shrwi c d a imm) c d (fixW (if 64 ≤ m then 0#64 else x >>> m)) ∧
     Gives s (.sarwi c d a imm) c d (fixW (if 64 ≤ m then (if x.msb then -1#64 else 0#64) else x.sshiftRight m)))

/-- Generic integer arithmetic on FIX words whose exact result fits in a FIX (R108, R109, R110, R114, R116): the result is that FIX word; N, Z, C
and V and the sticky bits stay (R111). -/
def Obligations.FixArithmetic : Prop :=
  ∀ (s : State) (c : CoreId) (d a b : RegN) (imm : BitVec 13), AtEase s c.val → (s.reg c.val a.val).tag = Tag.fix →
    let x := (s.reg c.val a.val).pay.toInt
    let y := (s.reg c.val b.val).pay.toInt
    let v := imm.toInt
    ((s.reg c.val b.val).tag = Tag.fix →
      (¬ outOf64 (x + y) → Gives s (.add c d a b) c d (fixI (x + y))) ∧
      (¬ outOf64 (x - y) → Gives s (.sub c d a b) c d (fixI (x - y))) ∧
      (¬ outOf64 (x * y) → Gives s (.mul c d a b) c d (fixI (x * y))) ∧
      (y ≠ 0 →
        (¬ outOf64 (x.fdiv y) → Gives s (.div c d a b) c d (fixI (x.fdiv y))) ∧
        (¬ outOf64 (x.tdiv y) → Gives s (.quo c d a b) c d (fixI (x.tdiv y))) ∧
        Gives s (.mod c d a b) c d (fixI (x - y * x.fdiv y))) ∧
      (0 ≤ y → ¬ outOf64 (x * 2 ^ y.toNat) → Gives s (.ashl c d a b) c d (fixI (x * 2 ^ y.toNat))) ∧
      (0 ≤ y → Gives s (.ashr c d a b) c d (fixI (x.fdiv (2 ^ y.toNat)))) ∧
      (y = 0 →
        Faults s (.div c d a b) c (.of .div0 2) (opndsDAB d a b) ∧ Faults s (.quo c d a b) c (.of .div0 2) (opndsDAB d a b) ∧
        Faults s (.mod c d a b) c (.of .div0 2) (opndsDAB d a b))) ∧
    (¬ outOf64 (-x) → Gives s (.neg c d a) c d (fixI (-x))) ∧
    (¬ outOf64 |x| → Gives s (.abs c d a) c d (fixI |x|)) ∧
    (¬ outOf64 (x + v) → Gives s (.addi c d a imm) c d (fixI (x + v))) ∧
    (¬ outOf64 (x - v) → Gives s (.subi c d a imm) c d (fixI (x - v))) ∧
    (¬ outOf64 (x * v) → Gives s (.muli c d a imm) c d (fixI (x * v)))

/-- Ordering and identity (R33, R108, R121, R122): FIX words compare by value, MIN and MAX return the operand chosen, a where both are
equal; EQ and EQI compare all 72 bits of any words. -/
def Obligations.OrderAndIdentity : Prop :=
  ∀ (s : State) (c : CoreId) (d a b : RegN) (imm : BitVec 13), AtEase s c.val →
    let va := s.reg c.val a.val
    let vb := s.reg c.val b.val
    let x := va.pay.toInt
    let y := vb.pay.toInt
    let v := imm.toInt
    let ord (p q : Int) : Int := if p < q then -1 else if p = q then 0 else 1
    (va.tag = Tag.fix → vb.tag = Tag.fix →
      Gives s (.cmp c d a b) c d (fixI (ord x y)) ∧ Gives s (.lt c d a b) c d (boolW (decide (x < y))) ∧
      Gives s (.le c d a b) c d (boolW (decide (x ≤ y))) ∧ Gives s (.numeq c d a b) c d (boolW (decide (x = y))) ∧
      Gives s (.min c d a b) c d (if x ≤ y then va else vb) ∧ Gives s (.max c d a b) c d (if y ≤ x then va else vb)) ∧
    (va.tag = Tag.fix →
      Gives s (.cmpi c d a imm) c d (fixI (ord x v)) ∧ Gives s (.lti c d a imm) c d (boolW (decide (x < v))) ∧
      Gives s (.lei c d a imm) c d (boolW (decide (x ≤ v)))) ∧
    Gives s (.eq c d a b) c d (boolW (decide (va.tag = vb.tag ∧ va.pay = vb.pay))) ∧
    Gives s (.eqi c d a imm) c d (boolW (decide (va.tag = Tag.fix ∧ va.pay = imm.signExtend 64)))

/-- Moves, tags and constants (R42, R135, R136, R137, R126's QTYDIM). -/
def Obligations.MovesAndTags : Prop :=
  ∀ (s : State) (c : CoreId) (d a b : RegN) (x : BitVec 8) (imm : BitVec 18), AtEase s c.val →
    let va := s.reg c.val a.val
    let vb := s.reg c.val b.val
    Gives s (.mov c d a) c d va ∧ Gives s (.tagof c d a) c d (fixN va.tag.toNat) ∧
    Gives s (.null c d a) c d (boolW (decide (va = nilW))) ∧ Gives s (.tagp c d a x) c d (boolW (decide (va.tag = x))) ∧
    (va.tag ≠ Tag.void → s.isReserved va.tag = false → s.malformed va = false → va ≠ unboundW →
      Gives s (.notI c d a) c d (boolW (decide (va = nilW ∨ va = falseW)))) ∧
    Gives s (.movi c d imm) c d (fixW (imm.signExtend 64)) ∧
    (imm.toNat ≤ 4 → Gives s (.immi c d imm) c d ⟨Tag.imm, imm.setWidth 64⟩) ∧
    (¬ (0xD800 ≤ imm.toNat ∧ imm.toNat ≤ 0xDFFF) → Gives s (.chri c d imm) c d ⟨Tag.chr, imm.setWidth 64⟩) ∧
    (s.sup c.val = true → Gives s (.rawof c d a) c d (fixW va.pay)) ∧
    (va.tag = Tag.qty → Gives s (.qtydim c d a) c d (fixN (va.pay.toNat % 2 ^ 18))) ∧
    (s.sup c.val = true → rawTag va → vb.tag = Tag.fix → vb.pay.toNat < 256 → s.isReserved (vb.pay.setWidth 8) = false →
      vb.pay.setWidth 8 ≠ Tag.fwd → Gives s (.tagset c d a b) c d ⟨vb.pay.setWidth 8, va.pay⟩) ∧
    (s.sup c.val = false → va.tag = Tag.cons → Faults s (.rawof c d a) c (.of .priv) (opndsDA d a))

/-- Conversions (R123, R124, R126, R119, Table 5-3), FLO results being IEEE results under FSR.RM as Machine/Float.lean computes them. -/
def Obligations.Conversions : Prop :=
  ∀ (s : State) (c : CoreId) (d a b : RegN), AtEase s c.val →
    let va := s.reg c.val a.val
    let vb := s.reg c.val b.val
    let vd := s.reg c.val d.val
    let rm := s.fsrRm c.val
    (va.tag = Tag.fix →
      GivesSticky s (.fixflo c d a) c d ⟨Tag.flo, (Flo.ofInt va.pay.toInt rm).1⟩ (Flo.ofInt va.pay.toInt rm).2 false) ∧
    (va.tag = Tag.flo →
      (Flo.isFin va.pay = true → ¬ outOf64 (Flo.toInt va.pay rm).1 →
        GivesSticky s (.flofix c d a) c d (fixI (Flo.toInt va.pay rm).1) (if (Flo.toInt va.pay rm).2 then 0#5 else FFlags.nx) false) ∧
      (Flo.isFin va.pay = false → Faults s (.flofix c d a) c (.of .tag 1) (opndsDA d a)) ∧
      GivesSticky s (.fsqrt c d a) c d ⟨Tag.flo, (Flo.sqrt va.pay rm).1⟩ (Flo.sqrt va.pay rm).2 false ∧
      (vb.tag = Tag.flo → vd.tag = Tag.flo →
        GivesSticky s (.fma c d a b) c d ⟨Tag.flo, (Flo.fma va.pay vb.pay vd.pay rm).1⟩ (Flo.fma va.pay vb.pay vd.pay rm).2 false)) ∧
    (va.tag = Tag.qty →
      Gives s (.qtyval c d a) c d ⟨Tag.flo, (Flo.roundQ ⟨sfld va.pay 63 18, 65536⟩ 0).1⟩) ∧
    (va.tag = Tag.fix → -(2 ^ 29) ≤ va.pay.toInt → va.pay.toInt < 2 ^ 29 → vb.tag = Tag.fix → vb.pay.toNat < 2 ^ 18 →
      Gives s (.qtymk c d a b) c d ⟨Tag.qty, BitVec.ofInt 64 (va.pay.toInt * 2 ^ 34 + vb.pay.toNat)⟩)

/-- A pair word of two MOV.S (R97, R98, Table 4-4): both halves read before either writes, each writes its register, and one
index passes; the second writing the register that the first writes or reading it is ILLEGAL_PAIR. -/
def Obligations.PairOfMoves : Prop :=
  ∀ (s : State) (c : CoreId) (d1 r1 d2 r2 : RegN), AtEase s c.val →
    let p : ShortOp := ⟨1#5, d1, BitVec.ofNat 5 r1.val⟩
    let q : ShortOp := ⟨1#5, d2, BitVec.ofNat 5 r2.val⟩
    (d1 ≠ d2 → d1 ≠ r2 → ∃ t, exec (.pairWord c p q) s = .next t ∧ t.reg c.val d1.val = s.reg c.val r1.val ∧
      t.reg c.val d2.val = s.reg c.val r2.val ∧ Keeps s t c.val [d1.val, d2.val] false (regGrp d1.val ||| regGrp d2.val)) ∧
    (d1 = d2 ∨ d1 = r2 → exec (.pairWord c p q) s = .next (s.takeFault c.val (.of .illegalPair) 0#64))

/-! Instructions that access memory. -/

/-- CAR and CDR (R142, R54, R132): the words of a CONS cell, and NIL of NIL. -/
def Obligations.ListReads : Prop :=
  ∀ (s : State) (c : CoreId) (d a : RegN), AtEase s c.val →
    (s.reg c.val a.val = nilW → Gives s (.car c d a) c d nilW ∧ Gives s (.cdr c d a) c d nilW) ∧
    ∀ (p0 p1 : Nat) (v0 v1 : Word), Settled s c.val → Cell s c.val (s.reg c.val a.val) p0 p1 v0 v1 →
      Loads s (.car c d a) c d v0 ∧ Loads s (.cdr c d a) c d v1

/-- SETCAR and SETCDR (R142, R37, R132, R246): the word of register a becomes the car or the cdr of the cell that d names. -/
def Obligations.ListStores : Prop :=
  ∀ (s : State) (c : CoreId) (d a : RegN) (p0 p1 : Nat), AtEase s c.val → Settled s c.val →
    let p := s.reg c.val d.val
    let w := s.reg c.val a.val
    p.tag = Tag.cons → s.malformed p = false → Reaches s c.val (ptrSel p.pay) (ptrOff p.pay) .write p0 →
      Reaches s c.val (ptrSel p.pay) (ptrOff p.pay + 1) .write p1 →
    (Storable s c.val (ptrSel p.pay) (ptrOff p.pay) p0 w → StoresAt s (.setcar c d a) c p0 w) ∧
    (Storable s c.val (ptrSel p.pay) (ptrOff p.pay + 1) p1 w → StoresAt s (.setcdr c d a) c p1 w)

/-- The walks (R143, R144, Table 6-3): LEN and NTHCDR count the cells passed, MEMQ, ASSQ and LAST search, REVX reverses in place; each takes one cell
a step, by the instruction and by WALK_STEP alike, and ends as its row says. WALK_STEP of a core in no walk does nothing, and in a MEMQ walk at NIL it
ends the walk. -/
def Obligations.ListWalks : Prop :=
  (∀ (s : State) (c : CoreId) (d a b : RegN) (cmd : Instr), AtEase s c.val →
     let va := s.reg c.val a.val
     let vb := s.reg c.val b.val
     let vd := s.reg c.val d.val
     let nb := fixW (vb.pay - 1#64)
     (stepOf s cmd (.len c d a b) c → d ≠ a → d ≠ b → (vb = nilW ∨ (vb.tag = Tag.fix ∧ 0 ≤ vb.pay.toInt)) → vd.tag = Tag.fix →
       ((va.tag ≠ Tag.cons ∨ vb = fixN 0) → ∃ t, exec cmd s = .next t ∧ Keeps s t c.val [] false 0) ∧
       ∀ (p0 p1 : Nat) (v0 v1 : Word), Settled s c.val → Cell s c.val va p0 p1 v0 v1 → vb ≠ fixN 0 → vd.pay ≠ 0x7FFFFFFFFFFFFFFF#64 →
         (vb = nilW → Walks s cmd (.len c d a b) c [(a.val, v1), (d.val, fixW (vd.pay + 1#64))] (decide (v1.tag ≠ Tag.cons))) ∧
         (vb.tag = Tag.fix → Walks s cmd (.len c d a b) c [(a.val, v1), (d.val, fixW (vd.pay + 1#64)), (b.val, nb)]
           (decide (v1.tag ≠ Tag.cons ∨ nb = fixN 0)))) ∧
     (stepOf s cmd (.nthcdr c d a b) c → vb.tag = Tag.fix → 0 ≤ vb.pay.toInt →
       ((va.tag ≠ Tag.cons ∨ vb = fixN 0) → ∃ t, exec cmd s = .next t ∧ t.reg c.val d.val = va ∧ Keeps s t c.val [d.val] false (regGrp d.val)) ∧
       ∀ (p0 p1 : Nat) (v0 v1 : Word), Settled s c.val → Cell s c.val va p0 p1 v0 v1 → vb ≠ fixN 0 →
         ((v1.tag ≠ Tag.cons ∨ nb = fixN 0) → d ≠ b →
           Walks s cmd (.nthcdr c d a b) c [(a.val, v1), (b.val, nb), (d.val, v1)] true) ∧
         ((v1.tag ≠ Tag.cons ∨ nb = fixN 0) → d = b → Walks s cmd (.nthcdr c d a b) c [(a.val, v1), (d.val, v1)] true) ∧
         (v1.tag = Tag.cons → nb ≠ fixN 0 → Walks s cmd (.nthcdr c d a b) c [(a.val, v1), (b.val, nb)] false))) ∧
  (∀ (s : State) (c : CoreId) (d a b : RegN) (cmd : Instr) (p0 p1 : Nat) (v0 v1 : Word), AtEase s c.val → Settled s c.val →
     let va := s.reg c.val a.val
     let vb := s.reg c.val b.val
     (stepOf s cmd (.memq c d a b) c →
       (vb = nilW → Walks s cmd (.memq c d a b) c [(d.val, nilW)] true) ∧
       (Cell s c.val vb p0 p1 v0 v1 →
         (v0 = va → Walks s cmd (.memq c d a b) c [(d.val, vb)] true) ∧
         (v0 ≠ va → v1 = nilW → Walks s cmd (.memq c d a b) c [(b.val, nilW), (d.val, nilW)] true) ∧
         (v0 ≠ va → v1 ≠ nilW → Walks s cmd (.memq c d a b) c [(b.val, v1)] false))) ∧
     (stepOf s cmd (.assq c d a b) c →
       (vb = nilW → Walks s cmd (.assq c d a b) c [(d.val, nilW)] true) ∧
       ∀ (q0 q1 : Nat) (k k' : Word), Cell s c.val vb p0 p1 v0 v1 → Cell s c.val v0 q0 q1 k k' →
         (k = va → Walks s cmd (.assq c d a b) c [(d.val, v0)] true) ∧
         (k ≠ va → v1 = nilW → Walks s cmd (.assq c d a b) c [(b.val, nilW), (d.val, nilW)] true) ∧
         (k ≠ va → v1 ≠ nilW → Walks s cmd (.assq c d a b) c [(b.val, v1)] false)) ∧
     (stepOf s cmd (.last c d a) c →
       (va = nilW → Walks s cmd (.last c d a) c [(d.val, nilW)] true) ∧
       (Cell s c.val va p0 p1 v0 v1 →
         (v1.tag = Tag.cons → Walks s cmd (.last c d a) c [(a.val, v1)] false) ∧
         (v1.tag ≠ Tag.cons → Walks s cmd (.last c d a) c [(d.val, va)] true)))) ∧
  (∀ (s : State) (c : CoreId) (d a : RegN) (cmd : Instr), AtEase s c.val → d ≠ a → stepOf s cmd (.revx c d a) c →
     let va := s.reg c.val a.val
     let vd := s.reg c.val d.val
     (va.tag ≠ Tag.cons → ∃ t, exec cmd s = .next t ∧ Keeps s t c.val [] false 0) ∧
     ∀ (p0 p1 : Nat) (v0 v1 : Word), Settled s c.val → Cell s c.val va p0 p1 v0 v1 → Reaches s c.val (ptrSel va.pay) (ptrOff va.pay) .write p0 →
       Storable s c.val (ptrSel va.pay) (ptrOff va.pay + 1) p1 vd →
       Walks s cmd (.revx c d a) c [(d.val, va), (a.val, v1)] (decide (v1.tag ≠ Tag.cons)) (· = p1) ∧
       ∃ t, exec cmd s = .next t ∧ t.peekWord p1 = (vd, .ok)) ∧
  (∀ (s : State) (c : CoreId), ((s.core c.val).walk = none → Idle s (.walkStep c)) ∧
     ∀ d a b : RegN, AtEase s c.val → (s.core c.val).walk = some (.memq c d a b) → s.reg c.val b.val = nilW →
       Walks s (.walkStep c) (.memq c d a b) c [(d.val, nilW)] true)

/-- Loads and stores at a segment offset, no repeat being active (R76, R132, R146, R148, R246, R248): LDS and STS, the copies MOVS and MOVSB, and
ADDS, MAXS and MINS on FIX words. -/
def Obligations.SegmentAccess : Prop :=
  ∀ (s : State) (c : CoreId) (d a : RegN) (sg sgd : SgN) (imm : BitVec 9) (off pa : Nat) (w : Word), AtEase s c.val → Settled s c.val →
    let va := s.reg c.val a.val
    let vd := s.reg c.val d.val
    va.tag = Tag.fix →
    (va.pay.toInt + imm.toInt = off → s.regionOk pa = true →
      (Holds s c.val (s.sgR c.val sg.val) off .read pa w →
        Loads s (.lds c d a sg imm) c d w ∧
        (w.tag = Tag.fix → vd.tag = Tag.fix →
          (¬ outOf64 (vd.pay.toInt + w.pay.toInt) → Loads s (.adds c d a sg imm) c d (fixI (vd.pay.toInt + w.pay.toInt))) ∧
          Loads s (.maxs c d a sg imm) c d (if w.pay.toInt ≤ vd.pay.toInt then vd else w) ∧
          Loads s (.mins c d a sg imm) c d (if vd.pay.toInt ≤ w.pay.toInt then vd else w))) ∧
      (Storable s c.val (s.sgR c.val sg.val) off pa vd → StoresAt s (.sts c d a sg imm) c pa vd)) ∧
    ∀ (off2 pd : Nat), d ≠ a → vd.tag = Tag.fix → va.pay.toInt = off → vd.pay.toInt = off2 → s.regionOk pa = true → s.regionOk pd = true →
      Holds s c.val (s.sgR c.val sg.val) off .read pa w → Storable s c.val (s.sgR c.val sgd.val) off2 pd w →
      StoresAt s (.movs c d a sg sgd) c pd w ∧ StoresAt s (.movsb c d a sg sgd) c pd w

/-- Loads and stores of object elements (R54, R56, R132, R146, R147): LDP, LDE, STP and STE on the body words of any object and
on the two words of a cell, LDB and STB on the octets of a BYT, and SIZEOF. -/
def Obligations.ObjectAccess : Prop :=
  ∀ (s : State) (c : CoreId) (d a b : RegN) (imm : BitVec 9) (n hpa pa : Nat) (hdr : W64) (w : Word), AtEase s c.val → Settled s c.val →
    let p := s.reg c.val a.val
    let vb := s.reg c.val b.val
    let vd := s.reg c.val d.val
    let o := ptrOff p.pay
    (Object s c.val p hpa hdr →
      (p.tag ≠ Tag.byt → Loads s (.sizeof c d a) c d (fixN (fld hdr 39 0))) ∧
      (p.tag = Tag.byt → fld hdr 47 40 ≤ 8 * fld hdr 39 0 → Loads s (.sizeof c d a) c d (fixN (8 * fld hdr 39 0 - fld hdr 47 40))) ∧
      (n < fld hdr 39 0 →
        (Holds s c.val (ptrSel p.pay) (o + 1 + n) .read pa w →
          (imm.toInt = n → Loads s (.ldp c d a imm) c d w) ∧ (vb = fixN n → Loads s (.lde c d a b) c d w)) ∧
        (bitAt hdr 55 = false → Storable s c.val (ptrSel p.pay) (o + 1 + n) pa vd →
          (imm.toInt = n → StoresAt s (.stp c d a imm) c pa vd) ∧ (vb = fixN n → StoresAt s (.ste c d a b) c pa vd))) ∧
      (p.tag = Tag.byt → n < 8 * fld hdr 39 0 - fld hdr 47 40 → vb = fixN n →
        (Holds s c.val (ptrSel p.pay) (o + 1 + n / 8) .read pa w →
          Loads s (.ldb c d a b) c d (fixN (fld w.pay (8 * (n % 8) + 7) (8 * (n % 8))))) ∧
        (vd.tag = Tag.fix → vd.pay.toNat < 256 → bitAt hdr 55 = false →
          Storable s c.val (ptrSel p.pay) (o + 1 + n / 8) pa
            ⟨Tag.raww, setFld (s.peekWord pa).1.pay (8 * (n % 8) + 7) (8 * (n % 8)) vd.pay.toNat⟩ →
          StoresAt s (.stb c d a b) c pa ⟨Tag.raww, setFld (s.peekWord pa).1.pay (8 * (n % 8) + 7) (8 * (n % 8)) vd.pay.toNat⟩))) ∧
    (p.tag = Tag.cons → s.malformed p = false →
      Gives s (.sizeof c d a) c d (fixN 2) ∧
      (n ≤ 1 → ∀ p0 p1 v0 v1,
        (Cell s c.val p p0 p1 v0 v1 →
          (imm.toInt = n → Loads s (.ldp c d a imm) c d (if n = 0 then v0 else v1)) ∧
          (vb = fixN n → Loads s (.lde c d a b) c d (if n = 0 then v0 else v1))) ∧
        (Reaches s c.val (ptrSel p.pay) o .write p0 → Reaches s c.val (ptrSel p.pay) (o + 1) .write p1 →
          Storable s c.val (ptrSel p.pay) (o + n) pa vd →
          (imm.toInt = n → StoresAt s (.stp c d a imm) c pa vd) ∧ (vb = fixN n → StoresAt s (.ste c d a b) c pa vd))))

/-- LDK (R57, R137): element imm of the constants vector of the executing CODE object. -/
def Obligations.Constants : Prop :=
  ∀ (s : State) (c : CoreId) (d : RegN) (imm : BitVec 18) (kpa hpa pa : Nat) (k w : Word) (hdr : W64), AtEase s c.val → Settled s c.val →
    Holds s c.val (s.core c.val).ip.sel ((s.core c.val).ip.off + 2) .exec kpa k → k.tag = Tag.vec → Object s c.val k hpa hdr →
    imm.toNat < fld hdr 39 0 → Holds s c.val (ptrSel k.pay) (ptrOff k.pay + 1 + imm.toNat) .read pa w → Loads s (.ldk c d imm) c d w

/-- Reservations (R133, R151, R152): RESERVE delivers the word and reserves its line; COMMIT either stores and answers TRUE or stores nothing
and answers FALSE, the latter without a reservation of the line; through a segment register a reservation held makes it store. -/
def Obligations.Reservations : Prop :=
  ∀ (s : State) (c : CoreId) (d a b : RegN) (x : BitVec 5) (sel off pa : Nat) (w : Word), AtEase s c.val → Settled s c.val →
    let va := s.reg c.val a.val
    let vb := s.reg c.val b.val
    let vd := s.reg c.val d.val
    (Names s c.val va vb x .read sel off pa w →
      ∃ t, exec (.reserve c d a b x) s = .next t ∧ t.reg c.val d.val = w ∧ (t.core c.val).resv = some (pa / 8) ∧
        KeepsMem s t c.val [d.val] false (regGrp d.val) (fun _ => False) (s.nextIp c.val)) ∧
    (Names s c.val va vb x .write sel off pa w → Storable s c.val sel off pa vd →
      ∃ t, exec (.commit c d a b x) s = .next t ∧ (t.core c.val).resv = none ∧
        ((t.reg c.val d.val = trueW ∧ t.peekWord pa = (vd, .ok) ∧
            KeepsMem s t c.val [d.val] false (regGrp d.val) (· = pa) (s.nextIp c.val)) ∨
         (t.reg c.val d.val = falseW ∧ KeepsMem s t c.val [d.val] false (regGrp d.val) (fun _ => False) (s.nextIp c.val))) ∧
        ((s.core c.val).resv ≠ some (pa / 8) → t.reg c.val d.val = falseW) ∧
        ((s.core c.val).resv = some (pa / 8) → x.getLsbD 0 = true → t.reg c.val d.val = trueW))

/-- SWAP, FADD and CAS2 (R133, R153, R154). SWAP and FADD deliver the old word and store the register's word or the sum; a FIX pair adds as ADDW with
its flags, a QTY pair of equal dimensions exactly. Where both words of the even pair equal d and d + 1, CAS2 stores both from d + 2 and d + 3 and
d + 2 becomes TRUE; else the two words are delivered to d and d + 1 and d + 2 becomes FALSE. -/
def Obligations.AtomicExchanges : Prop :=
  (∀ (s : State) (c : CoreId) (d a b : RegN) (x : BitVec 5) (sel off pa : Nat) (w : Word), AtEase s c.val → Settled s c.val →
     let va := s.reg c.val a.val
     let vb := s.reg c.val b.val
     let vd := s.reg c.val d.val
     let p := w.pay
     let r := vd.pay
     Names s c.val va vb x .write sel off pa w → Storable s c.val sel off pa vd →
     (∃ t, exec (.swap c d a b x) s = .next t ∧ t.reg c.val d.val = w ∧ t.peekWord pa = (vd, .ok) ∧
       KeepsMem s t c.val [d.val] false (regGrp d.val) (· = pa) (s.nextIp c.val)) ∧
     (w.tag = Tag.fix → vd.tag = Tag.fix →
       ∃ t, exec (.fadd c d a b x) s = .next t ∧ t.reg c.val d.val = w ∧ t.peekWord pa = (fixW (p + r), .ok) ∧
         t.asrR c.val = setFld (s.asrR c.val) 3 0 ((p + r).msb.toNat * 8 + (decide (p + r = 0#64)).toNat * 4 +
           (decide (2 ^ 64 ≤ p.toNat + r.toNat)).toNat * 2 + (decide (outOf64 (p.toInt + r.toInt))).toNat) ∧
         t.fsrR c.val = s.fsrR c.val ∧
         KeepsMem s t c.val [d.val] true (regGrp d.val ||| grpQ) (· = pa) (s.nextIp c.val)) ∧
     (w.tag = Tag.qty → vd.tag = Tag.qty → fld p 17 0 = fld r 17 0 → -(2 ^ 45) ≤ sfld p 63 18 + sfld r 63 18 →
       sfld p 63 18 + sfld r 63 18 < 2 ^ 45 →
       ∃ t v, exec (.fadd c d a b x) s = .next t ∧ t.reg c.val d.val = w ∧ t.peekWord pa = (⟨Tag.qty, v⟩, .ok) ∧
         sfld v 63 18 = sfld p 63 18 + sfld r 63 18 ∧ fld v 17 0 = fld p 17 0 ∧
         KeepsMem s t c.val [d.val] false (regGrp d.val) (· = pa) (s.nextIp c.val))) ∧
  (∀ (s : State) (c : CoreId) (d a b : RegN) (x : BitVec 5) (sel off pa : Nat) (m0 m1 : Word), AtEase s c.val → Settled s c.val →
     let r := fun k => s.reg c.val (d.val + k)
     let vb := s.reg c.val b.val
     d.val % 4 = 0 → pa % 2 = 0 →
     Names s c.val (s.reg c.val a.val) vb x .write sel off pa m0 →
     Names s c.val (s.reg c.val a.val) ⟨vb.tag, vb.pay + 1#64⟩ x .write sel (off + 1) (pa + 1) m1 →
     Storable s c.val sel off pa (r 2) → Storable s c.val sel (off + 1) (pa + 1) (r 3) →
     (m0 = r 0 → m1 = r 1 →
       ∃ t, exec (.cas2 c d a b x) s = .next t ∧ t.reg c.val (d.val + 2) = trueW ∧ t.peekWord pa = (r 2, .ok) ∧
         t.peekWord (pa + 1) = (r 3, .ok) ∧
         KeepsMem s t c.val [d.val + 2] false (regGrp d.val) (fun q => q = pa ∨ q = pa + 1) (s.nextIp c.val)) ∧
     (¬ (m0 = r 0 ∧ m1 = r 1) →
       ∃ t, exec (.cas2 c d a b x) s = .next t ∧ t.reg c.val d.val = m0 ∧ t.reg c.val (d.val + 1) = m1 ∧ t.reg c.val (d.val + 2) = falseW ∧
         KeepsMem s t c.val [d.val, d.val + 1, d.val + 2] false (regGrp d.val) (fun _ => False) (s.nextIp c.val)))

/-- New objects in an allocation area with room (R53, R54, R149, R150, R249, R251): CONS, ALLOC, ALLOCB and CLOSE answer a pointer of their kind
to the first word taken, and write the object's header and body. -/
def Obligations.Allocation : Prop :=
  ∀ (s : State) (c : CoreId) (d a b : RegN) (n h r top : Nat), AtEase s c.val → Settled s c.val → Room s c.val n h r top →
    let va := s.reg c.val a.val
    let vb := s.reg c.val b.val
    let off := r * 131072 + top
    let base := s.heapBase h + off
    let made (i : Instr) (kind : Nat) (words : Nat) (ok : State → Prop) : Prop :=
      ∃ t, exec i s = .next t ∧ t.reg c.val d.val = ⟨BitVec.ofNat 8 kind, ptrPay (s.heapSel h) off⟩ ∧ ok t ∧
        KeepsMem (s.taken c.val n h r top) t c.val [d.val] false (regGrp d.val) (fun q => base ≤ q ∧ q < base + words) (s.nextIp c.val)
    let headed (t : State) (kind sz aux : Nat) : Prop :=
      ∃ hd, t.peekWord base = (⟨Tag.hdr, hd⟩, .ok) ∧ fld hd 63 56 = kind ∧ fld hd 39 0 = sz ∧ fld hd 47 40 = aux ∧
        bitAt hd 55 = decide (kind = 0x0E) ∧ bitAt hd 54 = false ∧ bitAt hd 51 = false ∧ fld hd 53 52 = 0 ∧ fld hd 50 48 = 0
    (n = 2 → Fits s c.val h va → Fits s c.val h vb →
      made (.cons c d a b) 0x08 2 (fun t => t.peekWord base = (va, .ok) ∧ t.peekWord (base + 1) = (vb, .ok))) ∧
    (∀ k sz : Nat, va = fixN k → k < 256 → s.allocKind k = true → vb = fixN sz → allocSize k sz = true → sz < 2 ^ 40 → n = 2 * ((sz + 2) / 2) →
      (s.sup c.val = true ∨ (k ≠ 0x0E ∧ k ≠ 0x10)) →
      made (.alloc c d a b) k (1 + sz) (fun t => headed t k sz 0 ∧
        ∀ i, i < sz → t.peekWord (base + 1 + i) = (if k = 0x0B ∨ k = 0x10 then ⟨Tag.raww, 0#64⟩ else Word.void, .ok))) ∧
    (∀ k : Nat, va = fixN k → k < 2 ^ 43 → n = 2 * (((k + 7) / 8 + 2) / 2) →
      made (.allocb c d a) 0x0B (1 + (k + 7) / 8) (fun t => headed t 0x0B ((k + 7) / 8) ((k + 7) / 8 * 8 - k) ∧
        ∀ i, i < (k + 7) / 8 → t.peekWord (base + 1 + i) = (⟨Tag.raww, 0#64⟩, .ok))) ∧
    (∀ k : Nat, va.tag = Tag.code → s.malformed va = false → vb = fixN k → k ≤ 8 → n = 2 * ((k + 3) / 2) → Fits s c.val h va →
      (∀ i, i < k → Fits s c.val h (s.reg c.val (16 + i))) →
      made (.close c d a b) 0x0D (2 + k) (fun t => headed t 0x0D (1 + k) 0 ∧ t.peekWord (base + 1) = (va, .ok) ∧
        ∀ i, i < k → t.peekWord (base + 2 + i) = (s.reg c.val (16 + i), .ok)))

/-! The Dealer's queues and timers, and the windows of units. -/

/-- Queues (R155, R156, R283–R288, R290, Table 11-1). An accepted item goes to the head of the waiter list, else behind the others of its class's
ring; QPUSH takes the queue's default class, QDEAL the class of b; QTRY answers the count. QPOP and QWAIT deliver the first item of the lowest-numbered
class to d to d + 3; on an empty queue QPOP answers EOF, and QWAIT waits at the end of the waiter list; an item dealt to the waiting core enters its quad
and the QWAIT retires. In supervisor mode QNEW makes a FREE queue LIVE and empty with its configuration and answers its handle with both rights; QFREE of
an empty one advances its generation and rests its number in the Ash list, its timers cancelled. -/
def Obligations.Queues : Prop :=
  (∀ (s : State) (c : CoreId) (d a b : RegN) (q : Nat), AtEase s c.val →
     let h := s.reg c.val a.val
     let vb := s.reg c.val b.val
     let x := s.queue q
     let accepts (i : Instr) (cls : Nat) : Prop :=
       ∃ t, exec i s = .next t ∧ t.queue q = x.accept cls (s.quad c.val d.val) ∧ (∀ k, k ≠ q → t.queue k = s.queue k) ∧
         KeepsUnit s t c.val [] false 0 (fun _ => False) { s with queues := t.queues, qcache := t.qcache }
     let answers (i : Instr) (w : Word) : Prop :=
       ∃ t, exec i s = .next t ∧ t.reg c.val d.val = w ∧ KeepsUnit s t c.val [d.val] false (regGrp d.val) (fun _ => False) { s with qcache := t.qcache }
     (Handle s c.val h q true → d.val % 4 = 0 → x.count < cfgCap x.cfg →
       accepts (.qpush c d a) (cfgDcls x.cfg) ∧ (vb.tag = Tag.fix → vb.pay.toNat ≤ 3 → accepts (.qdeal c d a b) vb.pay.toNat)) ∧
     (Handle s c.val h q false → answers (.qtry c d a) (fixN x.count) ∧ (x.items = [] → d.val % 4 = 0 → answers (.qpop c d a) eofW))) ∧
  (∀ (s : State) (c : CoreId) (d a : RegN) (q p : Nat) (pre post : List (Option Nat × Nat × Item)) (e : Nat × Item), d.val % 4 = 0 →
     s.queueOwner q = some p → s.cycleHeap p = none →
     (s.sweep.heap = none ∨ (e.2.w0.tag ≠ Tag.rem ∧ e.2.w1.tag ≠ Tag.rem ∧ e.2.w2.tag ≠ Tag.rem ∧ e.2.w3.tag ≠ Tag.rem)) →
     let h := s.reg c.val a.val
     let x := s.queue q
     let quad := [d.val, d.val + 1, d.val + 2, d.val + 3]
     let pops (i : Instr) : Prop :=
       ∃ t, exec i s = .next t ∧ t.quad c.val d.val = e.2 ∧ t.queue q = { x with held := pre ++ post } ∧
         (∀ k, k ≠ q → t.queue k = s.queue k) ∧
         KeepsUnit s t c.val quad false (regGrp d.val) (fun _ => False) { s with queues := t.queues, qcache := t.qcache }
     (AtEase s c.val → Handle s c.val h q false →
       (x.held = pre ++ (none, e) :: post → e.1 < 4 → (∀ y ∈ pre, y.1 = none → e.1 < y.2.1) → (∀ y ∈ post, y.1 = none → e.1 ≤ y.2.1) →
         pops (.qpop c d a) ∧ pops (.qwait c d a)) ∧
       (x.items = [] →
         ∃ t, exec (.qwait c d a) s = .next t ∧ (t.core c.val).wait = .qwait q d.val h.pay ∧
           t.queue q = { x with waiters := x.waiters ++ [c.val] } ∧ (t.core c.val).ip = (s.core c.val).ip)) ∧
     ∀ (w : W64), (s.core c.val).wait = .qwait q d.val w → s.running c.val = true → s.repAct c.val = false →
       s.dbgOn c.val = false → x.held = pre ++ (some c.val, e) :: post → (∀ y ∈ pre, y.1 ≠ some c.val) →
       ∃ t, exec (.qwaitItemCommit c) s = .next t ∧ t.quad c.val d.val = e.2 ∧ (t.core c.val).wait = .none ∧
         t.queue q = { x with held := pre ++ post } ∧ (∀ k, k ≠ q → t.queue k = s.queue k) ∧
         KeepsUnit s t c.val quad false (regGrp d.val) (fun _ => False)
           { s.modCore c.val (fun y => { y with wait := .none }) with queues := t.queues, qcache := t.qcache }) ∧
  (∀ (s : State) (c : CoreId) (d a b : RegN) (q : Nat), AtEase s c.val → s.sup c.val = true →
     let va := s.reg c.val a.val
     let cfg := (s.reg c.val b.val).pay.toNat
     let p := s.corePart c.val
     let x := s.queue q
     let r := s.ioR (Reg.DLR_QRANGE p)
     let next := if 65535 ≤ x.gen then 1 else x.gen + 1
     ((s.reg c.val b.val).tag = Tag.fix → s.dealerOff = false → bitAt r 63 = true → cfgOk cfg = true →
       cfgCap cfg ≤ s.poolFree p → (cfgRes cfg = true → s.lockedCount < 2048) →
       ((va = fixN q ∧ q < 2 ^ 16 ∧ fld r 15 0 ≤ q ∧ q < fld r 15 0 + fld r 32 16 ∧ x.phase = .free) ∨ (va = nilW ∧ s.freeNumber p = some q)) →
       ∃ t, exec (.qnew c d a b) s = .next t ∧ t.reg c.val d.val = queWord q (if x.gen = 0 then 1 else x.gen) true true ∧
         t.queue q = { x with phase := .live, gen := if x.gen = 0 then 1 else x.gen, cfg := cfg, held := [], waiters := [] } ∧
         (∀ k, k ≠ q → t.queue k = s.queue k) ∧
         t.ioR (Reg.DLR_QPOOL p) = setFld (s.ioR (Reg.DLR_QPOOL p)) 63 32 (s.rf (Reg.DLR_QPOOL p) 63 32 + cfgCap cfg) ∧
         KeepsUnit s t c.val [d.val] false (regGrp d.val) (· = Reg.DLR_QPOOL p) { s with queues := t.queues, qcache := t.qcache }) ∧
     (Handle s c.val va q false → (∀ k, (s.timer k).part < 16) → x.held = [] → x.waiters = [] → Tab.wf s.timers {} = true →
       ∃ t, exec (.qfree c a) s = .next t ∧ t.queue q = { x with phase := .ash, gen := next } ∧ t.inAsh .queue q = true ∧
         (∀ k, k ≠ q → t.queue k = s.queue k) ∧
         (∀ k, t.timer k = if (s.timer k).armed ∧ (s.timer k).queue = q ∧ (s.timer k).qgen = x.gen then { gen := nextGen (s.timer k).gen } else s.timer k) ∧
         t.ioR (Reg.DLR_QPOOL p) = setFld (s.ioR (Reg.DLR_QPOOL p)) 63 32 (s.rf (Reg.DLR_QPOOL p) 63 32 - cfgCap x.cfg) ∧
         KeepsUnit s t c.val [] false 0 (fun k => k = Reg.DLR_QPOOL p ∨ ∃ j, k = Reg.DLR_TUSE j)
           { s with queues := t.queues, qcache := t.qcache, timers := t.timers, ash := t.ash }))

/-- TSET (R155, R295): arming takes a free timer slot outside the Ash list (which one the spec leaves open), with the quad as its item and the
due time v · 2^−16 s after the arming instant, past for v < 0, and answers its identifier; cancelling one's own armed timer of the queue answers TRUE
and retires it, any other identifier FALSE. -/
def Obligations.Timers : Prop :=
  ∀ (s : State) (c : CoreId) (d a b : RegN) (q : Nat), AtEase s c.val → d.val % 4 = 0 →
    let h := s.reg c.val a.val
    let vb := s.reg c.val b.val
    let vd := s.reg c.val d.val
    let p := s.corePart c.val
    let v := sfld vb.pay 63 18
    Handle s c.val h q true →
    (vb.tag = Tag.qty → fld vb.pay 17 0 = 0x200 → s.rf (Reg.DLR_TUSE p) 20 0 < s.rf (Reg.DLR_QRANGE p) 62 42 →
      (∃ k, k < 1048576 ∧ (s.timer k).armed = false ∧ s.inAsh .timer k = false) →
      ∃ t k, exec (.tsetArm c d a b) s = .next t ∧ k < 1048576 ∧ (s.timer k).armed = false ∧ s.inAsh .timer k = false ∧
        t.reg c.val d.val = fixW (putFld 35 20 (s.timer k).gen ||| putFld 19 0 k) ∧
        t.timer k = { armed := true, gen := (s.timer k).gen, part := p, queue := q, qgen := queGen h.pay,
                      armAt := s.now, due := (s.now : Int) * 65536 + v * 1000000000, item := s.quad c.val d.val } ∧
        (∀ j, j ≠ k → t.timer j = s.timer j) ∧
        t.ioR (Reg.DLR_TUSE p) = setFld (s.ioR (Reg.DLR_TUSE p)) 20 0 (s.rf (Reg.DLR_TUSE p) 20 0 + 1) ∧
        KeepsUnit s t c.val [d.val] false (regGrp d.val) (· = Reg.DLR_TUSE p) { s with timers := t.timers, freeCtr := t.freeCtr, qcache := t.qcache }) ∧
    (vb = nilW → vd.tag = Tag.fix →
      let k := fld vd.pay 19 0
      let x := s.timer k
      let mine := x.armed = true ∧ x.gen = fld vd.pay 35 20 ∧ x.part = p ∧ x.queue = q ∧ x.qgen = queGen h.pay
      (mine → ∃ t, exec (.tsetCancel c d a b) s = .next t ∧ t.reg c.val d.val = trueW ∧ t.timer k = { gen := nextGen x.gen } ∧
        t.inAsh .timer k = true ∧ (∀ j, j ≠ k → t.timer j = s.timer j) ∧
        KeepsUnit s t c.val [d.val] false (regGrp d.val) (· = Reg.DLR_TUSE p)
          { s with timers := t.timers, ash := t.ash, qcache := t.qcache }) ∧
      (¬ mine → ∃ t, exec (.tsetCancel c d a b) s = .next t ∧ t.reg c.val d.val = falseW ∧
        KeepsUnit s t c.val [d.val] false (regGrp d.val) (fun _ => False) { s with qcache := t.qcache }))

/-- DEVRD and DEVWR (R50, R159, R160, Table 6-12): with the window's unit owned by the core's partition, an index inside the window and the
right, they read and write the register of the window as the core's own access of it would; an index that names no register reads as zero,
and a write of it has no effect but for the doorbell of an interrupt source. -/
def Obligations.UnitWindows : Prop :=
  ∀ (s : State) (c : CoreId) (d a b : RegN) (i : Nat), AtEase s c.val →
    let h := s.reg c.val a.val
    let vd := s.reg c.val d.val
    let cls := fld h.pay 63 56
    let u := fld h.pay 15 0
    let q := Req.core c
    h.tag = Tag.dev → s.malformed h = false → s.reg c.val b.val = fixN i → fld h.pay 55 52 = s.corePart c.val →
      s.devOwned (s.corePart c.val) cls u = true → i < devSize cls →
    (bitAt h.pay 40 = true → s.devReg cls u i = none → Gives s (.devrd c d a b) c d (fixN 0)) ∧
    (∀ r : DevReg, bitAt h.pay 40 = true → s.devReg cls u i = some r →
      let x := s.ioRead q r.pa (s.coreCtx c.val).peek
      exec (.devrd c d a b) s = .next ((x.2.setReg c.val d.val (fixW x.1)).retire c.val .seq) ∧
      (x.2.cores = s.cores → x.2.dbgOn c.val = false → ∃ t, exec (.devrd c d a b) s = .next t ∧ t.reg c.val d.val = fixW x.1 ∧
        Keeps x.2 t c.val [d.val] false (regGrp d.val))) ∧
    (rawTag vd → s.devReg cls u i = none → ¬ (cls = 0x0D ∧ i = 3) → ∃ t, exec (.devwr c d a b) s = .next t ∧ Keeps s t c.val [] false 0) ∧
    (rawTag vd → bitAt h.pay 41 = true → cls = 0x0D → i = 3 →
      exec (.devwr c d a b) s = .next ((s.raiseDoorbell (s.corePart c.val) u).retire c.val .seq)) ∧
    ∀ r : DevReg, rawTag vd → bitAt h.pay 41 = true → bitAt h.pay 42 = true → s.devReg cls u i = some r → ¬ (cls = 0x01 ∧ i = 0) → r.wr ||| r.ct ≠ 0#64 →
      let x := s.ioWrite q r.pa vd.pay
      exec (.devwr c d a b) s = .next (x.retire c.val .seq) ∧
      (x.cores = s.cores → x.dbgOn c.val = false → ∃ t, exec (.devwr c d a b) s = .next t ∧ Keeps x t c.val [] false 0)

/-! Control flow. -/

/-- Branches and jumps (R42, R92, R139): the tests of Table 6-2; not taken, execution goes on; taken, it goes on at the index plus disp, which
lies inside the CODE object. -/
def Obligations.Branches : Prop :=
  ∀ (s : State) (c : CoreId) (a : RegN) (disp : BitVec 18) (far : BitVec 23) (n : Nat), AtEase s c.val →
    let w := s.reg c.val a.val
    let ip := (s.core c.val).ip
    let stays (i : Instr) : Prop := ∃ t, exec i s = .next t ∧ Keeps s t c.val [] false 0
    let goes (i : Instr) (by_ : Int) : Prop := Executes s c.val n → 0 ≤ ip.idx + by_ → ip.idx + by_ < 2 * n →
      ∃ t, exec i s = .next t ∧ KeepsMem s t c.val [] false 0 (fun _ => False) { ip with idx := (ip.idx + by_).toNat }
    let branch (i : Instr) (test : Prop) : Prop := (¬ test → stays i) ∧ (test → goes i disp.toInt)
    (w.tag ≠ Tag.void → s.isReserved w.tag = false → s.malformed w = false → w ≠ unboundW →
      branch (.bt c a disp) (w ≠ nilW ∧ w ≠ falseW) ∧ branch (.bf c a disp) (w = nilW ∨ w = falseW)) ∧
    branch (.bnil c a disp) (w = nilW) ∧ branch (.bnnil c a disp) (w ≠ nilW) ∧
    (rawTag w → branch (.bzw c a disp) (w.pay = 0#64) ∧ branch (.bnzw c a disp) (w.pay ≠ 0#64)) ∧
    goes (.jmp c far) far.toInt

/-- CALL, TCALL and RET (R63, R64, R89, R90, R140, R141): CALL moves CHP to the next hand, whose i7 holds the return word and i6 the
function; TCALL keeps the hand and hands the outs on as its ins; a VAR entry finds the argument count in l7; RET goes back to the
place that i7 names, one hand down. -/
def Obligations.Calls : Prop :=
  ∀ (s : State) (c : CoreId) (a : RegN) (n : BitVec 3) (k f w0 : Word) (dest : Ip), AtEase s c.val → Settled s c.val →
    let ip := (s.core c.val).ip
    let count := if bitAt w0.pay 63 then [23] else []
    (n ≠ 7#3 → Callee s c.val (s.reg c.val a.val) k f → Callable s c.val k w0 dest → Accepts w0 n.toNat →
      (s.snap c.val = false → s.handN c.val < 15 →
        ∃ t, exec (.call c a n) s = .next t ∧ t.reg c.val 31 = ⟨Tag.ret, retPay { ip with idx := ip.idx + 1 }⟩ ∧ t.reg c.val 30 = f ∧
          (bitAt w0.pay 63 = true → t.reg c.val 23 = fixN n.toNat) ∧
          KeepsMem (s.moveChp c.val 1) t c.val ([31, 30] ++ count) false (grpW ||| grpC) (fun _ => False) dest) ∧
      ∃ t, exec (.tcall c a n) s = .next t ∧ (∀ j, j < 6 → t.reg c.val (24 + j) = s.reg c.val (8 + j)) ∧ t.reg c.val 30 = f ∧
        (bitAt w0.pay 63 = true → t.reg c.val 23 = fixN n.toNat) ∧
        KeepsMem s t c.val ([24, 25, 26, 27, 28, 29, 30] ++ count) false grpW (fun _ => False) dest) ∧
    ∀ (r : Word) (m pa : Nat) (x : Word), s.reg c.val 31 = r → r.tag = Tag.ret → s.snap c.val = false → s.handN c.val ≠ 1 →
      Callable s c.val ⟨Tag.code, ptrPay (retSel r.pay) (retOff r.pay)⟩ w0 dest → fld w0.pay 31 0 = m → retIdx r.pay < 2 * m →
      Holds s c.val (retSel r.pay) (retOff r.pay + 4 + retIdx r.pay / 2) .exec pa x →
      ∃ t, exec (.ret c) s = .next t ∧
        KeepsMem (s.moveChp c.val 15) t c.val [] false grpC (fun _ => False) { sel := retSel r.pay, off := retOff r.pay, idx := retIdx r.pay }

/-- Repeats (R101, R102, Table 4-5): a prefix latches its count for the target after it, and passes both where the count is 0; an iteration
of STS stores, steps the offset register and counts down, and the last one ends the repeat behind the target. -/
def Obligations.Repeats : Prop :=
  ∀ (s : State) (c : CoreId) (src : RepSrc) (m n : Nat) (d a : RegN) (sg : SgN) (imm : BitVec 9) (w : BitVec 32), Executes s c.val m →
    let ip := (s.core c.val).ip
    CodeAt s c.val m (ip.idx + 1) w →
    w.toNat = 0x59 * 2 ^ 23 + d.val * 2 ^ 18 + a.val * 2 ^ 13 + sg.val * 2 ^ 9 + imm.toNat →
    let latched (i : Instr) (v : W64) (where_ : Ip) : Prop :=
      ∃ t, exec i s = .next t ∧ t.rptR c.val = v ∧ KeepsMem (s.rptW c.val v) t c.val [] false grpC (fun _ => False) where_
    (AtEase s c.val → n < 2 ^ 32 → (match src with | .reg r => s.reg c.val r.val = fixN n | .imm k => k.toNat = n) →
      (n ≠ 0 → latched (.repI c src) (putFld 32 32 1 ||| putFld 31 0 n) ip) ∧
      (n = 0 → latched (.repI c src) 0#64 { ip with idx := ip.idx + 2 }) ∧
      (n ≤ (s.part (s.corePart c.val)).repLim → (match src with | .reg _ => True | .imm _ => n < 64) →
        (n ≠ 0 → latched (.repN c src) (putFld 33 33 1 ||| putFld 32 32 1 ||| putFld 31 0 n) ip) ∧
        (n = 0 → latched (.repN c src) (putFld 33 33 1) { ip with idx := ip.idx + 2 }))) ∧
    ∀ (off pa : Nat), s.ready c.val = true → s.dbgOn c.val = false → (s.snap c.val = true ∨ s.crF c.val CRN.gds 12 8 = 0) →
      s.repAct c.val = true → fld (s.rptR c.val) 31 0 = n + 1 →
      let va := s.reg c.val a.val
      let vd := s.reg c.val d.val
      let v := setBit (setFld (s.rptR c.val) 31 0 n) 32 (decide (n ≠ 0))
      va.tag = Tag.fix → va.pay.toInt + imm.toInt = off → s.regionOk pa = true → Storable s c.val (s.sgR c.val sg.val) off pa vd →
      ∃ t, exec (.repeatIteration c) s = .next t ∧ t.peekWord pa = (vd, .ok) ∧ t.reg c.val a.val = fixW (va.pay + 1#64) ∧ t.rptR c.val = v ∧
        KeepsMem (s.rptW c.val v) t c.val [a.val] false (regGrp a.val ||| grpC) (· = pa)
          (if n = 0 then { ip with idx := ip.idx + 2 } else ip)

/-- The custom page (R100, R188, R190, R192, R195, R196, R198): the instruction of a slot enters its routine, here one microword that
moves source A to the destination and ends; nothing is written before its commit point; the commit applies the shadow and retires
the instruction; a RESTART point at which an enabled event is pending discards the shadow and leaves the hold. -/
def Obligations.CustomPage : Prop :=
  ∀ (s : State) (c : CoreId) (slot : Fin 48) (d a b : RegN) (x : BitVec 8) (w : BitVec 128),
    let e := s.decEntry c.val (0xD0 + slot.val)
    let ua := fld e 13 0
    (AtEase s c.val → bitAt e 31 = true → (bitAt e 29 = true → s.sup c.val = true) → 0x2000 ≤ ua → Tab.get s.wcs ua 0#128 = w →
      Tab.get s.ucBad (c.val / 8 * 2 ^ 14 + ua) false = false → Image.mField w 67 65 = 0 → Image.mField w 91 86 = 1 →
      Image.mField w 85 80 = 1 → Image.mField w 73 68 = 0 → Image.mField w 105 103 = 4 → Image.mField w 127 125 = 0 →
      ∃ t m, exec (.customInstruction c slot d a b x) s = .next t ∧ (t.core c.val).micro = some m ∧ m.act = 4 ∧ m.stores = [] ∧
        m.opd = some (s.reg c.val a.val) ∧ m.d = d.val ∧ (∀ r, t.reg c.val r = s.reg c.val r) ∧ (t.core c.val).ip = (s.core c.val).ip ∧
        (∀ k, t.crR c.val k = s.crR c.val k) ∧ (∀ k, k ≠ c.val → t.core k = s.core k) ∧
        t = { s with cores := t.cores, io := t.io } ∧ ∀ r, ¬ sideRegs r → ¬ runRegs c.val r → t.ioR r = s.ioR r) ∧
    ∀ m : MicroSt, (s.core c.val).micro = some m → s.running c.val = true → s.dbgOn c.val = false →
      (∀ v, m.act = 4 → m.stores = [] → m.opa = none → m.opb = none → m.opd = some v → m.d < 32 → s.repAct c.val = false →
        ∃ t, exec (.microCommit c) s = .next t ∧ t.reg c.val m.d = v ∧ (t.core c.val).micro = none ∧
          Keeps (s.modCore c.val (fun y => { y with micro := none })) t c.val [m.d] false (regGrp m.d)) ∧
      (m.act = 3 → s.eventPending c.val true = true →
        ∃ t, exec (.microRestartPoint c) s = .next t ∧ (t.core c.val).micro = none ∧ (t.core c.val).hold = some (s.cl c.val, (s.core c.val).ip) ∧
          (∀ r, t.reg c.val r = s.reg c.val r) ∧ (t.core c.val).ip = (s.core c.val).ip ∧ (∀ k, t.crR c.val k = s.crR c.val k) ∧
          (∀ k, k ≠ c.val → t.core k = s.core k) ∧ t = { s with cores := t.cores, io := t.io } ∧ ∀ r, ¬ runRegs c.val r → t.ioR r = s.ioR r)

/-! Exceptions and the system instructions. -/

/-- Synchronous exceptions (R168, R170, R174, Table 7-2): at CL 0 or 1 with level 2 open, a fault enters level 2 with its cause, operand and
records and the place of the instruction, a TRAP with its number and the place after it. -/
def Obligations.FaultEntry : Prop :=
  ∀ (s : State) (c : CoreId) (dest : Ip), Settled s c.val → s.cl c.val ≤ 1 → s.ml c.val < 2 →
    let ip := (s.core c.val).ip
    (∀ (e : Exn) (xop : W64), e.cause ≠ .trap → e.cause ≠ .xstack → Enterable s c.val 2 e.cause.vector dest →
      Enters s (s.takeFault c.val e xop) c.val 2 ip dest
        (putFld 17 16 e.xsub ||| putFld 7 0 e.cause.code ||| (putFld 37 28 e.trapn ||| putFld 24 22 e.group ||| putFld 21 19 e.opnd |||
          putFld 18 18 e.half.toNat)) e.xad xop (fun _ => False)) ∧
    ∀ k : BitVec 13, AtEase s c.val → k.toNat ≤ 1023 → Enterable s c.val 2 0x40 dest →
      ∃ t, exec (.trap c k) s = .next t ∧
        Enters s t c.val 2 { ip with idx := ip.idx + 1 } dest (putFld 7 0 0x40 ||| putFld 37 28 k.toNat) 0#64 0#64 (fun _ => False)

/-- Asynchronous entries (R167, R169, R174, R175): a source offered at an enabled level, with no higher one waiting, enters it at a boundary;
levels 2 to 5 and 7 by LEVEL_EVENT_ENTRY, level 6 into the Snap bank by SNAP_ENTRY. -/
def Obligations.EventEntry : Prop :=
  ∀ (s : State) (c : CoreId) (lvl : Fin 8) (dest : Ip), Settled s c.val → 2 ≤ lvl.val →
    ((s.core c.val).wait = .none ∨ (s.core c.val).wait = .doze) → s.offered c.val lvl.val = true → s.levelEnabled c.val lvl.val = true →
    s.atBoundary c.val lvl.val = true → (∀ k, lvl.val < k → k < 8 → ¬ (s.offered c.val k = true ∧ s.levelEnabled c.val k = true)) →
    Enterable s c.val lvl.val (0x40 + lvl.val) dest →
    let xca := putFld 7 0 (0x40 + lvl.val)
    (lvl.val ≠ 6 → ∃ t, exec (.levelEventEntry c lvl) s = .next t ∧
      Enters s t c.val lvl.val (s.core c.val).ip dest xca 0#64 0#64 (fun _ => False) ∧ (t.core c.val).wait = .none) ∧
    (lvl.val = 6 → ∃ t, exec (.snapEntry c) s = .next t ∧
      Enters s t c.val 6 (s.core c.val).ip dest xca 0#64 0#64 (fun _ => False) ∧ (t.core c.val).wait = .none)

/-- The debug monitor (R169, R486–R489): at CL 0, at a boundary with no enabled event waiting, and for a partition that is not a safety
partition, a BREAK hit withholds the instruction and enters level 1, as do a WATCH hit, a completed single step and the halt request;
each records its cause and hits, and the halt request is cleared. -/
def Obligations.MonitorEntry : Prop :=
  ∀ (s : State) (c : CoreId) (dest : Ip), Settled s c.val → s.running c.val = true → s.cl c.val = 0 →
    s.atBoundary c.val 1 = true → (∀ k, 2 ≤ k → k < 8 → ¬ (s.offered c.val k = true ∧ s.levelEnabled c.val k = true)) →
    (s.core c.val).wait = .none → (s.part (s.corePart c.val)).safety = false →
    let hits (k : Nat) : Prop := k = Reg.DBG_DHIT c.val
    let ip := (s.core c.val).ip
    (Enterable s c.val 1 0x48 dest → s.rb (Reg.DBG_DBGSTAT c.val) 1 = false → (s.core c.val).stopRet = none →
      (∀ pa, (s.core c.val).watchAt = none → (s.core c.val).stepAt = false → s.dbgOn c.val = true → s.rb (Reg.DBG_DBGSTAT c.val) 2 = false →
        s.fetchPa c.val ip.idx = some pa → s.breakHits c.val pa (ip.idx % 2 == 1) ≠ 0 →
        ∃ t, exec (.breakEvent c) s = .next t ∧ Enters s t c.val 1 ip dest (putFld 7 0 0x18) 0#64 0#64 hits ∧
          t.rf (Reg.DBG_DHIT c.val) 7 0 = s.breakHits c.val pa (ip.idx % 2 == 1)) ∧
      (∀ sel off bits, bits < 256 → (s.core c.val).watchAt = some (sel, off, bits) →
        ∃ t, exec (.watchEvent c) s = .next t ∧ Enters s t c.val 1 ip dest (putFld 7 0 0x17) (xadWord sel off) 0#64 hits ∧
          t.rf (Reg.DBG_DHIT c.val) 7 0 = bits ∧ (t.core c.val).watchAt = none) ∧
      ((s.core c.val).watchAt = none → (s.core c.val).stepAt = true →
        ∃ t, exec (.stepEvent c) s = .next t ∧ Enters s t c.val 1 ip dest (putFld 7 0 0x19) 0#64 0#64 hits ∧ (t.core c.val).stepAt = false)) ∧
    (Enterable s c.val 1 0x41 dest → s.rb (Reg.DBG_DBGSTAT c.val) 1 = true →
      ∃ t, exec (.haltRequestEntry c) s = .next t ∧ Enters s t c.val 1 ip dest (putFld 7 0 0x41) 0#64 0#64 (fun _ => False) ∧
        t.rb (Reg.DBG_DBGSTAT c.val) 1 = false)

/-- RETX from levels 2 to 5 to a lower one (R68, R176): the status, repeat and place come back from the save set, and CHP goes one hand
down. -/
def Obligations.ExceptionReturn : Prop :=
  ∀ (s : State) (c : CoreId), AtEase s c.val → s.sup c.val = true →
    let n := s.cl c.val
    let xst := s.crR c.val (CRN.save n 1)
    let xpc := s.crR c.val (CRN.save n 0)
    let m : W64 := fmask 8 7 ||| fmask 5 0
    2 ≤ n → n ≤ 5 → fld xst 2 0 < n → (fld xst 2 0 = 0 → s.rf (Reg.DBG_DHIT c.val) 15 8 = 0) → fld xst 5 3 < 6 → s.handN c.val ≠ 1 →
    ∃ t, exec (.retx c) s = .next t ∧ t.crR c.val CRN.cst = (s.crR c.val CRN.cst &&& ~~~m) ||| (xst &&& m) ∧
      t.crR c.val CRN.asr = putFld 9 0 (fld xst 25 16) &&& (fmask 9 8 ||| fmask 3 0) ∧
      t.crR c.val CRN.fsr = putFld 10 0 (fld xst 42 32) &&& (fmask 10 8 ||| fmask 4 0) ∧
      t.crR c.val CRN.rpt = s.crR c.val (CRN.save n 2) &&& fmask 33 0 ∧ t.chp c.val = (s.chp c.val + 15) % 16 ∧
      (t.core c.val).ip = { sel := retSel xpc, off := retOff xpc, idx := retIdx xpc } ∧
      (∀ k, k ≠ CRN.cst → k ≠ CRN.asr → k ≠ CRN.fsr → k ≠ CRN.rpt → k ≠ CRN.chp → t.crR c.val k = s.crR c.val k) ∧
      t.core c.val = { s.core c.val with cr := (t.core c.val).cr, ip := (t.core c.val).ip, accs := [], breakAt := 0 } ∧
      (∀ k, k ≠ c.val → t.core k = s.core k) ∧ t = { s with cores := t.cores, io := t.io, pulses := t.pulses } ∧
      ∀ a, ¬ sideRegs a → ¬ runRegs c.val a → t.ioR a = s.ioR a

/-- RDCR and WRCR (R69, R71, R72, R10, Table 3-3): a control register of the current bank is read as a FIX word, and written in its
writable fields; user mode reads CST, RPT, ASR and FSR and writes ASR and FSR, and any other register is PRIV to it. -/
def Obligations.ControlRegisters : Prop :=
  ∀ (s : State) (c : CoreId) (r : RegN) (k : BitVec 13), AtEase s c.val → k.toNat ≤ 0x39 →
    let n := k.toNat
    let w := s.reg c.val r.val
    let v := w.pay
    let user := n = CRN.asr ∨ n = CRN.fsr
    let value : W64 :=
      if n = CRN.cst then setBit (s.crR c.val CRN.cst) 10 (bitAt (s.rptR c.val) 32 && !bitAt (s.rptR c.val) 33)
      else if n = CRN.rpt then s.rptR c.val else if n = CRN.asr then s.asrR c.val else if n = CRN.fsr then s.fsrR c.val else s.crR c.val n
    ((s.sup c.val = true ∨ user ∨ n = CRN.cst ∨ n = CRN.rpt) → Gives s (.rdcr c r k) c r (fixW value)) ∧
    (¬ (s.sup c.val = true ∨ user ∨ n = CRN.cst ∨ n = CRN.rpt) → Faults s (.rdcr c r k) c (.of .priv) { d := some r.val }) ∧
    (¬ (s.sup c.val = true ∨ user) → Faults s (.wrcr c r k) c (.of .priv) { a := some r.val }) ∧
    ((s.sup c.val = true ∨ user) → rawTag w → n ≠ CRN.ccx →
      ∃ t, exec (.wrcr c r k) s = .next t ∧
        KeepsMem (s.crWrite c.val n v) t c.val [] false (if user then grpQ else if 1 ≤ n ∧ n ≤ 4 then grpC else 0) (fun _ => False) (s.nextIp c.val) ∧
        (n = CRN.asr → t.asrR c.val = v &&& (fmask 9 8 ||| fmask 3 0)) ∧ (n = CRN.fsr → t.fsrR c.val = v &&& (fmask 10 8 ||| fmask 4 0)) ∧
        (n = CRN.rpt → t.rptR c.val = v &&& fmask 33 0) ∧ (n = CRN.chp ∨ n = CRN.shp → t.crR c.val n = v &&& fmask 3 0) ∧
        (n = CRN.cst → t.crR c.val n = setFld (setBit (s.crR c.val n) 8 (bitAt v 8)) 5 3 (if fld v 5 3 ≤ 5 then fld v 5 3 else fld (s.crR c.val n) 5 3)) ∧
        (n = CRN.gds → t.crR c.val n = v &&& (fmask 12 11 ||| fmask 9 8 ||| fmask 4 0)) ∧
        (n = CRN.xtb → t.crR c.val n = v &&& (fmask 63 51 ||| fmask 47 0)) ∧
        (0x10 ≤ n → (n - 0x10) % 6 = 0 → t.crR c.val n = v) ∧ (0x10 ≤ n → (n - 0x10) % 6 = 2 → t.crR c.val n = v &&& fmask 33 0))

/-- WAIT and FENCE (R162, R163): WAIT passes where an enabled event is pending when it begins or arrives while it runs, else the core waits in Doze
behind it; FENCE passes where it awaits no RPUSH record. -/
def Obligations.WaitAndFence : Prop :=
  ∀ (s : State) (c : CoreId) (k : BitVec 13),
    (s.atInstr c.val = true → s.dbgOn c.val = false → s.repAct c.val = false → s.sup c.val = true →
      (s.eventPending c.val false = true → ∃ t, exec (.waitI c) s = .next t ∧ Keeps s t c.val [] false 0) ∧
      (s.eventPending c.val false = false → ∃ t, exec (.waitI c) s = .next t ∧ (t.core c.val).wait = .doze ∧
        Keeps (s.modCore c.val (fun x => { x with wait := .doze })) t c.val [] false 0)) ∧
    (AtEase s c.val → k.toNat < 16 → ¬ ((k = 0#13 ∨ k.getLsbD 2 = true) ∧ s.rpushOpen c.val = true) →
      ∃ t, exec (.fence c k) s = .next t ∧ Keeps s t c.val [] false 0)

/-- HSPILL and HFILL (R65, R66): the bottom hand's 16 registers move to the words at SPP, which moves up with SHP; and back. -/
def Obligations.HandMoves : Prop :=
  ∀ (s : State) (c : CoreId) (pa : Nat) (w : Nat → Word), AtEase s c.val → Settled s c.val → s.sup c.val = true → s.snap c.val = false →
    let spp := s.crR c.val CRN.spp
    let h := s.crF c.val CRN.shp 3 0
    let at_ (off shp : Nat) (s : State) := (s.crW c.val CRN.spp (setFld spp 47 0 off)).crSetF c.val CRN.shp 3 0 shp
    (2 < s.handN c.val → (∀ i, i < 16 → StorableBy s c.val .stackWrite (ptrSel spp) (ptrOff spp + i) (pa + i)
        (Tab.get (s.core c.val).hands (16 * h + i) Word.void)) →
      ∃ t, exec (.hspill c) s = .next t ∧ (∀ i, i < 16 → t.peekWord (pa + i) = (Tab.get (s.core c.val).hands (16 * h + i) Word.void, .ok)) ∧
        KeepsMem (at_ (ptrOff spp + 16) (h + 1) s) t c.val [] false grpC (fun q => pa ≤ q ∧ q < pa + 16) (s.nextIp c.val)) ∧
    (s.handN c.val < 15 → 16 ≤ ptrOff spp →
      (∀ i, i < 16 → Holds s c.val (ptrSel spp) (ptrOff spp - 16 + i) .stackRead (pa + i) (w i)) →
      ∃ t, exec (.hfill c) s = .next t ∧
        (∀ k, Tab.get (t.core c.val).hands k Word.void =
          if k / 16 = (h + 15) % 16 then w (k % 16) else Tab.get (s.core c.val).hands k Word.void) ∧
        KeepsMem (at_ (ptrOff spp - 16) (h + 15) (s.modCore c.val (fun x => { x with hands := (t.core c.val).hands }))) t c.val [] false
          (grpW ||| grpC) (fun _ => False) (s.nextIp c.val))

/-- CTXSW (R83, Tables 3-5 and 3-6) to a free context save area, with no area loaded, and with one loaded whose groups are clean: the new
header holds the core's number, C comes from the new area and every other group is absent; from the old one, C and a freed header are
stored. -/
def Obligations.ContextSwitch : Prop :=
  ∀ (s : State) (c : CoreId) (a : RegN) (pa po : Nat) (w : Nat → Word), AtEase s c.val → Settled s c.val → s.sup c.val = true →
    2 ≤ s.cl c.val → s.cl c.val ≤ 5 →
    let p := (s.reg c.val a.val).pay
    let o := s.crR c.val CRN.ccx
    let n := s.cl c.val
    rawTag (s.reg c.val a.val) → fld p 51 48 = 0 → ptrOff p % 64 = 0 →
    (∀ i, i < 320 → Holds s c.val (ptrSel p) (ptrOff p + i) .bankRead (pa + i) (w i)) → fld (w 0).pay 6 0 = 0 →
    StorableBy s c.val .bankWrite (ptrSel p) (ptrOff p) pa (fixN (c.val + 1)) →
    (bitAt o 51 = true → fld (s.crR c.val CRN.gds) 4 0 = 0 ∧ (pa + 320 ≤ po ∨ po + 320 ≤ pa) ∧
      (∀ i, i < 6 → StorableBy s c.val .bankWrite (ptrSel o) (ptrOff o + 0x10 + i) (po + 0x10 + i) (s.cWord c.val n i)) ∧
      StorableBy s c.val .bankWrite (ptrSel o) (ptrOff o) po (fixN 0)) →
    ∃ t, exec (.ctxsw c a) s = .next t ∧ t.peekWord pa = (fixN (c.val + 1), .ok) ∧
      (bitAt o 51 = true → t.peekWord po = (fixN 0, .ok) ∧ ∀ i, i < 6 → t.peekWord (po + 0x10 + i) = (s.cWord c.val n i, .ok)) ∧
      (∀ q, q ≠ pa → ¬ (bitAt o 51 = true ∧ (q = po ∨ (po + 0x10 ≤ q ∧ q < po + 0x16))) → (t.peekWord q).1 = (s.peekWord q).1) ∧
      t.crR c.val CRN.ccx = (p &&& fmask 63 52) ||| putFld 51 51 1 ||| (p &&& fmask 47 0) ∧
      t.crR c.val CRN.gds = fmask 12 11 ||| fmask 9 8 ∧ t.crR c.val CRN.chp = (w 0x10).pay &&& fmask 3 0 ∧
      t.crR c.val CRN.shp = (w 0x11).pay &&& fmask 3 0 ∧ t.crR c.val CRN.rpt = (w 0x13).pay &&& fmask 33 0 ∧
      t.crR c.val (CRN.save n 0) = (w 0x14).pay ∧
      t.crR c.val (CRN.save n 1) = (w 0x15).pay &&& (fmask 42 32 ||| fmask 25 16 ||| fmask 10 0) ∧
      (∀ k, k ≠ CRN.ccx → k ≠ CRN.gds → k ≠ CRN.chp → k ≠ CRN.shp → k ≠ CRN.spp → k ≠ CRN.rpt → k ≠ CRN.save n 0 → k ≠ CRN.save n 1 →
        t.crR c.val k = s.crR c.val k) ∧
      (∀ f, t.file c.val f = s.file c.val f) ∧ (t.core c.val).sg = (s.core c.val).sg ∧ (t.core c.val).resv = none ∧
      (t.core c.val).ip = s.nextIp c.val ∧ (∀ k, k ≠ c.val → t.core k = { s.core k with resv := (t.core k).resv }) ∧
      ∀ r, ¬ sideRegs r → ¬ runRegs c.val r → t.ioR r = s.ioR r

/-- GFILL, LDBW and STBW (R81, R84, R86, Table 3-5): a group that is absent is loaded from the loaded context save area and is present and clean,
one that is present stays; the bank window reads and writes the words of the area it names, but for the header and a loaded area. -/
def Obligations.BankAccess : Prop :=
  ∀ (s : State) (c : CoreId) (d a : RegN) (k : BitVec 13) (pa : Nat) (w : Nat → Word), AtCall s c.val → Settled s c.val →
    let n := k.toNat
    let ccx := s.crR c.val CRN.ccx
    let b := s.crR c.val CRN.bkw
    let place : Nat × Nat := if n = 0 then (0x08, 8) else if n = 1 then (0x40, 256) else if n = 3 then (0x20, 16) else (0x30, 2)
    (n ≤ 4 → n ≠ 2 → s.absent c.val (8 + n) = false → ∃ t, exec (.gfill c k) s = .next t ∧ Keeps s t c.val [] false 0) ∧
    (n ≤ 4 → n ≠ 2 → s.absent c.val (8 + n) = true → bitAt ccx 51 = true →
      (∀ i, i < place.2 → Holds s c.val (ptrSel ccx) (ptrOff ccx + place.1 + i) .bankRead (pa + i) (w i)) →
      ∃ t, exec (.gfill c k) s = .next t ∧
        t.crR c.val CRN.gds = setFld (setFld (s.crR c.val CRN.gds) (8 + n) (8 + n) 0) n n 0 ∧
        (n = 0 → ∀ i, i < 8 → Tab.get (t.core c.val).g i Word.void = w i) ∧
        (n = 1 → ∀ i, i < 256 → Tab.get (t.core c.val).hands i Word.void = w i) ∧
        (n = 3 → ∀ i, i < 16 → Tab.get (t.core c.val).sg i 0 = fld (w i).pay 11 0) ∧
        (n = 4 → t.crR c.val CRN.asr = (w 0).pay &&& (fmask 9 8 ||| fmask 3 0) ∧ t.crR c.val CRN.fsr = (w 1).pay &&& (fmask 10 8 ||| fmask 4 0)) ∧
        KeepsMem ((s.putGroup c.val n ((List.range place.2).map w)).crW c.val CRN.gds (t.crR c.val CRN.gds)) t c.val [] false 0 (fun _ => False)
          (s.nextIp c.val)) ∧
    ((s.snap c.val = true ∨ s.crF c.val CRN.gds 12 8 = 0) → (s.part (s.corePart c.val)).bankWin = true → bitAt b 51 = true → n ≤ 0x13F →
      (Holds s c.val (ptrSel b) (ptrOff b + n) .bankRead pa (w n) → Loads s (.ldbw c d k) c d (w n)) ∧
      (n ≠ 0 → ∀ ph, Reaches s c.val (ptrSel b) (ptrOff b) .bankWrite ph → fld (s.peekWord ph).1.pay 6 0 = 0 → (s.peekWord ph).2 ≠ .uncorr →
        StorableBy s c.val .bankWrite (ptrSel b) (ptrOff b + n) pa (s.reg c.val a.val) → StoresAt s (.stbw c a k) c pa (s.reg c.val a.val)))

/-- SEGSET (R74, R75, R78, R80, R244, R315): a descriptor that is invalid, or well formed and inside the partition's grants, and that leaves
the heap segments' homes and the networks' views alone, with no other core's checked store under the selector still to come, becomes entry k of the segment table; every cached copy of the entry in the partition's cores is gone. -/
def Obligations.SegmentSet : Prop :=
  ∀ (s : State) (c : CoreId) (d a : RegN) (k : BitVec 13), AtEase s c.val → s.sup c.val = true →
    let p := s.corePart c.val
    let b := (s.part p).segBase + 2 * k.toNat
    let n : Desc := ⟨(s.reg c.val d.val).pay, (s.reg c.val a.val).pay⟩
    rawTag (s.reg c.val d.val) → rawTag (s.reg c.val a.val) → k.toNat < (s.part p).tsize →
    (bitAt n.w0 63 = false ∨ (n.wellFormed = true ∧
      grantsCover (s.part p).grants ((s.part p).grants.length + 1) n.base n.limit = true)) → s.homeKept p k.toNat n = true → s.viewsKept p k.toNat n = true →
    s.storesUnder c.val p k.toNat = false →
    ∃ t, exec (.segset c d a k) s = .next t ∧ t.peekWord b = (⟨Tag.raww, n.w0⟩, .ok) ∧ t.peekWord (b + 1) = (⟨Tag.raww, n.w1⟩, .ok) ∧
      (∀ j, j < 64 → s.coreOwned j = true → s.corePart j = p →
        (t.core j).dcache = (s.core j).dcache.filter (fun e => e.2.1 != k.toNat)) ∧
      (∀ j, ¬ (j < 64 ∧ s.coreOwned j = true ∧ s.corePart j = p) → (t.core j).dcache = (s.core j).dcache) ∧
      (∀ q, q ≠ b → q ≠ b + 1 → (t.peekWord q).1 = (s.peekWord q).1) ∧
      (∀ j, j ≠ c.val → t.core j = { s.core j with resv := (t.core j).resv, dcache := (t.core j).dcache }) ∧
      (∀ r, r < 32 → t.reg c.val r = s.reg c.val r) ∧ (∀ j, t.crR c.val j = s.crR c.val j) ∧ (t.core c.val).ip = s.nextIp c.val ∧
      ∀ r, ¬ sideRegs r → ¬ runRegs c.val r → t.ioR r = s.ioR r

/-- Cache maintenance (R165, R166, R211, R220–R222, Table 6-11). By address: the clean forms write the line's dirty words to DRAM and change no word's
value, CINV discards what no cache has written back, the invalidating forms leave no copy in a data cache, IINV leaves none in an L1I, PREF changes no
word. By set and way, on the L1D entry of a line: CCLEANSW and CCINVSW change no word's value, the former leaving the entry clean, the latter and CINVSW
leaving it invalid; CINVSW discards the entry's dirty words. -/
def Obligations.CacheMaintenance : Prop :=
  (∀ (s : State) (c : CoreId) (a : RegN) (k : BitVec 13) (off pa : Nat), AtEase s c.val → Settled s c.val → k.toNat < 16 →
     (s.reg c.val a.val).tag = Tag.fix → (s.reg c.val a.val).pay.toInt = off → s.regionOk pa = true → isDram pa = true →
     let sel := s.sgR c.val k.toNat
     let line := pa / 8
     let kept (t : State) := KeepsMem s t c.val [] false 0 (fun _ => False) (s.nextIp c.val)
     let clean (t : State) := ∀ j, j < 8 → Tab.get t.l1d (8 * line + j) none = none ∧ Tab.get t.l2 (8 * line + j) none = none ∧
       Tab.get t.l3 (8 * line + j) none = none
     (Reaches s c.val sel off .read pa →
       (∃ t, exec (.cclean c a k) s = .next t ∧ kept t ∧ clean t ∧ ∀ j, j < 8 → Ecc.decode (Tab.get t.mem (8 * line + j) 0#80) = s.peekWord (8 * line + j)) ∧
       (∃ t, exec (.ccinv c a k) s = .next t ∧ kept t ∧ clean t ∧ ∀ j, j < 8 → Ecc.decode (Tab.get t.mem (8 * line + j) 0#80) = s.peekWord (8 * line + j)) ∧
       ∃ t, exec (.pref c a k) s = .next t ∧ kept t) ∧
     (s.sup c.val = true → Reaches s c.val sel off .write pa → ∃ t, exec (.cinv c a k) s = .next t ∧ clean t ∧ t.mem = s.mem ∧
       KeepsMem s t c.val [] false 0 (fun q => q / 8 = line) (s.nextIp c.val)) ∧
     (Reaches s c.val sel off .exec pa → ∃ t, exec (.iinv c a k) s = .next t ∧ kept t ∧
       ∀ j i, j < 64 → i < 8 → s.holds (cL1I j) line = true → Tab.get t.l1i (j * 2 ^ 40 + 8 * line + i) none = none)) ∧
  (∀ (s : State) (c : CoreId) (a : RegN), AtEase s c.val → s.sup c.val = true →
     let v := (s.reg c.val a.val).pay
     let id := 64 + c.val
     let set := fld v 22 11
     let way := fld v 10 7
     let e := s.tagAt id set way
     (s.reg c.val a.val).tag = Tag.fix → fld v 63 23 = 0 → fld v 1 0 = 1 → fld v 6 2 = 0 → set < 128 → way < 4 →
     let kept (t : State) := KeepsMem s t c.val [] false 0 (fun _ => False) (s.nextIp c.val)
     (e.valid = false → (∃ t, exec (.ccleansw c a 0#13) s = .next t ∧ Keeps s t c.val [] false 0) ∧
       (∃ t, exec (.cinvsw c a 0#13) s = .next t ∧ Keeps s t c.val [] false 0) ∧
       ∃ t, exec (.ccinvsw c a 0#13) s = .next t ∧ Keeps s t c.val [] false 0) ∧
     (s.findWay id e.line = some way → setOf id e.line = set →
       (∃ t, exec (.ccleansw c a 0#13) s = .next t ∧ kept t ∧ (t.tagAt id set way).dirty = false) ∧
       (∃ t, exec (.ccinvsw c a 0#13) s = .next t ∧ kept t ∧ (t.tagAt id set way).valid = false) ∧
       ∃ t, exec (.cinvsw c a 0#13) s = .next t ∧ (t.tagAt id set way).valid = false ∧
         (∀ j, j < 8 → Tab.get t.l1d (8 * e.line + j) none = none) ∧ t.mem = s.mem ∧ t.l2 = s.l2 ∧ t.l3 = s.l3 ∧
         KeepsMem s t c.val [] false 0 (fun q => q / 8 = e.line) (s.nextIp c.val)))

/-! Registers, interrupt sources and debug. -/

/-- Register accesses (R7, R21, R24, R25, R80, R489, R492): outside every block instance a write is lost; an access to an instance whose
domain is off only records its address; a write to SYS replaces the rw bits and clears the w1c bits for partition 0 and is ignored for
others; DCINV empties a core's descriptor cache; HALT sets the halt request; RDAT shows the register that RSEL selects, while the core is
stopped and to partition 0 only. -/
def Obligations.RegisterAccess : Prop :=
  ∀ (s : State) (r : Req) (pa : BitVec 40) (v : W64) (c : CoreId), s.railUp = true →
    (findBlk pa.toNat = none → Idle s (.registerWrite r pa v)) ∧
    (∀ b k off, findBlk pa.toNat = some (b, k, off) → s.offAccess b k = true →
      Does s (.registerWrite r pa v) (fun a => a = Reg.SYS_STAT ∨ a = Reg.SYS_OFFADDR) (fun _ => s) (fun t =>
        t.rb Reg.SYS_STAT 0 = true ∧ (s.rb Reg.SYS_STAT 0 = true → t = s) ∧
        (s.rb Reg.SYS_STAT 0 = false → t.ioR Reg.SYS_OFFADDR = pa.setWidth 64 ∧ t.ioR Reg.SYS_STAT = setBit (s.ioR Reg.SYS_STAT) 0 true))) ∧
    (∀ off x j, findBlk pa.toNat = some (.bSYS, 0, off) → findReg Blk.bSYS.regs off = some (x, j) →
      (s.reqPart r ≠ 0 → Idle s (.registerWrite r pa v)) ∧
      (s.reqPart r = 0 → Does s (.registerWrite r pa v) (· = pa.toNat) (fun _ => s) (fun t =>
        t.ioR pa.toNat = ((s.ioR pa.toNat &&& ~~~x.rw) ||| (v &&& x.rw)) &&& ~~~(v &&& x.w1c)))) ∧
    (s.isChecker c.val = false →
      (bitAt v 0 = true → (s.reqPart r = 0 ∨ (s.coreOwned c.val = true ∧ s.reqPart r = s.corePart c.val)) →
        ∃ t, exec (.dcinvWrite r c v) s = .next t ∧ t.core c.val = { s.core c.val with dcache := [] } ∧
          (∀ k, k ≠ c.val → t.core k = s.core k) ∧ t = { s with cores := t.cores }) ∧
      ((bitAt v 0 = false ∨ ¬ (s.reqPart r = 0 ∨ (s.coreOwned c.val = true ∧ s.reqPart r = s.corePart c.val))) → Idle s (.dcinvWrite r c v)) ∧
      ((s.reqPart r = 0 ∨ (s.coreOwned c.val = true ∧ s.reqPart r = s.corePart c.val)) → s.debugOk c.val = true →
        Does s (.dbgctlHalt r c) (fun a => a = Reg.DBG_DBGCTL c ∨ a = Reg.DBG_DBGSTAT c) (fun _ => s) (fun t =>
          t.ioR (Reg.DBG_DBGCTL c) = s.ioR (Reg.DBG_DBGCTL c) &&& (fmask 4 3 ||| fmask 0 0) ∧
          t.ioR (Reg.DBG_DBGSTAT c) = setBit (s.ioR (Reg.DBG_DBGSTAT c)) 1 true)) ∧
      ((s.reqPart r = 0 ∨ (s.coreOwned c.val = true ∧ s.reqPart r = s.corePart c.val)) → s.debugOk c.val = false →
        Does s (.dbgctlHalt r c) (· = Reg.DBG_DBGSTAT c) (fun _ => s) (fun t =>
          t.ioR (Reg.DBG_DBGSTAT c) = setBit (s.ioR (Reg.DBG_DBGSTAT c)) 3 true)) ∧
      ((s.reqPart r ≠ 0 ∨ s.rb (Reg.DBG_DBGSTAT c) 0 = false) →
        Does s (.rdatRead r c) (fun _ => False) (fun t => { s with lastRead := t.lastRead }) (fun t => t.lastRead = 0#64)) ∧
      (s.reqPart r = 0 → s.rb (Reg.DBG_DBGSTAT c) 0 = true → ∀ w,
        (let n := s.rf (Reg.DBG_RSEL c) 11 0
         let x := s.core c.val
         (n < 0x100 ∧ w = Tab.get x.hands n Word.void) ∨ (0x100 ≤ n ∧ n < 0x108 ∧ w = Tab.get x.g (n - 0x100) Word.void) ∨
         (0x110 ≤ n ∧ n < 0x120 ∧ w = fixN (Tab.get x.sg (n - 0x110) 0)) ∨
         (0x120 ≤ n ∧ n < 0x128 ∧ w = Tab.get x.snapG (n - 0x120) Word.void) ∨
         (0x128 ≤ n ∧ n < 0x140 ∧ w = Tab.get x.snapHand (n - 0x128) Word.void) ∨
         (0x201 ≤ n ∧ n < 0x23A ∧ w = fixW (s.crR c.val (n - 0x200)))) →
        Does s (.rdatRead r c) (· = Reg.DBG_RSEL c) (fun t => { s with lastRead := t.lastRead }) (fun t =>
          t.lastRead = w.pay ∧ t.ioR (Reg.DBG_RSEL c) = setFld (s.ioR (Reg.DBG_RSEL c)) 23 16 w.tag.toNat)))

/-- The interrupt controller (R180–R182): an edge of an enabled source in core delivery is counted and becomes pending, of a disabled one only
counted; a pending source is offered to the first eligible core (at level 7 to one at CL 7 only where every core of SMASK is there); CLAIM by the core takes the lowest source pending at the level, a peek
only shows it; EOI ends the service, and a level source still asserted is pending again. -/
def Obligations.InterruptSources : Prop :=
  ∀ (s : State) (n : SrcId) (c : CoreId) (lvl : Fin 8) (o : Option Nat), s.railUp = true →
    let stat := Reg.INTC_SSTAT n
    let code : Option Nat → Nat := fun o => match o with | some k => k + 1 | none => 0
    let offers (t : State) : State := { s with offers := t.offers }
    let others (t : State) : Prop := ∀ k, k ≠ n.val → Tab.get t.offers k 0 = Tab.get s.offers k 0
    let read (t : State) : State := { s with offers := t.offers, lastRead := t.lastRead }
    OfferedTo s n.val o →
    (∀ p, s.srcOwner n.val = some p →
      let counted (t : State) : Prop := t.rf stat 47 32 = min (s.rf stat 47 32 + 1) 65535
      (n.val ≤ 63 → ∀ r v, s.reqPart r = p → fld v 8 0 = n.val →
        (s.srcEn n.val = false → Does s (.raiseWrite r v) (· = stat) (fun _ => s) (fun t =>
          counted t ∧ setFld (t.ioR stat) 47 32 0 = setFld (s.ioR stat) 47 32 0)) ∧
        (s.srcEn n.val = true → s.srcQueueMode n.val = false → (s.srcInServ n.val = false ∨ s.srcEdge n.val = true) →
          Does s (.raiseWrite r v) (· = stat) offers (fun t => counted t ∧
            setFld (t.ioR stat) 47 32 0 = setFld (setBit (s.ioR stat) 9 true) 47 32 0 ∧ others t ∧
            Tab.get t.offers n.val 0 = if s.srcInServ n.val then 0 else code o))) ∧
      (s.srcEn n.val = true → s.srcQueueMode n.val = false → s.srcInServ n.val = false →
        (n.val ∈ s.pulses → Does s (.intcSourceAssert n) (· = stat) (fun t => { s with offers := t.offers, pulses := t.pulses }) (fun t =>
          counted t ∧ t.pulses = s.pulses.erase n.val ∧ t.srcPend n.val = true ∧ others t ∧ Tab.get t.offers n.val 0 = code o)) ∧
        (n.val ∉ s.pulses → s.sourceRaw n.val = true → s.rb stat 10 = false → Does s (.intcSourceAssert n) (· = stat) offers (fun t =>
          counted t ∧ t.rb stat 10 = true ∧ t.srcPend n.val = true ∧ others t ∧ Tab.get t.offers n.val 0 = code o))) ∧
      (s.srcReady n.val = true → Does s (.intcOffer n) (fun _ => False) offers (fun t => others t ∧ Tab.get t.offers n.val 0 = code o))) ∧
    (2 ≤ lvl.val → s.srcReady n.val = true → s.srcLvl n.val = lvl.val → bitAt (s.srcMask n.val) c.val = true →
      (∀ k, k < n.val → ¬ (s.srcReady k = true ∧ s.srcLvl k = lvl.val ∧ bitAt (s.srcMask k) c.val = true)) →
      (Does s (.claimRead (.core c) c lvl false) (· = stat) read (fun t => t.lastRead = putFld 15 15 1 ||| putFld 8 0 n.val ∧
        t.ioR stat = setFld (setFld (setFld (s.ioR stat) 9 9 0) 8 8 1) 5 0 c.val ∧ others t ∧ Tab.get t.offers n.val 0 = 0)) ∧
      ∀ r, Does s (.claimRead r c lvl true) (fun _ => False) read (fun t =>
        t.lastRead = putFld 15 15 1 ||| putFld 8 0 n.val ∧ t.offers = s.offers)) ∧
    ((∀ k, k < 512 → ¬ (s.srcReady k = true ∧ s.srcLvl k = lvl.val ∧ bitAt (s.srcMask k) c.val = true)) →
      Does s (.claimRead (.core c) c lvl false) (fun _ => False) read (fun t => t.lastRead = 0#64 ∧ t.offers = s.offers)) ∧
    ∀ v, fld v 8 0 = n.val →
      (¬ (s.srcInServ n.val = true ∧ s.rf stat 5 0 = c.val) → Idle s (.eoiWrite (.core c) c v)) ∧
      (s.srcInServ n.val = true → s.rf stat 5 0 = c.val → Does s (.eoiWrite (.core c) c v) (· = stat) offers (fun t =>
        t.ioR stat = (if s.rb stat 10 = true ∧ s.srcEn n.val = true ∧ s.srcEdge n.val = false ∧ s.srcQueueMode n.val = false then setBit (setFld (s.ioR stat) 8 8 0) 9 true
          else setFld (s.ioR stat) 8 8 0) ∧ others t ∧
        Tab.get t.offers n.val 0 = if t.srcReady n.val = true then code o else 0))

/-! Caches and memory. -/

/-- Cache events (R19, R215, R219, R223, R226, R228, R229): a fill brings its line in, an acknowledgement empties its buffer entry, a cleared
enable empties its cache, and a request is recorded and starts its transition, which completes by emptying the ways that leave; no word of DRAM
changes in any of them. -/
def Obligations.CacheEvents : Prop :=
  ∀ (s : State), s.railUp = true →
    (∀ (n : Nat) (c : CoreId) (line : Nat) (w : Bool), s.fills[n]? = some (c, line, w) → DoesMem s (.lineFill n) (fun _ => False) (fun _ => False)
      (fun t => { s with fills := t.fills }) (fun t => t.fills = s.fills.eraseIdx n ∧
        (s.implemented (8 * line) = true → isDram (8 * line) = true → s.l1dOn c = true → s.l2Ways (c.val / 8) ≠ [] →
          t.holds (cL1D c) line = true))) ∧
    (∀ n v, s.vbuf[n]? = some v → DoesMem s (.writebackAck n) (fun _ => False) (fun _ => False) (fun _ => s) (fun t =>
      t.vbuf = s.vbuf.erase v)) ∧
    (∀ (r : Req) (c : CoreId), (s.reqPart r = 0 ∨ (s.coreOwned c.val = true ∧ s.corePart c.val = s.reqPart r)) →
      let a := Reg.L2C_L1CTL (c.val / 8) (c.val % 8)
      DoesMem s (.cacheDisable r (.l1d c)) (fun _ => False) (· = a) (fun _ => s) (fun t => t.ioR a = setFld (s.ioR a) 1 1 0 ∧
        (s.rb a 1 = true → ∀ line, t.holds (cL1D c) line = false)) ∧
      DoesMem s (.cacheDisable r (.l1i c)) (fun _ => False) (· = a) (fun _ => s) (fun t => t.ioR a = setFld (s.ioR a) 0 0 0 ∧
        (s.rb a 0 = true → ∀ line, t.holds (cL1I c) line = false))) ∧
    (∀ (r : Req) (k : Fin 8) (pa : BitVec 40) (v : W64), pa.toNat = Reg.L2C_L2CTL k →
      let a := Reg.L2C_L2CTL k
      (s.reqPart r = 0 → DoesMem s (.cacheDisable r (.l2 k)) (fun _ => False) (· = a) (fun t => { s with modeTo := t.modeTo }) (fun t =>
        t.ioR a = setFld (s.ioR a) 0 0 0 ∧ (s.rb a 0 = true → ∀ line, t.holds (cL2 k) line = false))) ∧
      (s.reqPart r ≠ 0 → s.owner .spad k = some (s.reqPart r) → fld v 17 16 ≠ 3 →
        (∀ i, i < fld v 17 16 → (s.rf a 15 12).testBit (3 - i) = true ∧ (s.rf a 11 8).testBit (3 - i) = true) →
        Tab.get s.modeTo k 0 = 0 →
        Does s (.scratchpadRequest r pa v) (· = a) (fun t => { s with modeTo := t.modeTo }) (fun t =>
          t.ioR a = setFld (s.ioR a) 17 16 (fld v 17 16) ∧ (∀ j, j ≠ k.val → Tab.get t.modeTo j 0 = Tab.get s.modeTo j 0) ∧
          Tab.get t.modeTo k 0 = if fld v 17 16 = s.rf a 19 18 then 0 else fld v 17 16 + 1)) ∧
      (s.reqPart r = 0 → fld v 17 16 = 0 → s.rf a 17 16 = 0 → s.rf a 19 18 = 0 → Tab.get s.modeTo k 0 = 0 → Tab.get s.modeTo (8 + k) 0 = 0 →
        fld v 11 8 ≠ 0 → bitAt v 0 = s.rb a 0 →
        Does s (.wayPowerRequest r pa v) (· = a) (fun t => { s with modeTo := t.modeTo }) (fun t =>
          t.ioR a = setFld (s.ioR a) 11 8 (fld v 11 8) ∧
          Tab.get t.modeTo (8 + k) 0 = if fld v 11 8 = s.rf a 15 12 then 0 else fld v 11 8 + 1))) ∧
    (∀ (r : Req) (n : Fin 32) (m : Fin 5) (v : W64), s.reqPart r = 0 → Tab.get s.modeTo (64 + 5 * n + m) 0 = 0 →
      let a := Reg.L3C_WMASK n m
      ((∃ j, j < 5 ∧ j ≠ m.val ∧ s.rf (Reg.L3C_WMASK n j) 15 4 &&& fld v 15 4 ≠ 0) → Idle s (.wmaskWrite r n m v)) ∧
      ((∀ j, j < 5 → j ≠ m.val → s.rf (Reg.L3C_WMASK n j) 15 4 &&& fld v 15 4 = 0) →
        Does s (.wmaskWrite r n m v) (· = a) (fun t => { s with modeTo := t.modeTo }) (fun t =>
          t.ioR a = setFld (s.ioR a) 15 4 (fld v 15 4) ∧
          Tab.get t.modeTo (64 + 5 * n + m) 0 = if 16 * fld v 15 4 = s.rf a 31 16 then 0 else 16 * fld v 15 4 + 1))) ∧
    (∀ (k : Fin 8) (x : Nat), x < 16 → Tab.get s.modeTo (8 + k) 0 = x + 1 →
      DoesMem s (.modeTransitionComplete (.l2power k)) (fun _ => False) (· = Reg.L2C_L2CTL k) (fun t => { s with modeTo := t.modeTo }) (fun t =>
        t.ioR (Reg.L2C_L2CTL k) = setFld (s.ioR (Reg.L2C_L2CTL k)) 15 12 x ∧
        Tab.get t.modeTo (8 + k) 0 = if s.rf (Reg.L2C_L2CTL k) 11 8 = x then 0 else s.rf (Reg.L2C_L2CTL k) 11 8 + 1)) ∧
    (∀ (n : Fin 32) (x : Nat), x < 16 → Tab.get s.modeTo (16 + n) 0 = x + 1 →
      DoesMem s (.modeTransitionComplete (.l3power n)) (fun _ => False) (· = Reg.L3C_L3CTL n) (fun t => { s with modeTo := t.modeTo }) (fun t =>
        t.ioR (Reg.L3C_L3CTL n) = setFld (s.ioR (Reg.L3C_L3CTL n)) 7 4 x)) ∧
    ∀ (k : Fin 8) (x : Nat), x < 4 → Tab.get s.modeTo k 0 = x + 1 →
      let cur := s.rf (Reg.L2C_L2CTL k) 19 18
      let pair (i pa : Nat) : Prop := 0xF000000000 + k.val * 0x100000 + i * 65536 ≤ pa ∧ pa < 0xF000000000 + k.val * 0x100000 + (i + 1) * 65536
      let swapped (pa : Nat) : Prop := ∃ i, min cur x ≤ i ∧ i < max cur x ∧ pair i pa
      DoesMem s (.modeTransitionComplete (.l2split k)) swapped (· = Reg.L2C_L2CTL k) (fun t => { s with modeTo := t.modeTo }) (fun t =>
        t.ioR (Reg.L2C_L2CTL k) = setFld (s.ioR (Reg.L2C_L2CTL k)) 19 18 x ∧
        ∀ pa, swapped pa → Tab.get s.l1d pa none = none → Tab.get s.l2 pa none = none → Tab.get s.l3 pa none = none → Tab.get t.mem pa 0#80 = 0#80)

/-- Errors in arrays and memory (R207, R231–R235, R239–R241, R427): a corrected error is counted; one that is not correctable in a dirty word leaves it
poisoned where no newer copy stands above it, is recorded and asserts its safety input; a patrol pass rewrites every correctable word of its channel; MINJ plants an error in one
word; and the channels report when their initialisation is done. -/
def Obligations.MemoryEvents : Prop :=
  ∀ (s : State), s.railUp = true →
    (∀ (arr : ArrayId) (set : Fin 4096) (way : Fin 16) (word : Fin 8),
      let id := State.arrayNum arr
      way.val < waysOf id → set.val < (if id < 128 then 128 else if id < 136 then 4096 else 2048) →
      Idle s (.cacheArrayScrub arr .none) ∧
      Does s (.cacheArrayScrub arr (.dataSingle set way word)) (fun a => a = State.errReg id ∨ cacheRegs a) (fun _ => s) (fun t =>
        t.ioR (State.errReg id) = setFld (s.ioR (State.errReg id)) 63 48 (min (s.rf (State.errReg id) 63 48 + 1) 65535)) ∧
      (let e := s.tagAt id set way
       let pa := 8 * e.line + word
       let newer := (2 ≤ levelOf id ∧ Tab.get s.l1d pa none ≠ none) ∨ (levelOf id = 3 ∧ Tab.get s.l2 pa none ≠ none)
       levelOf id ≠ 0 → ¬ (levelOf id = 2 ∧ 3 - way.val / 2 < s.spadPairs (id - 128)) → e.valid = true → e.dirty = true →
        DoesMem s (.cacheArrayScrub arr (.dataUncorr set way word)) (fun _ => False) (· = State.errReg id) (fun _ => s) (fun t =>
          (¬ newer → t.peekWord pa = ((s.peekWord pa).1, .uncorr)) ∧ (newer → t.peekWord pa = s.peekWord pa) ∧
          t.rb (State.errReg id) 47 = true ∧ ∃ f ∈ t.faultIn, f.1 = State.errInput id)) ∧
      ((s.tagAt id set way).valid = false → Does s (.cacheArrayScrub arr (.tagParity set way)) (· = State.errReg id) (fun _ => s) (fun t =>
        t.ioR (State.errReg id) = setBit (s.ioR (State.errReg id)) 45 true))) ∧
    (∀ ch : Fin 4,
      (s.rb (Reg.MEMC_SCRUB ch) 0 = true → s.rb (Reg.MEMC_MCFG ch) 0 = true → s.rb Reg.HRTH_HBOOT 32 = true →
        DoesMem s (.patrolScrub ch) (fun _ => False) (· = Reg.MEMC_SCRUB ch) (fun _ => s) (fun t =>
          t.ioR (Reg.MEMC_SCRUB ch) = setFld (s.ioR (Reg.MEMC_SCRUB ch)) 63 48 (s.rf (Reg.MEMC_SCRUB ch) 63 48 + 1) ∧
          ∀ pa w, s.chanOf pa = some ch.val → Ecc.decode (Tab.get s.mem pa 0#80) = (w, .corrected) → Memory.wf s.mem = true →
            Ecc.decode (Tab.get t.mem pa 0#80) = (w, .ok))) ∧
      (∀ (r : Req) (v : W64), s.reqPart r = 0 → s.chanOf (fld v 39 0) = some ch.val → fld v 61 55 ≤ 79 → fld v 54 48 ≤ 79 →
        let pa := fld v 39 0
        let w := s.peekWord pa
        DoesMem s (.minjWrite r ch v) (· = pa) (fun _ => False) (fun _ => s) (fun t =>
          (fld v 63 62 = 0 → t.peekWord pa = (Word.void, .ok)) ∧ (fld v 63 62 = 1 → w.2 = .ok → t.peekWord pa = (w.1, .corrected)) ∧
          (fld v 63 62 = 2 → fld v 61 55 ≠ fld v 54 48 → w.2 = .ok → (t.peekWord pa).2 = .uncorr) ∧
          (fld v 63 62 = 3 → t.peekWord pa = (w.1, .uncorr)) ∧ ∀ k, (t.core k).resv ≠ some (pa / 8) ∨ 64 ≤ k)) ∧
      (s.rb (Reg.MEMC_MCFG ch) 0 = true → Does s (.dramBackgroundInit ch) (· = Reg.HRTH_HBOOT)
        (fun t => { s with hs := { s.hs with initDone := t.hs.initDone } }) (fun t => ch.val ∈ t.hs.initDone ∧
          (∀ k, k ∈ t.hs.initDone ↔ (k = ch.val ∨ k ∈ s.hs.initDone)) ∧
          ((∀ k, k < 4 → s.rb (Reg.MEMC_MCFG k) 0 = true → k ∈ t.hs.initDone) → t.rb Reg.HRTH_HBOOT 32 = true) ∧
          (¬ (∀ k, k < 4 → s.rb (Reg.MEMC_MCFG k) 0 = true → k ∈ t.hs.initDone) →
            t.ioR Reg.HRTH_HBOOT = s.ioR Reg.HRTH_HBOOT)))) ∧
    ∀ (cl : Fin 8) (ua : BitVec 14), s.domOn (64 + cl.val) = true →
      let a := Reg.MCS_MCSERR cl
      Does s (.microwordScrub cl (.single ua)) (· = a) (fun _ => s) (fun t => t.ioR a = setFld (s.ioR a) 63 48 (min (s.rf a 63 48 + 1) 65535)) ∧
      Does s (.microwordScrub cl (.uncorr ua)) (· = a) (fun t => { s with ucBad := t.ucBad, faultIn := t.faultIn }) (fun t =>
        t.rb a 32 = true ∧ (s.rb a 32 = false → t.rf a 13 0 = ua.toNat) ∧ Tab.get t.ucBad (cl.val * 2 ^ 14 + ua.toNat) false = true ∧
        (∀ k, k ≠ cl.val * 2 ^ 14 + ua.toNat → Tab.get t.ucBad k false = Tab.get s.ucBad k false) ∧ ∃ f ∈ t.faultIn, f.1 = 8 + cl.val)

/-! Sweep. -/

/-- Sweep (R249, R252–R257, R260–R262, R266, R268, R273, R274, R279, Table 10-4). Its commands: a cycle is requested, and the lowest request starts when
Sweep is idle; modes are requested and take effect at once in no cycle; an area is closed, given its heap segment, and refilled with the lowest FREE
region; an object is registered for finalization; and the pacer stops and resumes the requests to a core. A cycle, where it may advance: a handshake or a
drain moves a snapshot buffer's references to the mark queue; marking marks the object at the head of the queue and queues the references in its body; a
MEND round with nothing left to trace ends MEND; REF selects only FULL regions with few live words and no hold; a reserved object is copied; REMAP leaves
no EVAC or COPY region; and each phase ends where Table 10-4 says. -/
def Obligations.SweepCycles : Prop :=
  (∀ (s : State) (r : Req) (h : Fin 16) (v : W64), s.railUp = true → s.heapDefined h = true →
     (s.reqPart r = 0 ∨ s.heapPart h = s.reqPart r) →
     let hs := Reg.SWP_HSTAT h
     let hc := Reg.SWP_HCFG h
     (bitAt v 0 = true →
       (s.heapPhase h ≠ 0 ∨ s.rb hs 3 = true → Idle s (.hcmdStart r h v)) ∧
       (s.heapPhase h = 0 → s.rb hs 3 = false →
         Does s (.hcmdStart r h v) (· = hs) (fun _ => s) (fun t => t.ioR hs = setBit (s.ioR hs) 3 true))) ∧
     (3 ≤ fld v 7 4 → fld v 1 0 ≠ 3 →
       let asked := setFld (setFld (s.ioR hc) 7 4 (fld v 7 4)) 1 0 (fld v 1 0)
       Does s (.sweepModeRequest r h v) (· = hc) (fun _ => s) (fun t => t.ioR hc =
         if s.heapPhase h = 0 then setFld (setFld asked 11 8 (fld v 7 4)) 3 2 (fld v 1 0) else asked)) ∧
     (∀ c : CoreId, s.coreOwned c.val = true → s.heapPart h = s.corePart c.val → (s.reqPart r = 0 ∨ s.corePart c.val = s.reqPart r) →
       fld v 59 56 = h.val → s.rb (Reg.SWP_AREA c) 63 = false →
       let a := Reg.SWP_AREA c
       let named := setBit (setFld (s.ioR a) 59 56 h.val) 60 true
       (bitAt v 0 = false → Does s (.areaHeapWrite r c v) (· = a) (fun _ => s) (fun t => t.ioR a = named)) ∧
       (∀ g, bitAt v 0 = true → g < s.heapNreg h → s.regState h g = 0 → (∀ j, j < g → s.regState h j ≠ 0) → s.freeRegions h ≠ 0 →
         ¬ (s.rf (Reg.SWP_HTRIG h) 49 32 = s.freeRegions h) →
         Does s (.areaRefillWrite r c v) (fun x => x = a ∨ x = hs ∨ cacheRegs x) (fun t => { s with heaps := t.heaps }) (fun t =>
           t.ioR a = setBit (setFld (setFld named 55 38 g) 34 17 0) 63 true ∧ t.region h g = putFld 63 61 1 ∧
           t.ioR hs = setFld (s.ioR hs) 63 46 (s.freeRegions h - 1) ∧ (∀ k, k ≠ g → t.region h k = s.region h k) ∧
           ∀ k, k ≠ h.val → t.heap k = s.heap k))) ∧
     (∀ (kind : Nat) (hdr : W64),
       let off := ptrOff v
       let pa := s.heapBase h + off
       let fs := Reg.SWP_FINSTAT h
       fld v 51 48 = 0 → ptrSel v = s.heapSel h → s.beginsObj h off = true → s.peekWord pa = (⟨Tag.hdr, hdr⟩, .ok) → bitAt hdr 53 = false → kind = fld hdr 63 56 →
       (s.heap h).fin.length < s.rf fs 47 32 →
       DoesMem s (.finregWrite r h v) (· = pa) (· = fs) (fun t => { s with heaps := t.heaps }) (fun t =>
         t.peekWord pa = (⟨Tag.hdr, setBit hdr 53 true⟩, .ok) ∧ t.ioR fs = setFld (s.ioR fs) 63 48 (s.rf fs 63 48 + 1) ∧
         t.heap h = { s.heap h with fin := (s.heap h).fin ++ [⟨BitVec.ofNat 8 kind, ptrPay (ptrSel v) off⟩] } ∧
         ∀ k, k ≠ h.val → t.heap k = s.heap k)) ∧
     (∀ (c : CoreId) (ns : Nat),
       let stop := decide (100000 ≤ ns) || (decide (50000 ≤ ns) && (s.core c.val).paceStop)
       ∃ t, exec (.pacerThreshold c ns) s = .next t ∧ t.core c.val = { s.core c.val with paceNs := ns, paceStop := stop, hshake := (t.core c.val).hshake } ∧
         (s.sweep.heap = none → (t.core c.val).hshake = (s.core c.val).hshake) ∧
         (∀ k, s.sweep.heap = some k → c.val ∈ s.sweep.waiting → (s.core c.val).hshake = none → s.heapPhase k = 3 → stop = false →
           (t.core c.val).hshake = some .h2) ∧
         (∀ k, k ≠ c.val → t.core k = s.core k) ∧ t = { s with cores := t.cores }) ∧
     (s.sweep.heap = none → s.rb hs 3 = true → (∀ k : Fin 16, k < h → ¬ (s.heapDefined k = true ∧ s.rb (Reg.SWP_HSTAT k) 3 = true)) →
       (∀ c ∈ s.handCores (s.heapPart h), (s.core c).run = .run) → fld (s.ioR hc) 1 0 ≠ 1 →
       Does s .sweepCycleStart (fun a => a = hs ∨ a = hc ∨ a = Reg.SWP_SWSTAT)
         (fun t => { s with heaps := t.heaps, sweep := t.sweep, cg := { s.cg with epStart := t.cg.epStart }, cores := t.cores }) (fun t =>
         t.sweep = { heap := some h.val, waiting := s.handCores (s.heapPart h) } ∧
         t.ioR hs = setFld (setFld (setFld (s.ioR hs) 3 3 0) 11 8 0) 2 0 1 ∧
         (∀ c, c < 64 → t.core c = { s.core c with hshake := if c ∈ s.handCores (s.heapPart h) then some .h1 else (s.core c).hshake }) ∧
         (∀ g, g < s.heapNreg h → t.region h g = setFld (s.region h g) 22 5 (s.regTop h g)) ∧
         (t.heap h).marks = [] ∧ (t.heap h).transit = [] ∧ (t.heap h).copies = [] ∧ (t.heap h).fin = (s.heap h).fin ∧
         (∀ k, k ≠ h.val → t.heap k = s.heap k) ∧ h.val ∈ t.cg.epStart))) ∧
  (∀ (s : State) (h : Fin 16), s.railUp = true → s.sweep.heap = some h.val → s.sweepMay h = true →
     let ph := s.heapPhase h
     let sw := Reg.SWP_SWERR
     let phased (t : State) (p : Nat) : Prop := t.heapPhase h = p ∧ t.rf Reg.SWP_SWSTAT 2 0 = p
     let stat (a : Nat) : Prop := a = Reg.SWP_HSTAT h ∨ a = Reg.SWP_SWSTAT ∨ a = Reg.SWP_HCFG h
     (∀ c : CoreId, s.running c.val = true → s.atBoundary c.val 1 = true → (s.core c.val).hshake = some .h2 → s.handN c.val ≤ 2 →
       (s.heapMode h ≠ 2 ∨ (s.core c.val).wait ≠ .none) →
       ∃ t, exec (.handshake c) s = .next t ∧
         t.core c.val = { s.core c.val with snapBuf := [], hshake := none, accs := [], evacHold := false } ∧
         (∀ k, k ≠ c.val → t.core k = s.core k) ∧
         t = { s with cores := t.cores, sweep := { s.sweep with markQ := s.sweep.markQ ++ (s.core c.val).snapBuf,
                                                                waiting := s.sweep.waiting.erase c.val } }) ∧
     (∀ (b : Fin 80) (w : Word) (l : List Word),
       (b.val < 64 → (s.core b.val).snapBuf = w :: l → ∃ t, exec (.snapshotDrain b) s = .next t ∧
         t.core b.val = { s.core b.val with snapBuf := l } ∧ (∀ k, k ≠ b.val → t.core k = s.core k) ∧
         t = { s with cores := t.cores, sweep := { s.sweep with markQ := s.sweep.markQ ++ [w] } }) ∧
       (64 ≤ b.val → Tab.get s.sweep.bufs (b.val - 64) [] = w :: l → ∃ t, exec (.snapshotDrain b) s = .next t ∧
         Tab.get t.sweep.bufs (b.val - 64) [] = l ∧ (∀ k, k ≠ b.val - 64 → Tab.get t.sweep.bufs k [] = Tab.get s.sweep.bufs k []) ∧
         t = { s with sweep := { s.sweep with markQ := s.sweep.markQ ++ [w], bufs := t.sweep.bufs } })) ∧
     (∀ (w : Word) (q : List Word) (hdr : W64), ph = 2 → s.sweep.scanned = true → s.sweep.markQ = w :: q → s.ptrInto h w = true →
       s.malformed w = false → w.tag ≠ Tag.cons →
       let off := ptrOff w.pay
       let pa := s.heapBase h + off
       s.beginsObj h off = true → s.aboveTams h off = false → s.marked h off = false → s.peekWord pa = (⟨Tag.hdr, hdr⟩, .ok) →
       DoesMem s .markTrace (fun _ => False) (fun a => a = sw ∨ a = Reg.SWP_SWERRADDR)
         (fun t => { s with heaps := t.heaps, sweep := { s.sweep with markQ := t.sweep.markQ, round := t.sweep.round },
                            cg := { s.cg with imports := t.cg.imports } }) (fun t =>
         t.marked h off = true ∧ (∀ k, k ≠ off → t.marked h k = s.marked h k) ∧ t.heap h = { s.heap h with marks := (t.heap h).marks } ∧
         (∀ k, k ≠ h.val → t.heap k = s.heap k) ∧ (∀ x ∈ q, x ∈ t.sweep.markQ) ∧
         ∀ i x, i < fld hdr 39 0 → (fld hdr 63 56 = 0x14 → i ≠ 0) → (s.peekWord (pa + 1 + i)).1 = x → (s.peekWord (pa + 1 + i)).2 ≠ .uncorr →
           s.ptrInto h x = true → s.malformed x = false → x ∈ t.sweep.markQ)) ∧
     (ph = 3 → s.sweep.waiting = [] → s.sweep.mended = false → s.sweep.bufs = [] → s.sweep.markQ = [] → s.sweep.round = 0 →
       Does s .mendRound (· = Reg.SWP_HSTAT h) (fun _ => { s with sweep := { s.sweep with mended := true } }) (fun t =>
         t.rf (Reg.SWP_HSTAT h) 11 8 = min (s.rf (Reg.SWP_HSTAT h) 11 8 + 1) 15)) ∧
     (ph = 4 → s.sweep.refStep ≠ 5 → (∀ g, s.regState h g ≠ 3) →
       ∃ t, exec .refPhase s = .next t ∧ t.sweep.refStep = 5 ∧ t.heapPhase h = ph ∧ (∀ k, k ≠ h.val → t.heap k = s.heap k) ∧
         ∀ g, g < s.heapNreg h → t.regState h g = 3 → s.regState h g = 2 ∧ Tab.get (s.heap h).holds g 0 = 0 ∧
           fld (t.region h g) 58 41 * 100 ≤ s.rf (Reg.SWP_HTRIG h) 7 0 * 131072) ∧
     (∀ old new n rest, ph = 6 → (s.heap h).transit = (old, new, n) :: rest → (old + n ≤ new ∨ new + n ≤ old) →
       let b := s.heapBase h
       DoesMem s .objectCopy (fun pa => b + new < pa ∧ pa < b + new + n) (fun a => a = sw ∨ a = Reg.SWP_SWERRADDR)
         (fun t => { s with heaps := t.heaps }) (fun t =>
         (∀ i, 1 ≤ i → i < n → (t.peekWord (b + new + i)).1 = (s.peekWord (b + old + i)).1) ∧
         t.heap h = { s.heap h with transit := rest } ∧ ∀ k, k ≠ h.val → t.heap k = s.heap k)) ∧
     (ph = 7 → s.sweep.remapped = false → ∃ t, exec .remapScan s = .next t ∧ t.sweep.remapped = true ∧ t.heapPhase h = ph ∧
       (t.heap h).copies = [] ∧ (∀ k, k ≠ h.val → t.heap k = s.heap k) ∧
       ∀ g, g < s.heapNreg h → t.regState h g ≠ 3 ∧ t.regState h g ≠ 4) ∧
     (ph = 1 → s.sweep.waiting = [] → Does s .sweepPhaseEnd stat (fun _ => s) (phased · 2)) ∧
     (ph = 3 → s.sweep.waiting = [] → s.sweep.mended = true → Does s .sweepPhaseEnd stat
       (fun t => { s with cores := t.cores, sweep := { s.sweep with bufs := [], markQ := [] }, cg := { s.cg with imports := t.cg.imports } })
       (fun t => phased t 4 ∧ ∀ c, t.core c = if c < 64 then { s.core c with snapBuf := [] } else s.core c)) ∧
     ((ph = 4 ∧ s.sweep.refStep = 5 ∧ (∀ g, g < s.heapNreg h → s.regState h g ≠ 3)) ∨ (ph = 7 ∧ s.sweep.remapped = true) →
       s.sweep.waiting = [] →
       Does s .sweepPhaseEnd (fun a => stat a ∨ cacheRegs a) (fun t => { s with sweep := t.sweep, cg := { s.cg with epDone := t.cg.epDone }, pulses := s.pulses ++ [351] })
         (fun t => t.heapPhase h = 0 ∧ t.ioR Reg.SWP_SWSTAT = 0#64 ∧ t.sweep = {} ∧
           t.rf (Reg.SWP_HSTAT h) 31 16 = (s.rf (Reg.SWP_HSTAT h) 31 16 + 1) % 65536)))

/-! The Dealer's events and the DMA engines. -/

/-- Timers, the Ash list and presets (R289, R294, R295): a tick moves the time to the next whole microsecond and finds the timers due that were armed before it; the first due
timer's item is pushed into its queue, or refused and counted, and its slot rests; numbers leave the Ash list at their time; and the
preset queues of a reset partition are live again. -/
def Obligations.DealerEvents : Prop :=
  ∀ (s : State), s.railUp = true →
    let time := Reg.CGL_TIMENS
    (let n := (s.now / 1000 + 1) * 1000
     n < 2 ^ 64 → Does s .timerTick (· = time) (fun _ => { s with lastTick := n, fireLeft := min 256 (s.dueTimers n).length })
       (fun t => t.ioR time = n64 n)) ∧
    (∀ k, s.fireLeft ≠ 0 → Tab.wf s.timers {} = true →
      let x := s.timer k
      let use := Reg.DLR_TUSE x.part
      x.armed = true → x.part < 16 → x.armAt < s.lastTick → x.due ≤ (s.lastTick : Int) * 65536 →
      (∀ j, j ≠ k → (s.timer j).armed = true → (s.timer j).armAt < s.lastTick → x.due < (s.timer j).due ∨ (x.due = (s.timer j).due ∧ k < j)) →
      let fired (t : State) : Prop := t.timer k = { gen := nextGen x.gen } ∧ (∀ j, j ≠ k → t.timer j = s.timer j) ∧ t.fireLeft = s.fireLeft - 1 ∧
        t.ash = s.ash ++ [{ kind := .timer, ident := k, expiry := s.now + 2000000 }] ∧
        t.ioR use = setFld (s.ioR use) 20 0 (s.rf use 20 0 - 1)
      (Takes s x.part x.queue x.qgen → Does s .timerFire (fun a => a = use ∨ cacheRegs a)
        (fun t => { s with timers := t.timers, ash := t.ash, fireLeft := t.fireLeft, queues := t.queues, qcache := t.qcache }) (fun t =>
        fired t ∧ t.queue x.queue = (s.queue x.queue).accept 2 x.item ∧ ∀ j, j ≠ x.queue → t.queue j = s.queue j)) ∧
      (s.dealerOff = false → s.genCurrent x.queue x.qgen = false → Does s .timerFire
        (fun a => a = use ∨ a = Reg.DLR_DSTAT ∨ cacheRegs a) (fun t => { s with timers := t.timers, ash := t.ash, fireLeft := t.fireLeft, qcache := t.qcache }) (fun t =>
        fired t ∧ t.rf Reg.DLR_DSTAT 31 16 = min (s.rf Reg.DLR_DSTAT 31 16 + 1) 65535 ∧
        t.rf Reg.DLR_DSTAT 47 32 = min (s.rf Reg.DLR_DSTAT 47 32 + 1) 65535 ∧ t.rb Reg.DLR_DSTAT 0 = true))) ∧
    (s.ash = [] → Idle s .ashExpiry) ∧
    (∀ e ∈ s.ash, (∀ x ∈ s.ash, e.expiry ≤ x.expiry) → e.expiry < 2 ^ 64 → s.sweep.heap = none →
      let n := max s.now e.expiry
      let header (pa : Nat) : Prop := ∃ x ∈ s.ash, ∃ m, x.expiry ≤ n ∧
        ((x.kind = .fact m ∧ pa = s.factAddr m x.ident 0) ∨ (x.kind = .token m ∧ pa = s.tokAddr m x.ident 0))
      DoesMem s .ashExpiry header (· = time) (fun t => { s with ash := t.ash, queues := t.queues, meld := t.meld,
                                                                cg := { s.cg with exports := t.cg.exports, txns := t.cg.txns } }) (fun t =>
        (∀ x ∈ s.ash, ∀ m, x.kind = .fact m → x.expiry ≤ n → (t.fact m x.ident).phase = .free) ∧
        (∀ x ∈ s.ash, ∀ m, x.kind = .token m → x.expiry ≤ n → (t.tok m x.ident).phase = .free) ∧
        t.now = n ∧ t.ash = s.ash.filter (fun x => decide (n < x.expiry)) ∧
        (∀ q, (∀ x ∈ s.ash, x.expiry ≤ n → ¬ (x.kind = .queue ∧ x.ident = q)) → t.queue q = s.queue q) ∧
        ∀ q, (s.queue q).phase = .ash → (∃ x ∈ s.ash, x.kind = .queue ∧ x.ident = q ∧ x.expiry ≤ n) →
          (t.queue q).phase = .free ∧ (t.queue q).gen = (s.queue q).gen)) ∧
    ∀ (p : PartId) (at_ : Nat), (s.part p).presetAt = some at_ → at_ < 2 ^ 64 →
      Does s (.presetQueueRecreate p) (fun a => a = time ∨ a = Reg.DLR_QPOOL p)
        (fun t => { s with queues := t.queues, qcache := t.qcache, ash := t.ash, parts := t.parts }) (fun t =>
        t.now = max s.now at_ ∧ t.part p = { s.part p with presetAt := none } ∧ (∀ k, k ≠ p.val → t.part k = s.part k) ∧
        (∀ e ∈ (s.part p).presets, (t.queue e.1).phase = .live) ∧
        (∀ e ∈ (s.part p).presets, (s.queue e.1).phase ≠ .live → (t.queue e.1).held = [] ∧ (t.queue e.1).waiters = [] ∧
          ((s.queue e.1).gen ≠ 0 → (t.queue e.1).gen = (s.queue e.1).gen)) ∧
        ∀ q, (∀ e ∈ (s.part p).presets, e.1 ≠ q) → t.queue q = s.queue q)

/-- The commands of a DMA channel (R300, R302–R304, R306, R307, R310, R311): START of an idle channel with its head valid runs it, of another only
flags the error; STOP waits for the block boundary; CLEAR ends HALT; a descriptor is read, checked and entered; a block of words or of
octets is copied, or filled, into the destination and nowhere else, and the descriptor's record is made; the engine turns to the ready channel
of the highest priority; and the record is pushed, or waits for room and tries again, as does a record
that a reset left (R13). -/
def Obligations.DmaChannels : Prop :=
  ∀ (s : State) (r : Req) (ch : Fin 64), s.railUp = true →
    let d := s.dmaCh ch
    let st := dCstat ch
    let p := (s.owner .dmaCh ch).getD 0
    let sup := s.rb (dCcfg ch) 16
    let dma (t : State) : State := { s with dma := t.dma }
    let others (t : State) : Prop := ∀ k, k ≠ ch.val → t.dmaCh k = s.dmaCh k
    let regs (a : Nat) : Prop := a = st ∨ a = dEstat ch
    (s.mayWrite (s.reqPart r) .dmaCh ch = true →
      (s.dState ch = dIdle → (s.owner .dmaCh ch).isSome = true → s.rb (dCcfg ch) 17 = true → s.rb (dChead ch) 48 = true →
        Does s (.ccmdStart r ch) regs dma (fun t => t.ioR st = setFld (s.ioR st) 1 0 1 ∧ t.rb (dEstat ch) 4 = true ∧ others t ∧
          t.dmaCh ch = { phase := .read, addr := ptrPay (s.rf (dChead ch) 63 52) (s.rf (dChead ch) 47 0), late := d.late })) ∧
      (¬ (s.dState ch = dIdle ∧ (s.owner .dmaCh ch).isSome = true ∧ s.rb (dCcfg ch) 17 = true ∧ s.rb (dChead ch) 48 = true) →
        Does s (.ccmdStart r ch) (· = st) (fun _ => s) (fun t => t.ioR st = setBit (s.ioR st) 2 true)) ∧
      (s.dState ch = dRun → Does s (.ccmdStop r ch) (fun _ => False) dma (fun t => t.dmaCh ch = { d with stop := true } ∧ others t)) ∧
      (s.dState ch = dHalt → Does s (.ccmdClear r ch) regs (fun _ => s) (fun t => t.ioR st = setFld (s.ioR st) 1 0 0))) ∧
    (∀ (c : W64) (w : Nat → Word) (pa : Nat), s.dState ch = dRun → d.phase = .read → s.sweep.heap = none → (w 0) = fixW c →
      fld c 63 16 = 0 → fld c 15 13 = 0 → fld c 11 0 = 0 → rawTag (w 1) → rawTag (w 2) → (∃ n, n ≠ 0 ∧ n < 2 ^ 40 ∧ w 3 = fixN n) → w 4 = fixN 0 →
      w 5 = fixN 0 → w 6 = nilW → (∀ i, i < 8 → EngHolds s p sup (ptrSel d.addr) (ptrOff d.addr + i) (pa + i) (w i)) →
      DoesMem s (.dmaDescriptorStart ch) (fun _ => False) (fun a => a = st ∨ a = dCcur ch) dma (fun t =>
        t.ioR st = setFld (setFld (s.ioR st) 63 48 (s.rf st 63 48 + 1)) 47 4 0 ∧ t.rf (dCcur ch) 63 52 = ptrSel d.addr ∧
        t.rf (dCcur ch) 47 0 = ptrOff d.addr ∧ t.rb (dCcur ch) 48 = true ∧ others t ∧
        t.dmaCh ch = { d with phase := .move, desc := [w 0, w 1, w 2, w 3, w 4, w 5, w 6, w 7] })) ∧
    (∀ (c : W64) (n spa dpa : Nat) (w : Nat → Word), Moving s ch c → (d.word 3).pay = n64 n → n ≠ 0 → (d.word 6) = nilW →
      let dst := (d.word 2).pay
      let src := (d.word 1).pay
      let done (t : State) : Prop := others t ∧ t.dmaProg ch = n ∧ t.dmaCh ch = { d with
        phase := .record, next := none, cont := false,
        recs := [(State.dmaRecord 0 0 ch (s.rf st 63 48) ((d.desc[7]?).getD nilW) n d.addr, match d.desc with | x :: _ => bitAt x.pay 12 | [] => false)] }
      let into (pa : Nat) : Prop := dpa ≤ pa ∧ pa < dpa + n
      (n ≤ 64 → ctlOp c = 0 → (∀ k, k < n → EngStores s p sup (ptrSel dst) (ptrOff dst + k) (dpa + k) (w k)) →
        (ctlSmode c = 0 → (spa + n ≤ dpa ∨ dpa + n ≤ spa) →
          (∀ k, k < n → EngHolds s p sup (ptrSel src) (ptrOff src + k) (spa + k) (w k)) →
          DoesMem s (.dmaWordTransfer ch) into regs dma (fun t => done t ∧ ∀ k, k < n → t.peekWord (dpa + k) = (w k, .ok))) ∧
        (ctlSmode c = 2 → (∀ k, w k = d.word 1) →
          DoesMem s (.dmaFillTransfer ch) into regs dma (fun t => done t ∧ ∀ k, k < n → t.peekWord (dpa + k) = (d.word 1, .ok)))) ∧
      (∀ x y : W64, n ≤ 8 → ctlOp c = 1 → ctlSmode c = 0 → (d.word 4).pay = 0#64 → (d.word 5).pay = 0#64 → spa ≠ dpa →
        EngHolds s p sup (ptrSel src) (ptrOff src) spa ⟨Tag.raww, x⟩ → (s.peekWord dpa).1 = ⟨Tag.raww, y⟩ →
        let z : Word := ⟨Tag.raww, payOf ((octetsOf 8 x).take n ++ (octetsOf 8 y).drop n)⟩
        EngStores s p sup (ptrSel dst) (ptrOff dst) dpa z →
        DoesMem s (.dmaByteTransfer ch) (· = dpa) regs dma (fun t => done t ∧ t.peekWord dpa = (z, .ok)))) ∧
    (∀ (e : Fin 4) (b : Nat), b / 16 = e.val → (∀ i, i < 16 → (s.dmaCh (16 * e + i)).stop = false) →
      s.dmaProg (s.dmaActive e) % State.blockOf ((s.dmaCh (s.dmaActive e)).word 0).pay = 0 → s.dmaReady b = true →
      (∀ k, k ≠ b → k / 16 = e.val → s.dmaReady k = true → s.rf (dCcfg b) 49 48 < s.rf (dCcfg k) 49 48) →
      Does s (.dmaBlockBoundary e) (· = Reg.DMA_ESTAT e) dma (fun t => t.dmaActive e = b ∧
        ∀ k, t.dmaCh k = if k = s.dmaActive e then { s.dmaCh k with bound := false } else s.dmaCh k)) ∧
    ∀ (it : Item) (irq : Bool),
      let q := s.rf (dCcfg ch) 15 0
      let pushed (t : State) : Prop := t.queue q = (s.queue q).accept 2 it ∧ (∀ k, k ≠ q → t.queue k = s.queue k) ∧ t.dState ch = dIdle ∧
        t.ioR (dCcur ch) = 0#64 ∧ t.dmaCh ch = { late := d.late } ∧ others t
      let view (t : State) : State := { s with dma := t.dma, queues := t.queues, qcache := t.qcache,
                                               pulses := if irq then s.pulses ++ [224 + ch.val] else s.pulses }
      let out (a : Nat) : Prop := regs a ∨ a = dCcur ch ∨ cacheRegs a
      d.recs = [(it, irq)] → d.cont = false → d.next = none → d.holds = [] →
      (Takes s p q (s.rf (dCcfg ch) 47 32) →
        (s.dState ch = dRun → d.phase = .record → Does s (.dmaRecordPush ch) out view pushed) ∧
        (s.dState ch = dCqwait → d.late = [] → s.now + 1000 < 2 ^ 64 →
          Does s (.cqwaitRetry ch) (fun a => out a ∨ a = Reg.CGL_TIMENS) view (fun t => pushed t ∧ t.now = s.now + 1000))) ∧
      (s.dState ch = dRun → d.phase = .record → s.dealerOff = false → s.genCurrent q (s.rf (dCcfg ch) 47 32) = true → s.queueOwner q = some p →
        cfgCap (s.queue q).cfg < (s.queue q).count + 1 →
        Does s (.dmaRecordPush ch) (fun a => regs a ∨ cacheRegs a) (fun t => { dma t with qcache := t.qcache }) (fun t =>
          t.dState ch = dCqwait ∧ others t ∧ t.dmaCh ch = { d with phase := .cqwait })) ∧
      (s.dState ch ≠ dCqwait →
        (d.late = [] → Idle s (.cqwaitRetry ch)) ∧
        ∀ k g, d.late = [(it, irq, k, g)] → Takes s p k g → s.now + 1000 < 2 ^ 64 →
          Does s (.cqwaitRetry ch) (fun a => cacheRegs a ∨ a = Reg.CGL_TIMENS) view (fun t =>
            t.queue k = (s.queue k).accept 2 it ∧ (∀ j, j ≠ k → t.queue j = s.queue j) ∧ t.dmaCh ch = { d with late := [] } ∧ others t ∧
            t.now = s.now + 1000))

/-! Meld. -/

/-- The slots of Meld (R316, R318, R327, R334, R338, R339, Table 12-1): each NCMD command makes its transition where Table 12-1 has one and flags an error
elsewhere; a load that completes stands the network in its slot, or fails with the code and place of its error; an unload empties the slot; a
refused record is pushed again; and LREQ takes 0 to 16 lanes, its transition starting where none runs. -/
def Obligations.MeldSlots : Prop :=
  ∀ (s : State) (r : Req) (n : Fin 8), s.railUp = true → s.nDefined n = true → (s.reqPart r = 0 ∨ s.nOwner n = s.reqPart r) →
    let a := Reg.MLD_NSTAT n
    let st := s.nState n
    let goes (cmd : Instr) (x : Nat) : Prop := Does s cmd (· = a) (fun _ => s) (fun t => t.ioR a = setFld (s.ioR a) 2 0 x)
    let errs (cmd : Instr) : Prop := Does s cmd (· = a) (fun _ => s) (fun t => t.ioR a = setBit (s.ioR a) 4 true)
    ((s.net n).rcd = none →
      (st = nEmpty → goes (.ncmdLoad r n) nLoading) ∧ (st ≠ nEmpty → errs (.ncmdLoad r n)) ∧
      (st = nReady ∨ st = nPaused ∨ st = nHold ∨ st = nFault → goes (.ncmdUnload r n) nUnloading) ∧
      (st = nEmpty ∨ st = nLoading ∨ st = nUnloading → errs (.ncmdUnload r n)) ∧
      (st = nReady → goes (.ncmdPause r n) nPaused) ∧ (st ≠ nReady → errs (.ncmdPause r n)) ∧
      (st = nPaused → goes (.ncmdResume r n) nReady) ∧ (st ≠ nPaused → errs (.ncmdResume r n)) ∧
      (st = nHold → goes (.ncmdClear r n) nReady) ∧ (st ≠ nHold → errs (.ncmdClear r n)) ∧
      (st = nReady ∨ st = nPaused → Does s (.ncmdPreload r n) (· = a) (fun _ => s) (fun t => t.ioR a = setBit (s.ioR a) 5 true)) ∧
      (st ≠ nReady → st ≠ nPaused → errs (.ncmdPreload r n))) ∧
    (st = nLoading → s.sweep.heap = none → ∀ (ws : List Word) (pa nn nr nc nu : Nat) (g : NetImg),
      let p := s.nOwner n
      let src := s.ioR (Reg.MLD_NSRC n)
      let view (t : State) : State := { s with meld := t.meld }
      let regs (x : Nat) : Prop := x = a ∨ x = Reg.MLD_NUSE n
      let hdr := netHeader (s.rf (Reg.MLD_NGEOM0 n) 20 0) ((ws.take 8).map (·.pay))
      8 ≤ ws.length → (∀ i, i < ws.length → EngHolds s p true (fld src 63 52) (fld src 47 0 + i) (pa + i) (ws.getD i Word.void)) →
      (∀ e, hdr = .error e → DoesMem s (.meldLoadComplete n) (fun _ => False) regs (fun _ => s) (fun t =>
        t.nState n = nEmpty ∧ t.rf a 23 16 = e.1 % 256 ∧ t.rf a 47 24 = e.2 % 2 ^ 24)) ∧
      (hdr = .ok (nn, nr, nc, nu) → ws.length = 8 + nr + 4 * nn + nc → netBody s.malformed ws nn nr nc nu = .ok g →
        DoesMem s (.meldLoadComplete n) (fun _ => False) regs view (fun t =>
          t.nState n = nReady ∧ t.rf a 47 16 = 0 ∧ t.ioR (Reg.MLD_NUSE n) = 0#64 ∧ (t.net n).rels = g.rels ∧ (t.net n).consts = g.consts ∧
          (t.net n).nodes.map (·.2) = g.nodes ∧ (t.net n).nrule = g.nrule ∧ (t.net n).amem = [] ∧ (∀ k, k ≠ n.val → t.net k = s.net k)))) ∧
    (st = nUnloading → (∀ e ∈ (s.net n).facts, e.2.phase ≠ .live) → (∀ e ∈ (s.net n).toks, e.2.phase ≠ .live) →
      Does s (.meldUnloadComplete n) (· = a) (fun t => { s with meld := t.meld }) (fun t =>
        t.ioR a = setFld (setFld (s.ioR a) 5 5 0) 2 0 nEmpty ∧ (∀ k, k ≠ n.val → t.net k = s.net k) ∧
        t.net n = { s.net n with rels := [], nodes := [], consts := [], nrule := 0, amem := [], outs := [], rcd := none, undo := none,
                                   tests := 0, after := 0 })) ∧
    (s.rb a 3 = false → Idle s (.meldPushRetry n)) ∧
    (∀ m : MRec, s.rb a 3 = true → (s.net n).rcd = some m → (s.net n).outs = [] → (s.net n).after = 0 → m.dest = .ncq → s.now + 1000 < 2 ^ 64 →
      let q := s.rf (Reg.MLD_NCQ n) 15 0
      s.rb (Reg.MLD_NCQ n) 32 = true → Takes s (s.nOwner n) q (s.rf (Reg.MLD_NCQ n) 31 16) →
      Does s (.meldPushRetry n) (fun x => x = a ∨ x = Reg.MLD_NCNT n ∨ x = Reg.CGL_TIMENS ∨ cacheRegs x)
        (fun t => { s with meld := t.meld, queues := t.queues, qcache := t.qcache }) (fun t =>
        t.queue q = (s.queue q).accept 2 (State.recItem n m) ∧ (∀ k, k ≠ q → t.queue k = s.queue k) ∧ t.ioR a = setFld (s.ioR a) 3 3 0 ∧
        t.net n = { s.net n with rcd := none, undo := none, tests := 0 } ∧ (∀ k, k ≠ n.val → t.net k = s.net k) ∧ t.now = s.now + 1000 ∧
        t.rf (Reg.MLD_NCNT n) 31 0 = (if m.failed then min (s.rf (Reg.MLD_NCNT n) 31 0 + 1) (2 ^ 32 - 1) else s.rf (Reg.MLD_NCNT n) 31 0))) ∧
    ∀ v : W64, s.reqPart r = 0 →
      (fld v 4 0 ≤ 16 → Does s (.mlanesWrite r v) (· = Reg.MLD_MLANES) (fun t => { s with modeTo := t.modeTo }) (fun t =>
        t.ioR Reg.MLD_MLANES = setFld (s.ioR Reg.MLD_MLANES) 4 0 (fld v 4 0) ∧
        Tab.get t.modeTo 244 0 = (if Tab.get s.modeTo 244 0 ≠ 0 then Tab.get s.modeTo 244 0
          else if fld v 4 0 = s.rf Reg.MLD_MLANES 12 8 then 0 else fld v 4 0 + 1) ∧
        ∀ k, k ≠ 244 → Tab.get t.modeTo k 0 = Tab.get s.modeTo k 0)) ∧
      (16 < fld v 4 0 → Idle s (.mlanesWrite r v))

/-- Meld's commands on a fact that no node holds or reaches (R320–R322, R325–R327, Tables 12-9 to 12-11): ASSERT makes the lowest slot never used a live fact
with the elements of the vector as its fields, MODIFY1 and MODIFYV replace the fields they name, RETRACT retires the fact; the view shows
the header, the fields and the time, nothing else in memory changes, and the command's record is pushed. -/
def Obligations.MeldCommands : Prop :=
  ∀ (s : State) (n : Fin 8) (q cls : Nat) (it : Item), s.railUp = true → Commanded s n q cls it →
    let h := it.w0.pay
    let p := s.nOwner n
    let use := Reg.MLD_NUSE n
    let entry (rel : Nat) : Nat := relEntry (((s.net n).rels[rel]?).getD 0#64)
    let at_ (f j : Nat) : Nat := (s.net n).viewBase + 16 * f + j
    let view (t : State) : State := { s with meld := t.meld, queues := t.queues, qcache := t.qcache }
    let regs (a : Nat) : Prop := a = use ∨ a = Reg.MLD_NCNT n ∨ a = Reg.MLD_NSTAT n
    let shown (t : State) (f : Nat) : Prop :=
      t.peekWord (at_ f 0) = (State.factHdr (t.fact n f), .ok) ∧ t.peekWord (at_ f 9) = (fixN s.now, .ok)
    (∀ (rel f : Nat) (w : Nat → Word), fld h 63 60 = 1 → fld h 59 48 = 0 → fld h 31 16 = rel → rel < (s.net n).rels.length →
      let nf := relNf (((s.net n).rels[rel]?).getD 0#64)
      (s.net n).nodes.length ≤ entry rel → nf ≤ 8 → it.w1 = nilW → EngVec s p it.w2 nf w → (∀ i, i < nf → isStructural (w i).tag = false) →
      f < s.nFcap n → (s.fact n f).phase = .free → (s.fact n f).freedAt = 0 →
      (∀ k, k < f → ¬ ((s.fact n k).phase = .free ∧ (s.fact n k).freedAt = 0)) →
      DoesMem s (.meldAssert n) (fun pa => at_ f 0 ≤ pa ∧ pa < at_ f 10) regs view (fun t =>
        Completed s t n q cls it f (State.factId n (s.fact n f).gen f) ∧ shown t f ∧ t.rf use 63 39 = (s.rf use 63 39 + 1) % 2 ^ 25 ∧
        t.fact n f = { s.fact n f with phase := .live, rel := rel, nf := nf, ver := ((s.fact n f).ver + 2) % 65536, used := true } ∧
        ∀ k, k < 8 → t.peekWord (at_ f (1 + k)) = (if k < nf then w k else Word.void, .ok))) ∧
    ∀ f, fld it.w1.pay 31 0 = f → it.w1.tag = Tag.fix → fld it.w1.pay 63 51 = 0 → fld it.w1.pay 50 48 = n.val → fld h 31 16 = 0 →
      let x := s.fact n f
      x.phase = .live → x.gen = fld it.w1.pay 47 32 → f < s.nFcap n → x.nf ≤ 8 → (s.net n).nodes.length ≤ entry x.rel →
      (∀ e ∈ (s.net n).amem, f ∉ e.2) → (∀ e ∈ (s.net n).toks, e.2.phase = .live → f ∉ e.2.facts) →
      (∀ k, k < x.nf → (s.peekWord (at_ f (1 + k))).2 ≠ .uncorr) →
      let changed (t : State) : Prop := Completed s t n q cls it f (State.factId n x.gen f) ∧ shown t f ∧ t.ioR use = s.ioR use ∧
        t.fact n f = { x with ver := (x.ver + 2) % 65536, used := true }
      (fld h 63 60 = 2 → fld h 59 48 = 0 → it.w2 = nilW →
        DoesMem s (.meldRetract n) (· = at_ f 0) regs (fun t => { view t with ash := s.ash ++ [{ kind := .fact n, ident := f, expiry := s.now + 2000000 }] })
          (fun t => Completed s t n q cls it f (State.factId n x.gen f) ∧ t.fact n f = { x with phase := .ash, gen := nextGen x.gen } ∧
            t.peekWord (at_ f 0) = (State.factHdr (t.fact n f), .ok) ∧ t.ioR use = setFld (s.ioR use) 63 39 (s.rf use 63 39 - 1))) ∧
      (fld h 63 60 = 3 → fld h 59 52 = 0 → fld h 50 48 < x.nf → s.malformed it.w2 = false → isStructural it.w2.tag = false →
        let k := fld h 50 48
        DoesMem s (.meldModify1 n) (fun pa => pa = at_ f 0 ∨ pa = at_ f 9 ∨ pa = at_ f (1 + k)) regs view (fun t =>
          changed t ∧ t.peekWord (at_ f (1 + k)) = (it.w2, .ok))) ∧
      ∀ w : Nat → Word, fld h 63 60 = 4 → fld h 50 48 = 0 → fld h 59 52 ≠ 0 → fld h 59 52 < 2 ^ x.nf → EngVec s p it.w2 x.nf w →
        (∀ i, i < x.nf → isStructural (w i).tag = false) →
        let named (k : Nat) : Prop := k < x.nf ∧ (fld h 59 52).testBit k = true
        DoesMem s (.meldModifyv n) (fun pa => pa = at_ f 0 ∨ pa = at_ f 9 ∨ ∃ k, named k ∧ pa = at_ f (1 + k)) regs view (fun t =>
          changed t ∧ ∀ k, named k → t.peekWord (at_ f (1 + k)) = (w k, .ok))

/-! Corgil. -/

/-- The remote instructions (R157, R158, R353, R356): RLD and RST send their request under a new transaction and the core waits for the answer; RPUSH sends
its item and goes on; EXPORT makes an entry of the export table and answers its REM word; UNEXPORT retires one. -/
def Obligations.RemoteInstructions : Prop :=
  ∀ (s : State) (c : CoreId) (d a b : RegN) (p k : Nat) (rt : W64), AtEase s c.val →
    let w := s.reg c.val a.val
    let vb := s.reg c.val b.val
    let dst := remNode w.pay
    let q := s.corePart c.val
    let x : CTxn := { phase := .live, gen := (s.txn k).gen, part := q, core := c, a := a, b := b, d := d, sent := true, firstSend := s.now,
                      lastSend := s.now }
    let posted (t : State) (y : CTxn) (m : CMsg) : Prop := t.txn k = { y with msg := some m } ∧ (∀ j, j ≠ k → t.txn j = s.txn j) ∧
      Left s t p rt m ∧ t.cg = { s.cg with ports := t.cg.ports, txns := t.cg.txns }
    let waits (i : Instr) (y : CTxn) (m : CMsg) : Prop := Does s i (fun r => cacheRegs r) (fun t => { s with cores := t.cores, cg := t.cg })
      (fun t => posted t y m ∧ t.core c.val = { s.core c.val with wait := .remote k, accs := [] } ∧ ∀ j, j ≠ c.val → t.core j = s.core j)
    (w.tag = Tag.rem → s.malformed w = false → Linked s dst p rt → FreshTxn s k →
      (vb.tag = Tag.fix → waits (.rld c d a b) { x with kind := .rld } (s.mkMsg .rd dst k x.gen [w, vb]) ∧
        (Plain s (s.reg c.val d.val) → waits (.rst c d a b) { x with kind := .rst } (s.mkMsg .wr dst k x.gen [w, vb, s.reg c.val d.val]))) ∧
      (∀ n, d.val % 4 = 0 → Handle s c.val vb n true →
        (let it := s.quad c.val d.val
         Plain s it.w0 → Plain s it.w1 → Plain s it.w2 → Plain s it.w3 →
          ∃ t, exec (.rpush c d a b) s = .next t ∧
            posted t { x with kind := .rpush, remW := w, item0 := it.w0, que := vb.pay } (s.mkMsg .push dst k x.gen [w, it.w0, it.w1, it.w2, it.w3]) ∧
            KeepsUnit s t c.val [] false 0 (fun _ => False) { s with cg := t.cg, qcache := t.qcache }))) ∧
    (s.sup c.val = true → ∀ i,
      let r := s.ioR (Reg.CGL_XRANGE q)
      ((s.isPtr w.tag = true ∨ (w.tag = Tag.que ∧ quePush w.pay = true)) → s.malformed w = false → bitAt r 63 = true → fld r 23 0 ≤ i →
        i < fld r 23 0 + fld r 48 24 → (s.xent i).phase = .free → (s.xent i).freedAt = 0 →
        (∀ j, fld r 23 0 ≤ j → j < i → ¬ ((s.xent j).phase = .free ∧ (s.xent j).freedAt = 0)) →
        ∃ t, exec (.exportI c d a) s = .next t ∧ t.reg c.val d.val = remWord s.cgNode (s.xent i).gen i ∧
          t.xent i = { s.xent i with phase := .live, queue := w.tag == Tag.que, auto := false, part := q, count := 0, target := w } ∧
          (∀ j, j ≠ i → t.xent j = s.xent j) ∧
          KeepsUnit s t c.val [d.val] false (regGrp d.val) (fun _ => False) { s with cg := { s.cg with exports := t.cg.exports } }) ∧
      (w.tag = Tag.rem → s.malformed w = false → dst = s.cgNode → remIdx w.pay = i → (s.xent i).phase = .live → (s.xent i).gen = remGen w.pay →
        (s.xent i).part = q → s.cycleHeap q = none → s.sweep.heap = none ∨ (s.xent i).target.tag ≠ Tag.rem →
        ∃ t, exec (.unexport c a) s = .next t ∧
          t.xent i = { s.xent i with phase := .ash, gen := nextGen (s.xent i).gen, count := 0, target := Word.void } ∧
          (∀ j, j ≠ i → t.xent j = s.xent j) ∧ t.ash = s.ash ++ [{ kind := .xport, ident := i, expiry := s.now + 2000000 }] ∧
          KeepsUnit s t c.val [] false 0 (fun _ => False) { s with cg := { s.cg with exports := t.cg.exports }, ash := t.ash }))

/-- The service of requests (R354, R357, R359, R360, R361): RD is answered with the element, WR stores it and is answered, PUSH enters the queue once and
is answered each time, a request for an index in no range is answered NOENTRY, REFINC counts and is answered, REFDEC counts down and
retires an automatic entry, filter entries leave after their time, and an epoch's end drops the imports not seen in it. -/
def Obligations.RemoteService : Prop :=
  ∀ (s : State) (m : CMsg) (pre post : List CMsg) (p : Nat) (rt : W64), s.railUp = true → Inbox s m pre post → Linked s m.src.toNat p rt →
    s.sweep.heap = none →
    let r := (bodyW m 0).pay
    let i := remIdx r
    let e := s.xent i
    let reply (k : CKind) (body : List Word) : CMsg := s.mkMsg k m.src.toNat m.txid.toNat m.txgen.toNat body
    let answered (t : State) (k : CKind) (body : List Word) : Prop := t.cg.inbox = pre ++ post ∧ Left s t p rt (reply k body)
    let view (t : State) : State := { s with cg := { s.cg with inbox := t.cg.inbox, ports := t.cg.ports, exports := t.cg.exports } }
    let kept (t : State) : Prop := ∀ j, t.xent j = s.xent j
    (m.kind = .rd → s.xOwner i = none → Does s .rd (fun a => cacheRegs a) view (fun t =>
      answered t .nak [fixW (putFld 7 0 NakCode.noentry)] ∧ kept t)) ∧
    (∀ o, s.xOwner i = some o → (s.part o).resetting = false → (s.part o).resetReq = false → e.phase = .live → e.gen = remGen r →
      (∀ n v (j : Nat), m.kind = .rd → e.queue = false → EngVec s o e.target n v → (bodyW m 1).pay.toInt = (j : Int) → j < n → Plain s (v j) →
        DoesMem s .rd (fun _ => False) (fun _ => False) view (fun t => answered t .rdack [v j] ∧ kept t)) ∧
      (∀ n v (j pa : Nat), m.kind = .wr → e.queue = false → s.rb (Reg.CGL_XRANGE o) 62 = true → EngVec s o e.target n v →
        (∀ q hdr, EngHolds s o true (ptrSel e.target.pay) (ptrOff e.target.pay) q ⟨Tag.hdr, hdr⟩ → bitAt hdr 55 = false) →
        (bodyW m 1).pay.toInt = (j : Int) → j < n → Plain s (bodyW m 2) →
        EngStores s o true (ptrSel e.target.pay) (ptrOff e.target.pay + 1 + j) pa (bodyW m 2) →
        DoesMem s .wr (· = pa) (fun _ => False) view (fun t => answered t .wrack [] ∧ kept t ∧ t.peekWord pa = (bodyW m 2, .ok))) ∧
      (m.kind = .push → e.queue = true →
        let it : Item := ⟨bodyW m 1, bodyW m 2, bodyW m 3, bodyW m 4⟩
        let q := queNum e.target.pay
        (∀ w ∈ [it.w0, it.w1, it.w2, it.w3], Plain s w) → Takes s o q (queGen e.target.pay) → s.cg.filter.length < 65536 →
        (∀ y ∈ s.cg.filter, ¬ (y.1 = m.src.toNat ∧ y.2.1 = m.txid.toNat ∧ y.2.2.1 = m.txgen.toNat)) →
        Does s .push (fun a => cacheRegs a)
          (fun t => { view t with queues := t.queues, qcache := t.qcache,
                                  cg := { (view t).cg with filter := s.cg.filter ++ [(m.src.toNat, m.txid.toNat, m.txgen.toNat, s.now + 12000000)] } })
          (fun t => answered t .pushack [] ∧ t.queue q = (s.queue q).accept 2 it ∧ ∀ k, k ≠ q → t.queue k = s.queue k))) ∧
    (m.kind = .push → (∃ y ∈ s.cg.filter, y.1 = m.src.toNat ∧ y.2.1 = m.txid.toNat ∧ y.2.2.1 = m.txgen.toNat) →
      Does s .push (fun a => cacheRegs a) view (fun t => answered t .pushack [] ∧ kept t)) ∧
    (let j := fld r 23 0
     let y := s.xent j
     (m.kind = .refinc → y.phase = .live → y.gen = fld r 39 24 → Does s .refinc (fun a => cacheRegs a) view (fun t =>
       answered t .refack m.body ∧ t.xent j = { y with count := y.count + 1 } ∧ ∀ k, k ≠ j → t.xent k = s.xent k)) ∧
     (m.kind = .refdec → y.phase = .live → y.gen = fld r 39 24 →
       (¬ (y.auto = true ∧ y.count ≤ 1) → Does s .refdec (fun _ => False) view (fun t =>
         t.cg.inbox = pre ++ post ∧ t.xent j = { y with count := y.count - 1 } ∧ ∀ k, k ≠ j → t.xent k = s.xent k)) ∧
       (y.auto = true → y.count ≤ 1 → Does s .refdec (fun _ => False) (fun t => { view t with ash := t.ash }) (fun t =>
         (t.xent j).phase = .ash ∧ (t.xent j).gen = nextGen y.gen ∧ (t.xent j).target = Word.void ∧ (∀ k, k ≠ j → t.xent k = s.xent k) ∧
         t.ash = s.ash ++ [{ kind := .xport, ident := j, expiry := s.now + 2000000 }])))) ∧
    (∀ f rest, s.cg.filter = f :: rest → f.2.2.2 < 2 ^ 64 → Does s .pushFilterExpiry (· = Reg.CGL_TIMENS)
      (fun t => { s with cg := { s.cg with filter := t.cg.filter } }) (fun t =>
      t.now = max s.now f.2.2.2 ∧ t.cg.filter = s.cg.filter.filter (fun y => decide (t.now < y.2.2.2)))) ∧
    ((∃ h, h < 16 ∧ s.heapDefined h = true) → (∀ h, h < 16 → s.heapDefined h = true → h ∈ s.cg.epDone) →
      Does s .importRelease (fun a => cacheRegs a)
        (fun t => { s with cg := { s.cg with inbox := t.cg.inbox, ports := t.cg.ports, imports := t.cg.imports, epStart := [], epDone := [] } }) (fun t =>
        t.cg.imports = (s.cg.imports.filter (·.seen)).map (fun y => { y with seen := false })))

/-- The answers and the times of transactions (R157, R158, R356–R358, R360): RDACK writes the waiting core's register and WRACK lets it go on; PUSHACK ends
an RPUSH with its record, BUSY and a timeout ask for a resend and 8 ms end it; a refused record is pushed again; and REFACK lets a held answer
go. -/
def Obligations.RemoteAnswers : Prop :=
  ∀ (s : State) (m : CMsg) (pre post : List CMsg) (k : BitVec 16) (c : CoreId), s.railUp = true → (∀ j n, (s.core j).wait ≠ .fence n) →
    let x := s.txn k.toNat
    let q := queNum x.que
    let cg (t : State) : State := { s with cg := { s.cg with inbox := pre ++ post, ports := t.cg.ports, txns := t.cg.txns } }
    (Inbox s m pre post → Answered s m k.toNat →
      (x.core = c.val → (s.core c.val).wait = .remote k.toNat → s.running c.val = true → s.dbgOn c.val = false → x.d < 32 →
        let view (t : State) : State := { s.modCore c.val (fun y => { y with wait := .none }) with cg := (cg t).cg, ash := t.ash }
        (m.kind = .rdack → x.kind = .rld → (bodyW m 0).tag ≠ Tag.rem → ∃ t, exec .rdack s = .next t ∧ Ended s t k.toNat ∧
          t.reg c.val x.d = bodyW m 0 ∧ KeepsUnit s t c.val [x.d] false (regGrp x.d) (fun _ => False) (view t)) ∧
        (m.kind = .wrack → x.kind = .rst → ∃ t, exec .wrack s = .next t ∧ Ended s t k.toNat ∧
          KeepsUnit s t c.val [] false 0 (fun _ => False) (view t))) ∧
      (m.kind = .pushack → x.kind = .rpush → x.rcd = none → quePush x.que = true → Takes s x.part q (queGen x.que) →
        Does s .pushack (fun a => cacheRegs a) (fun t => { cg t with ash := t.ash, queues := t.queues, qcache := t.qcache }) (fun t =>
          Ended s t k.toNat ∧ t.queue q = (s.queue q).accept 2 (s.rpushRecord k.toNat false 0 1) ∧ ∀ j, j ≠ q → t.queue j = s.queue j)) ∧
      (m.kind = .nak → x.kind = .rpush → x.rcd = none → fld (bodyW m 0).pay 7 0 = NakCode.busy → Does s .nak (fun _ => False) cg (fun t =>
        t.txn k.toNat = { x with nak := NakCode.busy, qreason := fld (bodyW m 0).pay 15 8, again := true } ∧
        ∀ j, j ≠ k.toNat → t.txn j = s.txn j)) ∧
      (∀ y p rt, m.kind = .refack → x.kind = .refinc → x.parent = none → x.held = some y → Linked s y.dst.toNat p rt →
        Does s .refack (fun a => cacheRegs a) (fun t => { cg t with ash := t.ash }) (fun t => Ended s t k.toNat ∧ Left s t p rt y))) ∧
    (x.phase = .live → x.kind = .rpush → x.rcd = none →
      let txns (t : State) : State := { s with cg := { s.cg with txns := t.cg.txns } }
      let others (t : State) : Prop := ∀ j, j ≠ k.toNat → t.txn j = s.txn j
      (x.sent = true → x.again = false → x.lastSend + s.toutNs < 2 ^ 64 → Does s (.transactionTimeout k) (· = Reg.CGL_TIMENS) txns (fun t =>
        t.now = max s.now (x.lastSend + s.toutNs) ∧ t.txn k.toNat = { x with again := true, lost := true } ∧ others t)) ∧
      (∀ y p rt, x.again = true → s.now < x.firstSend + 8000000 → x.msg = some y → Linked s y.dst.toNat p rt → x.sent = true →
        Does s (.rpushResend k) (fun a => cacheRegs a) (fun t => { txns t with cg := { (txns t).cg with ports := t.cg.ports } }) (fun t =>
          Left s t p rt y ∧ t.txn k.toNat = { x with again := false, lastSend := s.now } ∧ others t)) ∧
      (x.sent = true → x.firstSend + 8000000 < 2 ^ 64 → quePush x.que = true → Takes s x.part q (queGen x.que) →
        (∀ e ∈ s.cg.txns, e.2.phase = .live → e.2.parent ≠ some k.toNat) →
        Does s (.rpushGiveUp k) (fun a => a = Reg.CGL_TIMENS ∨ cacheRegs a) (fun t => { txns t with ash := t.ash, queues := t.queues, qcache := t.qcache })
          (fun t => Ended s t k.toNat ∧ t.now = max s.now (x.firstSend + 8000000) ∧ (∀ j, j ≠ q → t.queue j = s.queue j) ∧
            t.queue q = (s.queue q).accept 2 { s.rpushRecord k.toNat true 0x11 (if x.lost || !x.again then 2 else 0) with w3 := fixN t.now }))) ∧
    ∀ it, x.phase = .live → x.rcd = some it → quePush x.que = true → Takes s x.part q (queGen x.que) →
      (∀ e ∈ s.cg.txns, e.2.phase = .live → e.2.parent ≠ some k.toNat) →
      Does s (.rpushRecordRetry k) (fun a => cacheRegs a)
        (fun t => { s with cg := { s.cg with txns := t.cg.txns }, ash := t.ash, queues := t.queues, qcache := t.qcache })
        (fun t => Ended s t k.toNat ∧ t.queue q = (s.queue q).accept 2 it ∧ ∀ j, j ≠ q → t.queue j = s.queue j)

/-! Corgil's links, the Stoker and the field. -/

/-- Corgil ports (R342–R346, R351, R363, R364): a port trains, comes up, retrains and goes down; a DATA frame in sequence delivers or forwards its messages, and
any other is answered by NAK; an acknowledgement releases frames, and NAK and the timeout replay them; and a message held too long, or by a
lost link, is withdrawn, a request being answered for its sender. -/
def Obligations.LinkPorts : Prop :=
  ∀ (s : State) (p : Fin 4) (seq ack : BitVec 12) (msgs : List CMsg) (tr : TrainRes) (r : Req) (v : W64), s.railUp = true →
    let x := s.cport p
    let st := Reg.CGLP_PSTAT p
    let err := Reg.CGLP_PERR p
    let mode := Reg.CGLP_PCFG p
    let view (t : State) : State := { s with cg := { s.cg with ports := t.cg.ports } }
    let boxed (t : State) : State := { s with cg := { s.cg with ports := t.cg.ports, inbox := t.cg.inbox } }
    let port (t : State) (y : CPort) : Prop := t.cport p = y ∧ ∀ q, q ≠ p.val → t.cport q = s.cport q
    let held := x.txq ++ (x.retry.map (·.2)).flatten
    let quiet : Prop := ∀ f ∈ x.retry.head?, f.1 = ack.toNat
    let moded (t : State) : State := { s with modeTo := t.modeTo }
    let pending (t : State) (n : Nat) : Prop := Tab.get t.modeTo (240 + p) 0 = n ∧ ∀ k, k ≠ 240 + p.val → Tab.get t.modeTo k 0 = Tab.get s.modeTo k 0
    let more (t : State) (hi lo n : Nat) : Prop := t.rf err hi lo = min (s.rf err hi lo + n) 65535
    let lost (t : State) : Prop := t.ioR st = setFld (setFld (s.ioR st) 2 0 pDown) 10 4 0 ∧ t.ioR err = setBit (s.ioR err) 0 true ∧
      t.ioR Reg.CGL_CSTAT = setFld (s.ioR Reg.CGL_CSTAT) 47 32 (min (s.rf Reg.CGL_CSTAT 47 32 + held.length) 65535) ∧
      port t { x with txq := [], retry := [], txSeq := 0, rxSeq := 0, replays := 0, width := 0 }
    (s.pState p ≠ pUp →
      (∀ ok, Idle s (.dataFrameReceive p ok seq ack msgs)) ∧ Idle s (.nakFrame p ack) ∧ Idle s (.ackFrame p ack) ∧ Idle s (.idleFrame p ack) ∧
      Idle s (.heartbeatSend p) ∧ Idle s (.replayTimeout p) ∧ Idle s (.linkLoss p) ∧ Idle s (.laneWake p) ∧ Idle s (.laneSleep p)) ∧
    (s.pState p = pUp →
      Does s (.dataFrameReceive p false seq ack msgs) (· = err) view (fun t => more t 63 48 1 ∧
        setFld (t.ioR err) 63 48 0 = setFld (s.ioR err) 63 48 0 ∧ port t { x with lastCtl := some (.nak x.rxSeq) }) ∧
      Does s (.heartbeatSend p) cacheRegs view (fun t => port t { x with lastCtl := some (.idle x.rxSeq) }) ∧
      (seq.toNat ≠ x.rxSeq → Does s (.dataFrameReceive p true seq ack msgs) cacheRegs view (fun t =>
        port t { x with lastRx := s.now, lastCtl := some (.nak x.rxSeq) })) ∧
      (quiet →
        (seq.toNat = x.rxSeq →
          let got : CPort := { x with lastRx := s.now, rxSeq := (seq.toNat + 1) % 4096, lastCtl := some (.ack ((seq.toNat + 1) % 4096)) }
          ((∀ m ∈ msgs, m.hidx = m.hops ∧ m.dst.toNat = s.cgNode) →
            Does s (.dataFrameReceive p true seq ack msgs) cacheRegs boxed (fun t => port t got ∧ t.cg.inbox = s.cg.inbox ++ msgs)) ∧
          (∀ m : CMsg, m.hops.toNat ≤ m.hidx.toNat → ¬ (m.hidx = m.hops ∧ m.dst.toNat = s.cgNode) →
            Does s (.dataFrameReceive p true seq ack [m]) (fun a => a = Reg.CGL_CSTAT ∨ cacheRegs a) view (fun t =>
              port t got ∧ t.ioR Reg.CGL_CSTAT = setBit (s.ioR Reg.CGL_CSTAT) 0 true)) ∧
          (∀ m : CMsg, m.hidx.toNat < m.hops.toNat →
            let q := (m.route.toNat >>> (2 * m.hidx.toNat)) % 4
            let y := s.cport q
            let n : CMsg := { m with hidx := m.hidx + 1#5 }
            q ≠ p.val →
            Does s (.dataFrameReceive p true seq ack [m]) cacheRegs view (fun t =>
              t.cport p = got ∧ (∀ k, k ≠ p.val → k ≠ q → t.cport k = s.cport k) ∧
              (s.pState q ≠ pUp → t.cport q = { y with txq := y.txq ++ [{ msg := n, at_ := s.now }] }) ∧
              (s.pState q = pUp → y.txq = [] → y.retry = [] → t.cport q =
                { y with retry := [(y.txSeq, [{ msg := n, at_ := s.now, sent := true }])], txSeq := (y.txSeq + 1) % 4096, sentAt := s.now })))) ∧
        Does s (.ackFrame p ack) cacheRegs view (fun t => port t { x with lastRx := s.now }) ∧
        Does s (.idleFrame p ack) cacheRegs view (fun t => port t { x with lastRx := s.now }) ∧
        (x.retry = [] → Idle s (.replayTimeout p) ∧ Does s (.nakFrame p ack) cacheRegs view (fun t => port t { x with lastRx := s.now })) ∧
        (x.retry ≠ [] →
          (x.replays + 1 < 16 →
            Does s (.nakFrame p ack) (fun a => a = err ∨ cacheRegs a) view (fun t => more t 47 32 1 ∧
              setFld (t.ioR err) 47 32 0 = setFld (s.ioR err) 47 32 0 ∧ port t { x with lastRx := s.now, replays := x.replays + 1, sentAt := s.now }) ∧
            (x.sentAt + 2000 < 2 ^ 64 →
              Does s (.replayTimeout p) (fun a => a = err ∨ a = Reg.CGL_TIMENS ∨ cacheRegs a) view (fun t =>
                t.now = max s.now (x.sentAt + 2000) ∧ more t 47 32 1 ∧ port t { x with replays := x.replays + 1, sentAt := t.now }))) ∧
          (16 ≤ x.replays + 1 → Does s (.nakFrame p ack) (fun a => a = err ∨ a = st ∨ cacheRegs a) view (fun t =>
            t.ioR st = setFld (s.ioR st) 2 0 pRetrain ∧ more t 47 32 1 ∧ more t 31 16 1 ∧
            port t { x with lastRx := s.now, replays := 0, sentAt := s.now })))) ∧
      (∀ pre post, x.retry = pre ++ post → pre ≠ [] → (∀ f ∈ pre, (ack.toNat + 4096 - f.1) % 4096 ≤ 2048 ∧ f.1 ≠ ack.toNat) →
        (∀ f ∈ post.head?, f.1 = ack.toNat) → x.txq = [] →
        let freed : CPort := { x with lastRx := s.now, retry := post, replays := 0, sentAt := s.now }
        Does s (.ackFrame p ack) cacheRegs view (fun t => port t freed) ∧ Does s (.idleFrame p ack) cacheRegs view (fun t => port t freed)) ∧
      (s.pMode p = 2 → Does s (.laneWake p) (· = st) (fun _ => s) (fun t => t.ioR st = setFld (s.ioR st) 6 4 x.width) ∧
        Does s (.laneSleep p) (· = st) (fun _ => s) (fun t => t.ioR st = setFld (s.ioR st) 6 4 1)) ∧
      (s.pMode p ≠ 2 → Idle s (.laneWake p) ∧ Idle s (.laneSleep p)) ∧
      (x.lastRx + 3000000 < 2 ^ 64 → (∀ m ∈ held, kindCls m.msg.kind ≠ 0) →
        Does s (.linkLoss p) (fun a => a = st ∨ a = err ∨ a = Reg.CGL_CSTAT ∨ a = Reg.CGL_TIMENS) view (fun t =>
          t.now = max s.now (x.lastRx + 3000000) ∧ lost t))) ∧
    (held = [] → Idle s (.residenceLimit p)) ∧
    (∀ f ∈ held, (∀ m ∈ held, f.at_ ≤ m.at_) → f.at_ + 40000 < 2 ^ 64 →
      let T := max s.now (f.at_ + 40000)
      let stay : TxMsg → Bool := fun m => decide (T < m.at_ + 40000)
      ((∀ m ∈ held, stay m = false → kindCls m.msg.kind ≠ 0) →
        Does s (.residenceLimit p) (fun a => a = Reg.CGL_CSTAT ∨ a = Reg.CGL_TIMENS) view (fun t => t.now = T ∧
          port t { x with txq := x.txq.filter stay, retry := x.retry.map (fun f => (f.1, f.2.filter stay)) } ∧
          t.ioR Reg.CGL_CSTAT = setFld (s.ioR Reg.CGL_CSTAT) 47 32
            (min (s.rf Reg.CGL_CSTAT 47 32 + (held.filter (fun m => !stay m)).length) 65535))) ∧
      (held = [f] → kindCls f.msg.kind = 0 → f.msg.src.toNat = s.cgNode →
        Does s (.residenceLimit p) (fun a => a = Reg.CGL_CSTAT ∨ a = Reg.CGL_TIMENS) boxed (fun t => t.now = T ∧
          t.cg.inbox = s.cg.inbox ++ [s.mkMsg .nak s.cgNode f.msg.txid.toNat f.msg.txgen.toNat
            [fixW (putFld 7 0 (if f.sent then NakCode.lost else NakCode.unreach))]]))) ∧
    (s.pState p = pDown → s.cgValid = true → Does s (.partnerDetect p) (· = st) (fun _ => s) (fun t => t.ioR st = setFld (s.ioR st) 2 0 pTrain)) ∧
    (¬ (s.pState p = pDown ∧ s.cgValid = true) → Idle s (.partnerDetect p)) ∧
    (s.pState p ≠ pTrain → Idle s (.trainingEnd p tr)) ∧
    (s.pState p = pTrain →
      (tr.lanes.val = 0 → Does s (.trainingEnd p tr) (· = st) (fun _ => s) (fun t => t.ioR st = setFld (s.ioR st) 2 0 pDown)) ∧
      (tr.lanes.val ≠ 0 → tr.node.toNat = s.cgNode → Does s (.trainingEnd p tr) (fun a => a = st ∨ a = Reg.CGL_CSTAT) (fun _ => s) (fun t =>
        t.ioR st = setFld (s.ioR st) 2 0 pDown ∧ t.ioR Reg.CGL_CSTAT = setBit (s.ioR Reg.CGL_CSTAT) 4 true)) ∧
      (tr.lanes.val ≠ 0 → tr.node.toNat ≠ s.cgNode → x.txq = [] →
        let w := if 4 ≤ tr.lanes.val then 4 else if 2 ≤ tr.lanes.val then 2 else 1
        Does s (.trainingEnd p tr) (fun a => a = st ∨ a = Reg.CGLP_PDELAY p) view (fun t =>
          t.pState p = pUp ∧ t.rf st 27 16 = tr.node.toNat ∧ t.rf st 29 28 = tr.port.val ∧ t.rf st 10 8 = w ∧
          t.rf st 6 4 = (if s.pMode p = 2 then 1 else w) ∧ t.rf (Reg.CGLP_PDELAY p) 15 0 = tr.delay.toNat ∧
          port t { x with width := w, lastRx := s.now, replays := 0, txSeq := 0, rxSeq := 0 }))) ∧
    (s.pState p ≠ pRetrain → ∀ ok, Idle s (.retrainEnd p ok)) ∧
    (s.pState p = pRetrain →
      (x.txq = [] →
        (x.retry = [] → Does s (.retrainEnd p true) (· = st) view (fun t =>
          t.ioR st = setFld (s.ioR st) 2 0 pUp ∧ port t { x with lastRx := s.now, sentAt := s.now })) ∧
        (x.retry ≠ [] → x.replays + 1 < 16 → Does s (.retrainEnd p true) (fun a => a = st ∨ a = err ∨ cacheRegs a) view (fun t =>
          t.ioR st = setFld (s.ioR st) 2 0 pUp ∧ more t 47 32 1 ∧
          port t { x with lastRx := s.now, replays := x.replays + 1, sentAt := s.now }))) ∧
      ((∀ m ∈ held, kindCls m.msg.kind ≠ 0) →
        Does s (.retrainEnd p false) (fun a => a = st ∨ a = err ∨ a = Reg.CGL_CSTAT) view lost)) ∧
    (s.reqPart r = 0 → fld v 1 0 < 3 → Does s (.pcfgModeWrite r p v) (· = mode) moded (fun t =>
      t.ioR mode = setFld (s.ioR mode) 1 0 (fld v 1 0) ∧
      pending t (if Tab.get s.modeTo (240 + p) 0 ≠ 0 ∨ fld v 1 0 = s.pMode p then Tab.get s.modeTo (240 + p) 0 else fld v 1 0 + 1))) ∧
    (¬ (s.reqPart r = 0 ∧ fld v 1 0 < 3) → Idle s (.pcfgModeWrite r p v)) ∧
    (let req := s.rf mode 1 0
     let goal := s.modeTarget (240 + p) req
     let follows (t : State) : Prop := t.pMode p = goal ∧ pending t (if req = goal then 0 else req + 1)
     (goal = 0 → s.pState p ≠ pUp → s.pState p ≠ pRetrain →
       Does s (.modeTransitionComplete (.corgilPort p)) (fun a => a = mode ∨ a = st) moded (fun t =>
         follows t ∧ t.ioR st = setFld (setFld (s.ioR st) 10 4 0) 2 0 pOff)) ∧
     (goal ≠ 0 → goal < 4 → s.pState p = pOff → s.cgValid = true →
       Does s (.modeTransitionComplete (.corgilPort p)) (fun a => a = mode ∨ a = st) moded (fun t =>
         follows t ∧ t.ioR st = setFld (s.ioR st) 2 0 pDown)) ∧
     (goal ≠ 0 → goal < 4 → s.pState p = pUp →
       Does s (.modeTransitionComplete (.corgilPort p)) (fun a => a = mode ∨ a = st) moded (fun t =>
         follows t ∧ t.ioR st = setFld (s.ioR st) 6 4 (if goal = 2 then 1 else x.width))))

/-- Corgil's other events (R348, R362, R365, R374–R377): a route entry is replaced; TIME is sent, taken and missed; a grant of the master is
taken and ends; demands are sent and recorded; and the master grants in passes whose numbers restart after 4 ms. -/
def Obligations.LinkMessages : Prop :=
  ∀ (s : State) (m : CMsg) (pre post : List CMsg) (r : Req) (v : W64), s.railUp = true →
    let w (i : Nat) : Word := bodyW m i
    let boxed (t : State) : State := { s with cg := { s.cg with inbox := t.cg.inbox } }
    let time (t : State) : State := { s with cg := { s.cg with inbox := t.cg.inbox, slew := t.cg.slew, lastTime := t.cg.lastTime } }
    let granted (t : State) : State := { s with stk := { s.stk with grants := t.stk.grants } }
    let dem (t : State) : Prop := ∀ ph, ph < 3 → t.ioR (Reg.STK_DEMP ph) = qPay (s.phaseDemand ph) dimA
    let isDem (a : Nat) : Prop := ∃ ph, ph < 3 ∧ a = Reg.STK_DEMP ph
    let cap (ph : Nat) : Int := qVal (s.ioR (Reg.STK_MCAP ph))
    let flr (ph : Nat) : Int := qVal (s.ioR (Reg.STK_MFLOOR ph))
    (let d := s.rf Reg.CGL_RTQRY 11 0
     let alt := s.rb Reg.CGL_RTQRY 12
     s.reqPart r = 0 → Does s (.rtentWrite r v) (fun _ => False) (fun t => { s with cg := { s.cg with routes := t.cg.routes } }) (fun t =>
       t.routeEnt d alt = (putFld 63 63 (bitAt v 63).toNat |||
         putFld 52 48 (if 1 ≤ fld v 52 48 ∧ fld v 52 48 ≤ 24 then fld v 52 48 else fld (s.routeEnt d alt) 52 48) ||| putFld 47 0 (fld v 47 0)) ∧
       ∀ d' alt', ¬ (d' = d ∧ alt' = alt) → t.routeEnt d' alt' = s.routeEnt d' alt')) ∧
    (s.reqPart r ≠ 0 → Idle s (.rtentWrite r v)) ∧
    (s.isTimeMaster = false → Idle s .timeSend) ∧
    (∀ p, s.isTimeMaster = true → s.timePorts = [p] → s.pState p = pUp → (s.cport p).txq = [] → (s.cport p).retry = [] →
      let x := s.cport p
      let m : CMsg := { s.mkMsg .time (s.rf (Reg.CGLP_PSTAT p) 27 16) 0 0 [fixN (s.now + s.rf (Reg.CGLP_PDELAY p) 15 0), fixN 1] with
        hops := 1#5, hidx := 1#5, route := BitVec.ofNat 48 p }
      Does s .timeSend cacheRegs (fun t => { s with cg := { s.cg with ports := t.cg.ports } }) (fun t =>
        t.cport p = { x with retry := [(x.txSeq, [{ msg := m, at_ := s.now, sent := true }])], txSeq := (x.txSeq + 1) % 4096, sentAt := s.now } ∧
        ∀ k, k ≠ p → t.cport k = s.cport k)) ∧
    (Inbox s m pre post →
      (m.kind = .time →
        (s.isTimeMaster = true → Does s .timeMessage (fun _ => False) boxed (fun t => t.cg.inbox = pre ++ post)) ∧
        (s.isTimeMaster = false → s.timePorts = [] →
          let T := (w 0).pay.toNat
          Does s .timeMessage (· = Reg.CGL_TIMENS) time (fun t => t.cg.inbox = pre ++ post ∧ t.cg.lastTime = t.now ∧
            (s.now + 1000000 < T → t.now = T ∧ t.cg.slew = 0) ∧ (T ≤ s.now + 1000000 → t.now = s.now ∧ t.cg.slew = (T : Int) - s.now)))) ∧
      (m.kind = .bgrant →
        let seq := fld (w 3).pay 31 0
        let good : Prop := m.src.toNat = s.rf Reg.CGL_NODECFG 55 44 ∧ s.rf Reg.CGL_BGSEQ 31 0 < seq ∧
          ∀ i, i < 3 → (w i).tag = Tag.qty ∧ qDim (w i).pay = dimA
        (good → Does s .bgrant
          (fun a => (∃ i, i < 3 ∧ a = Reg.CGL_BGNT i) ∨ a = Reg.CGL_BGSEQ ∨ a = Reg.CGL_BGTIME ∨ a = Reg.STK_SSTAT)
          (fun t => { s with cg := { s.cg with inbox := t.cg.inbox }, stk := { s.stk with grants := t.stk.grants } }) (fun t =>
          t.cg.inbox = pre ++ post ∧ (∀ i, i < 3 → t.ioR (Reg.CGL_BGNT i) = (w i).pay) ∧
          t.ioR Reg.CGL_BGSEQ = (putFld 31 0 seq ||| putFld 63 32 (fld (w 4).pay 31 0)) ∧ t.ioR Reg.CGL_BGTIME = n64 s.now ∧
          t.ioR Reg.STK_SSTAT = setFld (s.ioR Reg.STK_SSTAT) 9 8 s.bmode ∧
          t.currentGrant = (if fld (w 4).pay 31 0 = 0 then none else
            some { at_ := s.now, valid := min (fld (w 4).pay 31 0) 3000 * 1000, amps := [qVal (w 0).pay, qVal (w 1).pay, qVal (w 2).pay] }))) ∧
        (¬ good → Does s .bgrant (· = Reg.CGL_CSTAT) boxed (fun t => t.cg.inbox = pre ++ post ∧
          t.ioR Reg.CGL_CSTAT = setFld (s.ioR Reg.CGL_CSTAT) 47 32 (min (s.rf Reg.CGL_CSTAT 47 32 + 1) 65535)))) ∧
      (m.kind = .breq →
        (s.bmode = 2 → m.src.toNat ∈ s.listedNodes →
          Does s .breq (fun _ => False) (fun t => { s with cg := (boxed t).cg, stk := { s.stk with breqs := t.stk.breqs } }) (fun t =>
            t.cg.inbox = pre ++ post ∧ t.stk.breqs = s.stk.breqs.filter (fun b => b.node != m.src.toNat) ++
              [{ node := m.src.toNat, at_ := s.now, amps := (m.body.take 3).map (fun w => qVal w.pay) }])) ∧
        (¬ (s.bmode = 2 ∧ m.src.toNat ∈ s.listedNodes) → Does s .breq (· = Reg.STK_SSTAT) boxed (fun t => t.cg.inbox = pre ++ post ∧
          t.ioR Reg.STK_SSTAT = setFld (s.ioR Reg.STK_SSTAT) 63 48 (min (s.rf Reg.STK_SSTAT 63 48 + 1) 65535))))) ∧
    (s.isTimeMaster = true ∨ s.cgValid = false → Idle s .timeLoss) ∧
    (s.isTimeMaster = false → s.cgValid = true → s.cg.lastTime + 3000000 < 2 ^ 64 →
      Does s .timeLoss (fun a => a = Reg.CGL_TIMENS ∨ a = Reg.CGL_CSTAT) (fun _ => s) (fun t =>
        t.now = max s.now (s.cg.lastTime + 3000000) ∧ t.ioR Reg.CGL_CSTAT = setBit (s.ioR Reg.CGL_CSTAT) 3 true)) ∧
    (s.bmode ≠ 1 → Idle s .breqSend) ∧
    (∀ p rt, s.bmode = 1 → Linked s (s.rf Reg.CGL_NODECFG 55 44) p rt →
      Does s .breqSend (fun a => isDem a ∨ cacheRegs a)
        (fun t => { s with cg := { s.cg with ports := t.cg.ports }, stk := { s.stk with bseq := t.stk.bseq } }) (fun t =>
        dem t ∧ t.stk.bseq = s.stk.bseq + 1 ∧ Left s t p rt (s.mkMsg .breq (s.rf Reg.CGL_NODECFG 55 44) 0 0
          ((List.range 3).map (fun ph => ⟨Tag.qty, qPay (s.phaseDemand ph) dimA⟩) ++ [fixN (s.stk.bseq + 1)])))) ∧
    (s.bmode ≠ 2 → Idle s .grantPass) ∧
    (s.bmode = 2 →
      let n := s.listedNodes.length
      let stat := setFld (s.ioR Reg.STK_MSTAT) 38 32 n
      ((∃ ph, ph < 3 ∧ cap ph < n * flr ph) → Does s .grantPass (fun a => isDem a ∨ a = Reg.STK_MSTAT ∨ a = Reg.STK_SSTAT) (fun _ => s) (fun t =>
        dem t ∧ t.ioR Reg.STK_MSTAT = stat ∧ t.ioR Reg.STK_SSTAT = setBit (s.ioR Reg.STK_SSTAT) 4 true)) ∧
      ((∀ ph, ph < 3 → n * flr ph ≤ cap ph) →
        (s.stk.seqPause ≠ none → Does s .grantPass (fun a => isDem a ∨ a = Reg.STK_MSTAT) (fun _ => s) (fun t =>
          dem t ∧ t.ioR Reg.STK_MSTAT = stat)) ∧
        (s.stk.seqPause = none → s.rf Reg.STK_MSTAT 31 0 = 2 ^ 32 - 1 →
          Does s .grantPass (fun a => isDem a ∨ a = Reg.STK_MSTAT) (fun t => { s with stk := { s.stk with seqPause := t.stk.seqPause } }) (fun t =>
            dem t ∧ t.ioR Reg.STK_MSTAT = stat ∧ t.stk.seqPause = some s.now)) ∧
        (s.stk.seqPause = none → s.rf Reg.STK_MSTAT 31 0 < 2 ^ 32 - 1 → s.listedNodes = [s.cgNode] →
          Does s .grantPass (fun a => isDem a ∨ a = Reg.STK_MSTAT ∨ a = Reg.STK_SSTAT) granted (fun t =>
            dem t ∧ t.ioR Reg.STK_MSTAT = setFld stat 31 0 (s.rf Reg.STK_MSTAT 31 0 + 1) ∧
            t.ioR Reg.STK_SSTAT = setFld (s.ioR Reg.STK_SSTAT) 9 8 2 ∧
            let amps := (List.range 3).map (fun ph => min (max (flr ph) (qVal (t.ioR (Reg.STK_DEMP ph)))) (cap ph))
            t.currentGrant = some { at_ := s.now, valid := 3000000, amps := amps })))) ∧
    (s.stk.seqPause = none → Idle s .grantSeqRestart) ∧
    (∀ T, s.stk.seqPause = some T → T + 4000000 < 2 ^ 64 →
      Does s .grantSeqRestart (fun a => a = Reg.CGL_TIMENS ∨ a = Reg.STK_MSTAT) (fun t => { s with stk := { s.stk with seqPause := t.stk.seqPause } })
        (fun t => t.now = max s.now (T + 4000000) ∧ t.stk.seqPause = none ∧ t.ioR Reg.STK_MSTAT = setFld (s.ioR Reg.STK_MSTAT) 31 0 0)) ∧
    (s.stk.grants = [] → Idle s .grantExpiry) ∧
    (∀ gs g, s.stk.grants = gs ++ [g] → g.at_ + g.valid < 2 ^ 64 →
      Does s .grantExpiry (fun a => a = Reg.CGL_TIMENS ∨ a = Reg.STK_SSTAT ∨ a = Reg.CGL_BGSEQ) granted (fun t =>
        t.now = max s.now (g.at_ + g.valid) ∧ t.stk.grants = [] ∧ t.ioR Reg.CGL_BGSEQ = 0#64 ∧
        t.ioR Reg.STK_SSTAT = (if s.bmode = 0 then setFld (s.ioR Reg.STK_SSTAT) 9 8 0 else setBit (setFld (s.ioR Reg.STK_SSTAT) 9 8 0) 3 true) ∧
        ∀ ph, ph < 3 → t.allowance ph = qVal (s.ioR (Reg.STK_FLOOR ph))))

/-- The Stoker (R369–R373, R379–R381): crossings measure the half-period and lock a phase, whose loss turns its channels off; a plan fires channels
within the allowance and moves RUN and ACC; outputs follow the plan; demands and settings are written; a group is armed with its key
and goes to SAFE; and three differing samples of a pad are a readback error. -/
def Obligations.Stoker : Prop :=
  ∀ (s : State) (ph : Fin 3) (ns : W64) (e : Bool) (r : Req) (v : W64), s.railUp = true →
    let z := s.zc ph
    let stat := Reg.STK_ZCSTAT ph
    let cfg := Reg.STK_ZCCFG ph
    let isCh (a : Nat) : Prop := ∃ c, c < 256 ∧ a = Reg.STK_CHSTAT c
    let lossRegs (a : Nat) : Prop := a = Reg.STK_SSTAT ∨ isCh a ∨ ∃ q, q < 3 ∧ a = Reg.STK_ZCSTAT q
    let outs (t : State) : State := { s with stk := { s.stk with zc := t.stk.zc, ho := t.stk.ho, chg := t.stk.chg } }
    let tracked (t : State) : State := { s with stk := { s.stk with zc := t.stk.zc }, pulses := t.pulses }
    let kept (t : State) : Prop := ∀ q, q ≠ ph.val → t.zc q = s.zc q
    let falls (q : Nat) : Prop := q = ph.val ∨ (ph.val = 0 ∧ (q = 1 ∨ q = 2) ∧ s.zcSrc q ≠ 0 ∧ s.zcLocked q = true)
    let lo := 1000 * s.rf Reg.STK_SCTL 15 0
    let hi := 1000 * s.rf Reg.STK_SCTL 31 16
    (s.zcSrc ph ≠ 0 → (s.zc 0).last = none → Idle s (.zeroCrossEdge ph ns e)) ∧
    (∀ t0, s.zcSrc ph ≠ 0 → ph.val ≠ 0 → (s.zc 0).last = some t0 → t0 + 2 * s.zcHper 0 * s.zcSrc ph / 3 < 2 ^ 64 →
      let T := t0 + 2 * s.zcHper 0 * s.zcSrc ph / 3
      Does s (.zeroCrossEdge ph ns e) (fun a => a = Reg.CGL_TIMENS ∨ a = stat) tracked (fun t => t.now = max s.now T ∧
        t.ioR stat = setFld (s.ioR stat) 31 0 (s.zcHper 0) ∧ t.zc ph = { z with last := some T } ∧ kept t ∧
        t.pulses = if s.zcLocked 0 then s.pulses ++ [304 + ph.val] else s.pulses)) ∧
    (s.zcSrc ph = 0 →
      let pulse := s.rb cfg 2
      (pulse = true → e = false → z.last = none → Idle s (.zeroCrossEdge ph ns e)) ∧
      (∀ t0, pulse = true → e = false → z.last = some t0 → t0 + s.zcHper ph < 2 ^ 64 →
        Does s (.zeroCrossEdge ph ns e) (· = Reg.CGL_TIMENS) tracked (fun t =>
          t.now = max s.now (t0 + s.zcHper ph) ∧ t.pulses = s.pulses ++ [304 + ph.val] ∧ t.stk.zc = s.stk.zc)) ∧
      ((pulse = true → e = true) →
        let T := ns.toNat - 1000 * s.rf cfg 31 16
        (z.last = none → Does s (.zeroCrossEdge ph ns e) (· = Reg.CGL_TIMENS) tracked (fun t => t.now = max s.now ns.toNat ∧
          t.pulses = s.pulses ++ [304 + ph.val] ∧ t.zc ph = { z with last := some T } ∧ kept t)) ∧
        (∀ t0, z.last = some t0 →
          let n := if pulse then 2 else 1
          let h := (T - t0) / n
          let hs := (List.replicate n h ++ z.halves).take 8
          (s.zcLocked ph = true → 7690000 ≤ h → h ≤ 11110000 →
            Does s (.zeroCrossEdge ph ns e) (fun a => a = Reg.CGL_TIMENS ∨ a = stat) tracked (fun t =>
              t.pulses = s.pulses ++ [304 + ph.val] ∧ t.zc ph = { z with last := some T, halves := hs } ∧ kept t ∧
              t.ioR stat = setFld (s.ioR stat) 31 0 (hs.sum / hs.length))) ∧
          (s.zcLocked ph = true → ¬ (7690000 ≤ h ∧ h ≤ 11110000) →
            Does s (.zeroCrossEdge ph ns e) (fun a => a = Reg.CGL_TIMENS ∨ lossRegs a) (fun t => { outs t with pulses := t.pulses }) (fun t =>
              t.pulses = s.pulses ++ [304 + ph.val] ∧ LockLost s t falls (fun q => if q = ph.val then some T else none))) ∧
          (s.zcLocked ph = false → ph.val ≠ 0 →
            let m := hs.sum / 8
            let locks : Prop := hs.length = 8 ∧ 7690000 ≤ m ∧ m ≤ 11110000 ∧ ∀ h ∈ hs, 98 * m ≤ 100 * h ∧ 100 * h ≤ 102 * m
            Does s (.zeroCrossEdge ph ns e) (fun a => a = Reg.CGL_TIMENS ∨ a = stat ∨ a = Reg.STK_SSTAT) tracked (fun t =>
              t.pulses = s.pulses ++ [304 + ph.val] ∧ t.zc ph = { z with last := some T, halves := hs } ∧ kept t ∧
              t.zcHper ph = (hs.sum / hs.length) % 2 ^ 32 ∧ (t.zcLocked ph = true ↔ locks) ∧
              (locks → t.rb Reg.STK_SSTAT (10 + ph.val) = true) ∧ (¬ locks → t.ioR Reg.STK_SSTAT = s.ioR Reg.STK_SSTAT)))))) ∧
    (¬ (s.zcLocked ph = true ∧ z.last ≠ none) → Idle s (.halfCyclePlan ph)) ∧
    (¬ (s.zcLocked ph = true ∧ s.zcSrc ph = 0 ∧ z.last ≠ none) → Idle s (.zcLockLoss ph)) ∧
    (∀ t0, s.zcLocked ph = true → s.zcSrc ph = 0 → z.last = some t0 → t0 + s.zcHper ph * 5 / 4 < 2 ^ 64 →
      Does s (.zcLockLoss ph) (fun a => a = Reg.CGL_TIMENS ∨ lossRegs a) outs (fun t =>
        t.now = max s.now (t0 + s.zcHper ph * 5 / 4) ∧ LockLost s t falls (fun _ => none))) ∧
    (let src := if fld v 1 0 = 3 ∨ (ph.val = 0 ∧ fld v 1 0 ≠ 0) then s.rf cfg 1 0 else fld v 1 0
     let now : Prop := src ≠ s.rf cfg 1 0 ∨ fld v 2 2 ≠ s.rf cfg 2 2
     let put (t : State) : Prop := t.ioR cfg = (putFld 31 16 (fld v 31 16) ||| putFld 2 2 (fld v 2 2) ||| putFld 1 0 src)
     let tracking : Prop := now ∧ (s.zcLocked ph = true ∨ z.last ≠ none)
     let derives : Prop := ph.val ≠ 0 ∧ src ≠ 0 ∧ s.zcLocked 0 = true
     let locked (t : State) : Prop := t.zcLocked ph = true ∧ t.rb Reg.STK_SSTAT (10 + ph.val) = true ∧ t.zcHper ph = s.zcHper 0
     (s.reqPart r ≠ 0 → Idle s (.zccfgWrite r ph v)) ∧
     (s.reqPart r = 0 →
       (tracking →
         (¬ derives → Does s (.zccfgWrite r ph v) (fun a => a = cfg ∨ lossRegs a) outs (fun t => put t ∧ LockLost s t falls (fun _ => none))) ∧
         (derives → Does s (.zccfgWrite r ph v) (fun a => a = cfg ∨ lossRegs a) outs (fun t => put t ∧ locked t ∧
           t.rb Reg.STK_SSTAT (5 + ph.val) = true ∧ t.zc ph = {} ∧ kept t ∧
           ∀ c, c < 256 → s.chPhase c = ph.val + 1 → t.chOn c = false ∧ t.chRun c = 255 ∧ t.chAcc c = s.chAcc c))) ∧
       (¬ tracking →
         (¬ (src ≠ s.rf cfg 1 0 ∧ derives) → Does s (.zccfgWrite r ph v) (· = cfg) (fun _ => s) put) ∧
         (src ≠ s.rf cfg 1 0 → derives → Does s (.zccfgWrite r ph v) (fun a => a = cfg ∨ a = stat ∨ a = Reg.STK_SSTAT) (fun _ => s) (fun t =>
           put t ∧ locked t))))) ∧
    (∀ t0, s.zcLocked ph = true → z.last = some t0 → t0 + s.zcHper ph < 2 ^ 64 →
      let next := t0 + s.zcHper ph
      let T := max s.now (next - hi)
      let mine (c : Nat) : Prop := c < 256 ∧ s.chPhase c = ph.val + 1
      let regs (a : Nat) : Prop := a = Reg.CGL_TIMENS ∨ cacheRegs a ∨ a = Reg.STK_SSTAT ∨ a = Reg.STK_USE ph ∨
        ∃ c, mine c ∧ (a = Reg.STK_CHSTAT c ∨ a = Reg.STK_PLAN (c / 64))
      (z.planFor = next → Idle s (.halfCyclePlan ph)) ∧
      (z.planFor ≠ next →
        (next - lo < T → Does s (.halfCyclePlan ph) regs outs (fun t =>
          t.now = T ∧ t.zc ph = { z with planFor := next, switched := true } ∧ kept t ∧
          t.ioR (Reg.STK_USE ph) = qPay 0 dimA ∧
          ∀ c, mine c → t.chOn c = false ∧ t.rb (Reg.STK_PLAN (c / 64)) (c % 64) = false ∧ t.chAcc c = s.chAcc c ∧
            Tab.get t.stk.ho c false = false)) ∧
        (T ≤ next - lo → Does s (.halfCyclePlan ph) regs outs (fun t =>
          t.now = T ∧ t.zc ph = { z with planFor := next, switched := false } ∧ kept t ∧ t.stk.ho = s.stk.ho ∧
          (let fired := (List.range 256).filter (fun c => s.chPhase c == ph.val + 1 && t.chOn c)
           let use := (fired.map (fun c => s.chAmp c)).sum
           t.ioR (Reg.STK_USE ph) = qPay use dimA ∧ use ≤ max 0 (t.allowance ph)) ∧
          ∀ c, mine c →
            (t.chOn c = true → s.eligible c = true) ∧
            t.rb (Reg.STK_PLAN (c / 64)) (c % 64) = t.chOn c ∧
            t.chRun c = (if s.chOn c = t.chOn c then min 255 (s.chRun c + 1) else 1) ∧
            (let acc := s.chAcc c + (if s.eligible c then s.chDemand c else 0)
             t.chAcc c = (if s.eligible c then max (-65536) (min (acc - (if t.chOn c then 65536 else 0)) 131072) else s.chAcc c) ∧
             ((∀ k, mine k → k = c) → s.eligible c = true →
               (t.chOn c = true ↔ s.chAmp c ≤ t.allowance ph ∧ ((s.chOn c = true ∧ s.chRun c < s.rf (Reg.STK_CHCFG c) 23 16) ∨
                 (32768 ≤ acc ∧ (s.chOn c = true ∨ s.rf (Reg.STK_CHCFG c) 31 24 ≤ s.chRun c)))))))))) ∧
    (s.zcLocked ph = false ∨ z.switched = true → Idle s (.outputSwitch ph)) ∧
    (s.zcLocked ph = true → z.switched = false → z.planFor < 2 ^ 64 →
      Does s (.outputSwitch ph) (· = Reg.CGL_TIMENS) outs (fun t =>
        t.now = max s.now (z.planFor - lo) ∧ t.zc ph = { z with switched := true } ∧ kept t ∧
        ∀ c, c < 256 → Tab.get t.stk.ho c false = if s.chPhase c = ph.val + 1 then s.chOn c else Tab.get s.stk.ho c false)) ∧
    (∀ ch : Fin 256,
      (s.mayWrite (s.reqPart r) .group (s.chGroup ch) = true →
        (qDim v = dimW → 0 ≤ qVal v → Does s (.demWrite r ch v) (· = Reg.STK_DEM ch) (fun _ => s) (fun t => t.ioR (Reg.STK_DEM ch) = v)) ∧
        (¬ (qDim v = dimW ∧ 0 ≤ qVal v) → Does s (.demWrite r ch v) (· = Reg.STK_SSTAT) (fun _ => s) (fun t =>
          t.ioR Reg.STK_SSTAT = setBit (s.ioR Reg.STK_SSTAT) 0 true))) ∧
      (s.mayWrite (s.reqPart r) .group (s.chGroup ch) = false → Idle s (.demWrite r ch v))) ∧
    (s.reqPart r ≠ 0 → Idle s (.stokerSctlWrite r v)) ∧
    (s.reqPart r = 0 → Does s (.stokerSctlWrite r v) (fun a => a = Reg.STK_SCTL ∨ a = Reg.STK_SSTAT) (fun _ => s) (fun t =>
      t.bmode = (if fld v 41 40 = 3 then s.bmode else fld v 41 40) ∧ t.rf Reg.STK_SCTL 39 32 = fld v 39 32 ∧
      t.rf Reg.STK_SCTL 31 0 = (if fld v 15 0 + 100 ≤ fld v 31 16 then fld v 31 0 else s.rf Reg.STK_SCTL 31 0) ∧
      t.rf Reg.STK_SSTAT 9 8 = (if s.currentGrant = none then 0 else t.bmode))) ∧
    (∀ (g : Fin 8) (key : BitVec 16),
      let ctl := Reg.STK_GCTL g
      let grp (t : State) : State :=
        { s with stk := { s.stk with ho := t.stk.ho, chg := t.stk.chg, pwm := t.stk.pwm }, pulses := t.pulses }
      let may := s.mayWrite (s.reqPart r) .group g
      let good : Prop := s.owner .group g = some (s.reqPart r) ∧ key = 0xA5C3#16 ∧ s.groupHeld g = false ∧ s.rb ctl 8 = false ∧
        ∀ c, c < 256 → s.chPhase c ≠ 0 → s.chGroup c = g.val → s.rb (Reg.STK_RBERR (c / 64)) (c % 64) = false
      (may = false → Idle s (.gctlArm r g key) ∧ Idle s (.gctlDisarm r g)) ∧
      (may = true →
        (good → s.groupArmed g = false → Does s (.gctlArm r g key) (· = ctl) grp (fun t => t.ioR ctl = setBit (s.ioR ctl) 2 true ∧
          t.pulses = s.pulses ++ [309 + g.val] ∧ t.stk.ho = s.stk.ho ∧ t.stk.pwm = s.stk.pwm)) ∧
        (good → s.groupArmed g = true → Does s (.gctlArm r g key) (· = ctl) (fun _ => s) (fun t => t.ioR ctl = s.ioR ctl)) ∧
        (¬ good → Does s (.gctlArm r g key) (· = ctl) (fun _ => s) (fun t => t.ioR ctl = setBit (s.ioR ctl) 9 true)) ∧
        (s.groupArmed g = true → Does s (.gctlDisarm r g) (fun a => a = ctl ∨ isCh a) grp (fun t => WentSafe s t g 1)) ∧
        (s.groupArmed g = false → Does s (.gctlDisarm r g) (· = ctl) (fun _ => s) (fun t => t.ioR ctl = s.ioR ctl)))) ∧
    ∀ (ho : BitVec 256) (hen : BitVec 8),
      let settled (pin : Nat) : Prop := Tab.get s.stk.chg pin 0 = 0 ∨ Tab.get s.stk.chg pin 0 - 1 + 20000 ≤ s.now
      let same (c : Nat) : Prop := ho.getLsbD c = Tab.get s.stk.ho c false
      let gates : Prop := ∀ g, g < 8 → hen.getLsbD g = s.groupArmed g
      (gates → (∀ c, c < 256 → same c) →
        Does s (.readbackSample ho hen) (fun _ => False) (fun t => { s with stk := { s.stk with diff := t.stk.diff } }) (fun t =>
          ∀ pin, pin < 264 → Tab.get t.stk.diff pin 0 = if Tab.get s.stk.chg pin 0 = 0 ∨ Tab.get s.stk.chg pin 0 - 1 + 20000 ≤ s.now then 0
            else Tab.get s.stk.diff pin 0)) ∧
      (∀ c, c < 256 → gates → (∀ k, k < 256 → k ≠ c → same k) → ¬ same c → settled c → 2 ≤ Tab.get s.stk.diff c 0 →
        let g := s.chGroup c
        ∃ t, exec (.readbackSample ho hen) s = .next t ∧ t.rb (Reg.STK_RBERR (c / 64)) (c % 64) = true ∧ t.rb Reg.STK_SSTAT 2 = true ∧
          (∃ y ∈ t.faultIn, y.1 = 80 + g) ∧ t.groupArmed g = false ∧ (s.groupArmed g = true → WentSafe s t g 3))

/-- Cache maintenance and the Stoker's commands complete (R165, R166, R220–R222, R369–R372, R379–R381): a maintenance instruction goes on to the next
instruction with every word of memory as it was, but for the line that an invalidation names, PREF wherever it points; and each command of
the Stoker does what it is for: a crossing is tracked and pulses, a timeout ends a lock, settings and demands are written, a half-cycle is
planned, outputs follow the plan, a group is armed and disarmed, and pads that agree leave every register as it was. -/
def Obligations.MaintenanceAndHeating : Prop :=
  (∀ (s : State) (c : CoreId) (a : RegN) (k : BitVec 13), AtEase s c.val →
    let done (i : Instr) (same : Nat → Prop) : Prop := ∃ t, exec i s = .next t ∧ (t.core c.val).ip = s.nextIp c.val ∧
      ∀ q, same q → (t.peekWord q).1 = (s.peekWord q).1
    let all (_ : Nat) : Prop := True
    let v := (s.reg c.val a.val).pay
    (k.toNat < 32 → done (.pref c a k) all) ∧
    (∀ off pa : Nat, Settled s c.val → k.toNat < 16 → (s.reg c.val a.val).tag = Tag.fix → v.toInt = off → s.regionOk pa = true →
      let sel := s.sgR c.val k.toNat
      (Reaches s c.val sel off .read pa → done (.cclean c a k) all ∧ done (.ccinv c a k) all) ∧
      (s.sup c.val = true → Reaches s c.val sel off .write pa → done (.cinv c a k) (fun q => q / 8 ≠ pa / 8)) ∧
      (Reaches s c.val sel off .exec pa → done (.iinv c a k) all)) ∧
    (let lvl := fld v 1 0
     let line := (s.tagAt (swCache c.val v) (fld v 22 11) (fld v 10 7)).line
     s.sup c.val = true → (s.reg c.val a.val).tag = Tag.fix → fld v 63 23 = 0 → (lvl = 3 → s.corePart c.val = 0 ∧ fld v 22 11 < 2048) →
      (lvl < 3 → fld v 6 2 = 0) → (lvl < 2 → fld v 22 11 < 128 ∧ fld v 10 7 < 4) → (lvl = 2 → fld v 10 7 < 8) →
      done (.ccleansw c a 0#13) all ∧ done (.ccinvsw c a 0#13) all ∧ done (.cinvsw c a 0#13) (fun q => q / 8 ≠ line))) ∧
  ∀ (s : State) (ph : Fin 3) (r : Req) (v : W64), s.railUp = true →
    let z := s.zc ph
    let cfg := Reg.STK_ZCCFG ph
    (∀ (ns : W64) (e : Bool), s.zcSrc ph = 0 → (s.rb cfg 2 = true → e = true) → ∃ t, exec (.zeroCrossEdge ph ns e) s = .next t ∧
      t.pulses = s.pulses ++ [304 + ph.val] ∧ (t.zc ph).last = some (ns.toNat - 1000 * s.rf cfg 31 16)) ∧
    (∀ t0, z.last = some t0 → s.zcLocked ph = true →
      (s.zcSrc ph = 0 → ∃ t, exec (.zcLockLoss ph) s = .next t ∧ t.zcLocked ph = false ∧ (t.zc ph).last = none) ∧
      (z.planFor ≠ t0 + s.zcHper ph → ∃ t, exec (.halfCyclePlan ph) s = .next t ∧ (t.zc ph).planFor = t0 + s.zcHper ph) ∧
      (z.switched = false → ∃ t, exec (.outputSwitch ph) s = .next t ∧ (t.zc ph).switched = true ∧
        ∀ c, c < 256 → s.chPhase c = ph.val + 1 → Tab.get t.stk.ho c false = s.chOn c)) ∧
    (s.reqPart r = 0 →
      (fld v 1 0 < 3 → (ph.val = 0 → fld v 1 0 = 0) → ∃ t, exec (.zccfgWrite r ph v) s = .next t ∧
        t.ioR cfg = (putFld 31 16 (fld v 31 16) ||| putFld 2 2 (fld v 2 2) ||| putFld 1 0 (fld v 1 0))) ∧
      (fld v 41 40 < 3 → ∃ t, exec (.stokerSctlWrite r v) s = .next t ∧ t.bmode = fld v 41 40)) ∧
    (∀ ch : Fin 256, s.mayWrite (s.reqPart r) .group (s.chGroup ch) = true → qDim v = dimW → 0 ≤ qVal v →
      ∃ t, exec (.demWrite r ch v) s = .next t ∧ t.ioR (Reg.STK_DEM ch) = v) ∧
    (∀ g : Fin 8, s.mayWrite (s.reqPart r) .group g = true →
      (s.owner .group g = some (s.reqPart r) → s.groupHeld g = false → s.rb (Reg.STK_GCTL g) 8 = false →
        (∀ c, c < 256 → s.chPhase c ≠ 0 → s.chGroup c = g.val → s.rb (Reg.STK_RBERR (c / 64)) (c % 64) = false) →
        ∃ t, exec (.gctlArm r g 0xA5C3#16) s = .next t ∧ t.groupArmed g = true) ∧
      ∃ t, exec (.gctlDisarm r g) s = .next t ∧ t.groupArmed g = false) ∧
    ∀ (ho : BitVec 256) (hen : BitVec 8), (∀ g, g < 8 → hen.getLsbD g = s.groupArmed g) →
      (∀ c, c < 256 → ho.getLsbD c = Tab.get s.stk.ho c false) → ∃ t, exec (.readbackSample ho hen) s = .next t ∧ t.io = s.io

/-- PWM, encoders, Sense ports and the housekeeping ADC (R382–R392): pending settings are taken at a period's start; transitions count by the mode and an
index is captured; the lowest due channel is framed and its value checked, and the ring restarts; and a conversion is compared with its limits. -/
def Obligations.FieldPorts : Prop :=
  ∀ (s : State) (r : Req) (v : W64), s.railUp = true →
    (∀ k : Fin 32,
      let pwm (t : State) : State := { s with stk := { s.stk with pwm := t.stk.pwm } }
      let started (t : State) : Prop :=
        let per := t.rf (Reg.PWM_PWPER k) 31 0
        let run := decide (per ≠ 0 ∧ s.rb (Reg.PWM_PWCFG k) 0 = true ∧
          ¬ (s.rb (Reg.PWM_PWCFG k) 2 = true ∧ s.groupArmed (s.rf (Reg.PWM_PWCFG k) 6 4) = false))
        t.pwm k = { per := per, duty := t.rf (Reg.PWM_PWDUTY k) 31 0, run := run } ∧ ∀ j, j ≠ k.val → t.pwm j = s.pwm j
      Does s (.pwmPeriodStart k) (fun _ => False) pwm started ∧
      ∀ duty : Bool,
        let a := if duty then Reg.PWM_PWDUTY k else Reg.PWM_PWPER k
        let put (t : State) : Prop := t.ioR a = setFld (s.ioR a) 31 0 (fld v 31 0)
        (s.mayWrite (s.reqPart r) .pwm k = false → Idle s (.pwmWrite r k duty v)) ∧
        (s.mayWrite (s.reqPart r) .pwm k = true →
          ((s.pwm k).per ≠ 0 → Does s (.pwmWrite r k duty v) (· = a) (fun _ => s) put) ∧
          ((s.pwm k).per = 0 → Does s (.pwmWrite r k duty v) (· = a) pwm (fun t => put t ∧ started t)))) ∧
    (∀ (e : Fin 8) (x y : Bool),
      let was := Tab.get s.stk.encAB e (false, false)
      let pos := Reg.PWM_ENCPOS e
      let stat := Reg.PWM_ENCSTAT e
      let mode := s.rf (Reg.PWM_ENCCFG e) 1 0
      let encs (t : State) : State := { s with stk := { s.stk with encAB := t.stk.encAB } }
      let seen (t : State) : Prop := ∀ k, Tab.get t.stk.encAB k (false, false) = if k = e.val then (x, y) else Tab.get s.stk.encAB k (false, false)
      let moved (t : State) (d : W64) : Prop := t.ioR pos = s.ioR pos + d ∧
        t.ioR stat = (if d ≠ 0#64 ∧ s.ioR pos + d = s.ioR (Reg.PWM_ENCCMP e) then setBit (s.ioR stat) 1 true else s.ioR stat)
      let step : W64 :=
        if x ≠ was.1 then (if mode = 0 then (if x then (if y then -1#64 else 1#64) else 0#64) else if x ≠ y then 1#64 else -1#64)
        else if y ≠ was.2 ∧ mode = 2 then (if x = y then 1#64 else -1#64) else 0#64
      (x ≠ was.1 → y ≠ was.2 → Does s (.encoderTransition e x y) (· = stat) encs (fun t => seen t ∧
        t.ioR stat = setFld (s.ioR stat) 63 48 (min (s.rf stat 63 48 + 1) 65535))) ∧
      (¬ (x ≠ was.1 ∧ y ≠ was.2) → Does s (.encoderTransition e x y) (fun a => a = pos ∨ a = stat) encs (fun t => seen t ∧ moved t step)) ∧
      Does s (.encoderIndex e) (fun a => a = pos ∨ a = stat ∨ a = Reg.PWM_ENCIDX e) (fun _ => s) (fun t =>
        t.ioR (Reg.PWM_ENCIDX e) = s.ioR pos ∧ t.rb stat 0 = true ∧
        t.ioR pos = if s.rb (Reg.PWM_ENCCFG e) 2 = true then 0#64 else s.ioR pos)) ∧
    (∀ ch : Fin 512,
      let z := s.sense ch
      let port := s.snsPort ch
      let frame := Tab.get s.stk.frame port 0
      let stat := Reg.SNS_CSTAT ch
      let cf := s.ioR (Reg.SNS_CFRAME ch)
      let sns (t : State) : State := { s with stk := { s.stk with sense := t.stk.sense } }
      let run (t : State) : State := { s with stk := { s.stk with sense := t.stk.sense, frame := t.stk.frame } }
      let only (t : State) (y : SenseSt) : Prop := t.sense ch = y ∧ ∀ k, k ≠ ch.val → t.sense k = s.sense k
      let frames (t : State) (n : Nat) : Prop := ∀ k, Tab.get t.stk.frame k 0 = if k = port then n else Tab.get s.stk.frame k 0
      let due (k : Nat) : Prop := (s.sense k).due = true ∧ s.rb (Reg.SNS_CFRAME k) 14 = true ∧ s.snsPort k = port
      (s.rb (Reg.SNS_CFRAME ch) 14 = false → Idle s (.senseChannelDue ch)) ∧
      (s.rb (Reg.SNS_CFRAME ch) 14 = true →
        (z.due = false → Does s (.senseChannelDue ch) (fun _ => False) sns (fun t => only t { z with due := true })) ∧
        (z.due = true → Does s (.senseChannelDue ch) (· = Reg.SNS_PSTAT port) (fun _ => s) (fun t =>
          t.ioR (Reg.SNS_PSTAT port) = setFld (s.ioR (Reg.SNS_PSTAT port)) 63 48 (min (s.rf (Reg.SNS_PSTAT port) 63 48 + 1) 65535)))) ∧
      (∀ p : Fin 8, p.val = port →
        (frame ≠ 0 ∨ (∀ k, k < 512 → ¬ due k) → Idle s (.senseFrameStart p)) ∧
        (frame = 0 → due ch → (∀ k, k < ch.val → ¬ due k) → fld cf 50 46 + fld cf 56 51 ≤ fld cf 45 40 →
          Does s (.senseFrameStart p) (fun _ => False) run (fun t => frames t (ch.val + 1) ∧ only t { z with due := false })) ∧
        ∀ reply : BitVec 32,
          let raw := rawField cf reply
          let rr := reply.toNat % 2 ^ fld cf 45 40
          let got : SenseSt := { z with lastR := some raw, same := if z.lastR = some raw then z.same + 1 else 1 }
          let d := qDim (s.ioR (Reg.SNS_SCALE ch))
          let x := raw * qVal (s.ioR (Reg.SNS_SCALE ch)) + qVal (s.ioR (Reg.SNS_OFFSET ch))
          let masked := rr &&& s.rf (Reg.SNS_CFAULT ch) 63 32
          (frame = 0 → Idle s (.senseFrameEnd p reply)) ∧
          (frame = ch.val + 1 → s.rf (Reg.SNS_CRING ch) 51 48 = 0 → s.rb (Reg.SNS_CMQ ch) 32 = false → s.rb (Reg.SNS_CFRAME ch) 16 = false →
            (masked = s.rf (Reg.SNS_CFAULT ch) 31 0 →
              fld cf 23 17 = 0 → qDim (s.ioR (Reg.SNS_OFFSET ch)) = d → qDim (s.ioR (Reg.SNS_LO ch)) = d → qDim (s.ioR (Reg.SNS_HI ch)) = d →
              qDim (s.ioR (Reg.SNS_RATE ch)) = d → qDim (s.ioR (Reg.SNS_DB ch)) = d → -(2 ^ 45) ≤ x → x < 2 ^ 45 →
              qVal (s.ioR (Reg.SNS_LO ch)) ≤ x → x ≤ qVal (s.ioR (Reg.SNS_HI ch)) → fld cf 63 57 = 0 →
              (qVal (s.ioR (Reg.SNS_RATE ch)) = 0 ∨ z.hasVal = false ∨
                (x - qVal (s.ioR (Reg.SNS_CVAL ch))).natAbs ≤ qVal (s.ioR (Reg.SNS_RATE ch))) →
              Does s (.senseFrameEnd p reply) (fun a => a = Reg.SNS_CTIME ch ∨ a = Reg.SNS_CVAL ch ∨ a = stat ∨ cacheRegs a) run (fun t =>
                frames t 0 ∧ only t { got with fails := 0, hasVal := true, bad := false } ∧ t.ioR (Reg.SNS_CTIME ch) = n64 s.now ∧
                t.ioR (Reg.SNS_CVAL ch) = qPay x d ∧ t.ioR stat = setFld (s.ioR stat) 27 24 0)) ∧
            (masked ≠ s.rf (Reg.SNS_CFAULT ch) 31 0 →
              Does s (.senseFrameEnd p reply) (fun a => a = Reg.SNS_CTIME ch ∨ a = stat ∨ cacheRegs a) run (fun t =>
                frames t 0 ∧ only t { got with fails := z.fails + 1, bad := true } ∧ t.ioR (Reg.SNS_CTIME ch) = n64 s.now ∧
                t.ioR stat = (if s.rf (Reg.SNS_CPLAUS ch) 7 0 ≤ z.fails + 1 then setBit (setFld (s.ioR stat) 27 24 1) 0 true
                  else setFld (s.ioR stat) 27 24 1))))) ∧
      (s.mayWrite (s.reqPart r) .sense ch = false → Idle s (.senseFaultClear r ch) ∧ Idle s (.cringWrite r ch v)) ∧
      (s.mayWrite (s.reqPart r) .sense ch = true →
        Does s (.senseFaultClear r ch) (· = stat) sns (fun t => t.ioR stat = setFld (s.ioR stat) 0 0 0 ∧ only t { z with fails := 0 }) ∧
        Does s (.cringWrite r ch v) (· = Reg.SNS_CRING ch) sns (fun t => t.ioR (Reg.SNS_CRING ch) = v ∧ only t { z with ringOff := false }))) ∧
    ∀ (k : Fin 16) (code : BitVec 12),
      let lim := Reg.HKA_HLIM k
      let l := s.ioR lim
      let out : Prop := code.toNat < fld l 27 16 ∨ fld l 43 32 < code.toNat
      let on : Prop := s.rb Reg.HKA_HCTL 16 = true ∧ s.rb Reg.HKA_HCTL k = true
      (¬ on → Idle s (.hkaConversion k code)) ∧
      (on → Does s (.hkaConversion k code) (fun a => a = Reg.HKA_HRAW k ∨ a = Reg.HKA_HRES k ∨ a = lim)
        (fun t => { s with faultIn := t.faultIn, stk := { s.stk with hkaReq := t.stk.hkaReq } }) (fun t =>
        t.ioR (Reg.HKA_HRAW k) = putFld 11 0 code.toNat ∧
        t.ioR (Reg.HKA_HRES k) = qPay (Config.hkaValue k code.toNat) (if k.val = 8 then 0x40 else 0xAA38) ∧
        (out → t.ioR lim = setBit l 0 true) ∧ (¬ out → t.ioR lim = l) ∧
        (out → bitAt l 4 = true → ∃ y ∈ t.faultIn, y.1 = 96 + k.val) ∧ (¬ (out ∧ bitAt l 4 = true) → t.faultIn = s.faultIn) ∧
        ((∀ j, k.val < j → j < 16 → s.rb Reg.HKA_HCTL j = false) → t.stk.hkaReq = s.now + 100) ∧
        ((∃ j, k.val < j ∧ j < 16 ∧ s.rb Reg.HKA_HCTL j = true) → t.stk.hkaReq = s.stk.hkaReq)))

/-! Peripherals. -/

/-- The interfaces (R397–R405): a write of PCTL with SRST empties the instance and returns its registers; octets and frames are enqueued, received and
sent; gate lists take effect and PTP time moves; links and bus-off states change; bus transactions end with their result; and GPIO pins
are set and cleared where they are owned and not held. -/
def Obligations.Peripherals : Prop :=
  ∀ (s : State) (r : Req) (p : PerId) (v : W64), s.railUp = true →
    let view (t : State) : State := { s with pers := t.pers }
    let only (t : State) (p : PerId) (y : PerSt) : Prop := t.perSt p = y ∧ ∀ q, q ≠ p → t.perSt q = s.perSt q
    let on (p : PerId) : Prop := ∀ k, perDomain p = some k → s.domOn k = true
    let may (p : PerId) : Prop := s.perMayWrite (s.reqPart r) p = true
    let stat (p : PerId) := Reg.PER_PSTAT (perBase p)
    let raised (t : State) (p : PerId) (bit : Nat) : Prop := t.ioR (stat p) = setBit (s.ioR (stat p)) bit true
    let room (p : PerId) (n : Nat) : Prop := s.rxCount p = 0 ∨ s.rxCount p + n ≤ Config.rxRoom (perIdx p)
    let linked (t : State) (p : PerId) (up : Bool) : Prop := t.ioR (stat p) = setBit (s.ioR (stat p)) 4 up ∧
      t.pulses = if s.perLink p ≠ up ∧ s.rb (Reg.PER_PINT (perBase p)) 4 = true then s.pulses ++ [perSrc p] else s.pulses
    (let x := s.perSt p
     let ctl := Reg.PER_PCTL (perBase p)
     let put (t : State) : Prop := t.ioR ctl = (v &&& (fmask 26 16 ||| fmask 11 8 ||| fmask 2 2 ||| fmask 0 0))
     let back : Prop := s.rb ctl 2 = true
     (on p →
       (¬ may p → Idle s (.pctlSrst r p v) ∧ (∀ n, Idle s (.dataWrite r p n v)) ∧ Idle s (.eofWrite r p)) ∧
       (may p →
         (bitAt v 1 = true → Does s (.pctlSrst r p v) (fun a => perBase p ≤ a ∧ a < perBase p + perSize p) view (fun t =>
           put t ∧ only t p { rate := x.rate } ∧ ∀ a, perBase p ≤ a → a < perBase p + perSize p → a ≠ ctl → t.ioR a = Tab.get s.img a (regReset a))) ∧
         (bitAt v 1 = false → Does s (.pctlSrst r p v) (· = ctl) view (fun t => put t ∧ only t p { x with recover := x.recover || bitAt v 0 })) ∧
         (∀ n, Does s (.dataWrite r p n v) (fun _ => False) view (fun t => only t p { x with tx := x.tx ++ octetsOf (n.val + 1) v })) ∧
         (perFramed p = true → Does s (.eofWrite r p) (fun _ => False) view (fun t =>
           only t p (if x.tx.isEmpty then x else { x with frames := x.frames ++ [x.tx], tx := [] }))) ∧
         (perFramed p = false → Idle s (.eofWrite r p))) ∧
       (∀ o os peek, x.rx = o :: os → Does s (.dataRead r p peek) (fun _ => False) (fun t => { view t with lastRead := t.lastRead }) (fun t =>
         t.lastRead = payOf (o.take 8) ∧
         only t p { x with rx := if peek then x.rx else if (o.drop 8).isEmpty then os else o.drop 8 :: os })) ∧
       (∀ peek, x.rx = [] → Does s (.dataRead r p peek) (fun _ => False) (fun t => { s with lastRead := t.lastRead }) (fun t => t.lastRead = 0#64))) ∧
     (¬ (perFramed p = true ∧ s.perEn p = true) → (∀ f, Idle s (.frameReceive p f)) ∧ ∀ b, Idle s (.frameTransmit p b)) ∧
     (∀ f : FrameIn, perFramed p = true → s.perEn p = true → (∀ k, p ≠ .can k) →
       (f.crcOk = false → Does s (.frameReceive p f) (· = stat p) (fun _ => s) (fun t => raised t p 2)) ∧
       (f.crcOk = true →
         (∀ k, p = .eth k → s.ethAccepts k f.octets = false → Idle s (.frameReceive p f)) ∧
         ((∀ k, p = .eth k → s.ethAccepts k f.octets = true) →
           let rec_ := s.frameRecord p f
           (room p rec_.length → Does s (.frameReceive p f) (fun _ => False) view (fun t => only t p { x with rx := x.rx ++ [rec_] })) ∧
           (¬ room p rec_.length → Does s (.frameReceive p f) (· = stat p) (fun _ => s) (fun t =>
             t.ioR (stat p) = setBit (setFld (s.ioR (stat p)) 63 48 (min (s.rf (stat p) 63 48 + 1) 65535)) 0 true)))) ∧
       Does s (.frameTransmit p true) (· = stat p) view (fun t => raised t p 1 ∧ only t p { x with tx := [] })) ∧
     (s.perEn p = true → ¬ back →
       (p = .usb →
         (∀ f fs, x.frames = f :: fs → Does s (.frameTransmit p false) (fun _ => False) view (fun t => only t p { x with frames := fs })) ∧
         (x.frames = [] → Idle s (.frameTransmit p false))) ∧
       (∀ k f, p = .eth k → x.gclLen = 0 → x.frames = [f] → Does s (.frameTransmit p false) (fun _ => False) view (fun t =>
         only t p { x with frames := [], stamps := (((payOf (f.take 2)).toNat, s.ioR (Reg.ETH_PTPNS k)) :: x.stamps).take 64 })) ∧
       (∀ k, p = .can k →
         let err := Reg.CAN_CANERR k
         let tec := s.rf err 7 0
         let rec_ := s.rf err 15 8
         let now (t : State) (te re : Nat) : Prop := t.ioR err =
           (putFld 17 16 (if 128 ≤ te ∨ 128 ≤ re then 1 else 0) ||| putFld 15 8 re ||| putFld 7 0 te)
         (∀ f fs, x.frames = f :: fs → Does s (.frameTransmit p false) (· = err) view (fun t => now t (tec - 1) rec_ ∧ only t p { x with frames := fs })) ∧
         (tec < 248 → Does s (.frameTransmit p true) (· = err) (fun _ => s) (fun t => now t (tec + 8) rec_)) ∧
         (248 ≤ tec → Does s (.frameTransmit p true) (fun a => a = err ∨ a = stat p) (fun t => { view t with pulses := t.pulses }) (fun t =>
           t.rf err 17 16 = 2 ∧ t.perLink p = false ∧ t.rb (stat p) 2 = true ∧ only t p { x with recover := false })) ∧
         ∀ f : FrameIn,
           (f.crcOk = false → Does s (.frameReceive p f) (fun a => a = err ∨ a = stat p) (fun _ => s) (fun t =>
             raised t p 2 ∧ now t tec (min (rec_ + 1) 255))) ∧
           (f.crcOk = true → s.canAccepts k f.canId = false → Does s (.frameReceive p f) (· = err) (fun _ => s) (fun t => now t tec (rec_ - 1))) ∧
           (f.crcOk = true → s.canAccepts k f.canId = true → room p (s.frameRecord p f).length →
             Does s (.frameReceive p f) (· = err) view (fun t => now t tec (rec_ - 1) ∧ only t p { x with rx := x.rx ++ [s.frameRecord p f] })))) ∧
     (∀ (o : Octet) (ok : Bool),
       let uart : Prop := ∃ k, p = .uart k
       let hears : Prop := s.perEn p = true ∧
         ((uart ∧ ((s.perMode p).testBit 0 = false ∨ (s.perMode p).testBit 1 = true ∨ x.de = false)) ∨ ((∃ k, p = .i2c k) ∧ s.perMode p = 1))
       let sends : Prop := s.perEn p = true ∧ (uart ∨ ∃ k, p = .i2c k)
       (¬ hears → Idle s (.octetReceive p o ok)) ∧
       (hears → ok = false → Does s (.octetReceive p o ok) (· = stat p) (fun _ => s) (fun t => raised t p 2)) ∧
       (hears → ok = true → ¬ room p 1 → Does s (.octetReceive p o ok) (· = stat p) (fun _ => s) (fun t =>
         t.ioR (stat p) = setBit (setFld (s.ioR (stat p)) 63 48 (min (s.rf (stat p) 63 48 + 1) 65535)) 0 true)) ∧
       (hears → ok = true → room p 1 →
         (x.rx = [] → Does s (.octetReceive p o ok) (fun _ => False) view (fun t => only t p { x with rx := [[o]] })) ∧
         (∀ ls l, x.rx = ls ++ [l] → Does s (.octetReceive p o ok) (fun _ => False) view (fun t => only t p { x with rx := ls ++ [l ++ [o]] }))) ∧
       (¬ sends → Idle s (.octetTransmit p)) ∧
       (sends → x.tx = [] → Does s (.octetTransmit p) (fun _ => False) view (fun t => only t p { x with de := false })) ∧
       (∀ o os, sends → ¬ back → x.tx = o :: os → Does s (.octetTransmit p) (fun _ => False) view (fun t =>
         (t.perSt p).tx = os ∧ ((t.perSt p).de = true ↔ uart ∧ (s.perMode p).testBit 0 = true ∧ os ≠ []) ∧
         only t p { x with tx := os, de := (t.perSt p).de })))) ∧
    (∀ e : Fin 4,
      let p : PerId := .eth e
      let ctl := Reg.ETH_GCLCTL e
      let time := Reg.ETH_PTPNS e
      (on p → ¬ may p → Idle s (.gclSwap r e v) ∧ Idle s (.ptpstepWrite r e v)) ∧
      (on p → may p →
        Does s (.gclSwap r e v) (· = ctl) (fun _ => s) (fun t =>
          let x := if fld v 23 16 ≤ 128 then setFld (s.ioR ctl) 23 16 (fld v 23 16) else s.ioR ctl
          t.ioR ctl = if bitAt v 1 then setBit x 2 true else x) ∧
        Does s (.ptpstepWrite r e v) (· = time) (fun _ => s) (fun t => t.ioR time = s.ioR time + v)) ∧
      (s.rb ctl 2 = false → Idle s (.gclActivate e)) ∧
      (s.rb ctl 2 = true →
        let base := (s.ioR (Reg.ETH_GCLBASE e)).toNat
        let cyc := s.rf (Reg.ETH_GCLCYCLE e) 31 0
        let T := if s.ptp e ≤ base ∨ cyc = 0 then max (s.ptp e) base else base + (s.ptp e - base + cyc - 1) / cyc * cyc
        T < 2 ^ 64 →
        Does s (.gclActivate e) (fun a => a = ctl ∨ a = time ∨ ∃ k, k < 128 ∧ a = Reg.ETH_GCLACT e k) view (fun t =>
          t.ioR ctl = setFld (setFld (s.ioR ctl) 2 2 0) 0 0 (1 - s.rf ctl 0 0) ∧ t.ptp e = T ∧
          (∀ k, k < 128 → t.ioR (Reg.ETH_GCLACT e k) = s.ioR (Reg.ETH_GCLSH e k)) ∧
          only t p { s.perSt p with gclLen := s.rf ctl 23 16, gclCycle := cyc, gclStart := T })) ∧
      (let sec := (s.ptp e / 1000000000 + 1) * 1000000000
       let tgt := (s.ioR (Reg.ETH_TGT e)).toNat
       sec < 2 ^ 64 → Does s (.ptpTimeEvent e) (· = time) (fun t => { s with pulses := t.pulses }) (fun t =>
         t.ptp e = (if s.ptp e < tgt then min sec tgt else sec) ∧ t.pulses = s.pulses ++ [321 + e.val])) ∧
      ∀ (up : Bool) (rate : BitVec 12), Does s (.ethLinkChange e up rate) (· = stat p) (fun t => { view t with pulses := t.pulses }) (fun t =>
        linked t p up ∧ only t p { s.perSt p with rate := if up then rate.toNat else 0 })) ∧
    (∀ k : Fin 4,
      let p : PerId := .can k
      let free : Prop := s.rf (Reg.CAN_CANERR k) 17 16 = 2 ∧ s.perEn p = true ∧ ((s.perMode p).testBit 3 = true ∨ (s.perSt p).recover = true)
      (¬ free → Idle s (.canBusOffRecovery k)) ∧
      (free → Does s (.canBusOffRecovery k) (fun a => a = Reg.CAN_CANERR k ∨ a = stat p) (fun t => { s with pulses := t.pulses }) (fun t =>
        t.ioR (Reg.CAN_CANERR k) = 0#64 ∧ linked t p true))) ∧
    (∀ vbus config hs : Bool, s.inRecovery = false →
      Does s (.usbLinkChange vbus config hs) (fun a => a = Reg.USB_USBSTAT ∨ a = stat .usb) (fun t => { view t with pulses := t.pulses }) (fun t =>
        t.ioR Reg.USB_USBSTAT = (putFld 2 2 vbus.toNat ||| putFld 1 1 (vbus && config).toNat ||| putFld 0 0 (vbus && hs).toNat) ∧
        linked t .usb (vbus && config && s.perEn .usb) ∧
        only t .usb (if vbus then s.perSt .usb else { s.perSt .usb with tx := [], frames := [], rx := [] }))) ∧
    (∀ (k : Fin 4) (res : BusRes),
      let p : PerId := .i2c k
      let x := s.perSt p
      let n := fld v 27 16
      let st := Reg.I2C_I2CSTAT k
      on p →
      (¬ may p ∨ bitAt v 29 = false → x.cmd = none → Idle s (.i2cTransaction r k v res)) ∧
      (may p → bitAt v 29 = true → s.rb st 0 = false →
        (res.ending = .nack → Does s (.i2cTransaction r k v res) (fun a => a = st ∨ a = stat p) view (fun t =>
          t.ioR st = 2#64 ∧ raised t p 2 ∧ only t p { x with cmd := none })) ∧
        (res.ending = .arbLost → Does s (.i2cTransaction r k v res) (fun a => a = st ∨ a = stat p) view (fun t =>
          t.ioR st = 4#64 ∧ raised t p 2 ∧ only t p { x with cmd := none })) ∧
        (res.ending = .done →
          (bitAt v 11 = false → Does s (.i2cTransaction r k v res) (· = st) view (fun t =>
            t.ioR st = 8#64 ∧ only t p { x with cmd := none, tx := x.tx.drop n })) ∧
          (bitAt v 11 = true → n ≠ 0 → room p (res.octets.take n).length → Does s (.i2cTransaction r k v res) (· = st) view (fun t =>
            t.ioR st = 8#64 ∧ only t p { x with cmd := none, rx := x.rx ++ [res.octets.take n] }))))) ∧
    (∀ res : BusRes,
      let x := s.perSt .pmb
      let st := Reg.PMB_PMBSTAT
      let kind := fld v 26 24
      let volt : Prop := fld v 6 0 = s.rf Reg.PMB_PMBCREG 6 0 ∧ (kind = 0 ∨ kind = 1 ∨ kind = 2 ∨ kind = 5) ∧
        (fld v 15 8 = 0x01 ∨ fld v 15 8 = 0x02 ∨ fld v 15 8 = 0x21)
      (s.reqPart r ≠ 0 ∨ bitAt v 31 = false → x.cmd = none → Idle s (.pmbusTransaction r v res)) ∧
      (s.reqPart r = 0 → bitAt v 31 = true → kind ≠ 7 → s.rb st 0 = false →
        (volt → x.cmd = none → Does s (.pmbusTransaction r v res) (fun a => a = st ∨ a = stat .pmb) (fun _ => s) (fun t =>
          t.ioR st = 16#64 ∧ raised t .pmb 3)) ∧
        (¬ volt →
          (res.ending = .pecErr → Does s (.pmbusTransaction r v res) (fun a => a = st ∨ a = stat .pmb) view (fun t =>
            t.rb st 3 = true ∧ raised t .pmb 2 ∧ only t .pmb { x with cmd := none })) ∧
          (res.ending = .nack → Does s (.pmbusTransaction r v res) (fun a => a = st ∨ a = stat .pmb) view (fun t =>
            t.ioR st = 4#64 ∧ raised t .pmb 2 ∧ only t .pmb { x with cmd := none })) ∧
          (res.ending = .done → kind < 3 → Does s (.pmbusTransaction r v res) (· = st) view (fun t =>
            t.ioR st = 2#64 ∧ only t .pmb { x with cmd := none })) ∧
          (res.ending = .done → kind = 3 ∨ kind = 4 →
            Does s (.pmbusTransaction r v res) (fun a => a = st ∨ a = Reg.PMB_PMBDATA) view (fun t => t.ioR st = 2#64 ∧
              t.ioR Reg.PMB_PMBDATA = payOf (res.octets.take (kind - 2)) ∧ only t .pmb { x with cmd := none }))))) ∧
    (∀ res : BusRes,
      let x := s.perSt .xspi
      let st := Reg.XSPI_XFSTAT
      let n := fld v 31 0
      let ended (t : State) (bad : Nat) : Prop :=
        t.ioR st = (putFld 15 8 res.status.toNat ||| putFld 2 2 bad ||| putFld 1 1 (res.status.toNat % 2)) ∧ t.ioR Reg.XSPI_XLEN = putFld 31 0 n
      (¬ may .xspi → x.cmd = none → Idle s (.xspiTransfer r v res)) ∧
      (may .xspi → bitAt v 63 = true → s.rb st 0 = false →
        (res.ending ≠ .done → Does s (.xspiTransfer r v res) (fun a => a = st ∨ a = Reg.XSPI_XLEN ∨ a = stat .xspi) view (fun t =>
          ended t 1 ∧ raised t .xspi 2 ∧ only t .xspi { x with cmd := none })) ∧
        (res.ending = .done →
          (s.rb Reg.XSPI_XOP 31 = true → Does s (.xspiTransfer r v res) (fun a => a = st ∨ a = Reg.XSPI_XLEN) view (fun t =>
            ended t 0 ∧ only t .xspi { x with cmd := none, tx := x.tx.drop n })) ∧
          (s.rb Reg.XSPI_XOP 31 = false → n ≠ 0 → room .xspi (res.octets.take n).length →
            Does s (.xspiTransfer r v res) (fun a => a = st ∨ a = Reg.XSPI_XLEN) view (fun t =>
              ended t 0 ∧ only t .xspi { x with cmd := none, rx := x.rx ++ [res.octets.take n] }))))) ∧
    ∀ w : Fin 3,
      let takes (k : Nat) : Prop := k < 32 ∧ bitAt v k = true ∧ s.mayWrite (s.reqPart r) .gpio (32 * w.val + k) = true ∧ s.gpioHeld (32 * w.val + k) = false
      let regs (a : Nat) : Prop := ∃ k, takes k ∧ a = Reg.GPIO_GPCFG (32 * w.val + k)
      let set (t : State) (b : Bool) : Prop := ∀ k, takes k →
        let a := Reg.GPIO_GPCFG (32 * w.val + k)
        let y := setBit (s.ioR a) 6 b
        t.ioR a = if bitAt y 5 = true ∧ fld y 1 0 = 0 then setBit y 7 b else y
      Does s (.gpsetWrite r w v) regs (fun t => { s with pulses := t.pulses }) (fun t => set t true) ∧
      Does s (.gpclrWrite r w v) regs (fun t => { s with pulses := t.pulses }) (fun t => set t false)

/-! Resets, power and boot. -/

/-- Resets, power-up and boot (R62, R406, R407, R410, R417, R423–R426): each cause resets the chip as R423 says and leaves the device booting, or in Cold where
heat or a VIO bank took it there; the pins and the power; the reset of one partition; and the cold boot, which runs an accepted image and ends in
the recovery service where neither slot has one. -/
def Obligations.ChipResets : Prop :=
  ∀ (s : State) (r : Req) (v : W64) (m : Fin 10) (p : PartId), Rising s.io → Rising s.mem →
    let hs (h : HearthSt) : State := { s with hs := h }
    (s.powered = false → (∀ c, Idle s (.chipReset c)) ∧ Idle s .resetNPin ∧ Idle s .thermalReset ∧ Idle s (.supplyTrip m)) ∧
    (s.powered = true →
      (∀ c, Resets s (.chipReset c) c.toNat 0 (if c.toNat = 3 then some 0 else none) (s.hearthKept .boot)) ∧
      Resets s .thermalReset 4 0 none { s.hearthKept .cold with hot := true } ∧
      (s.hs.dev ≠ .cold → Resets s .resetNPin 2 0 none { s.hearthKept .boot with resetN := true }) ∧
      (s.hs.dev = .cold → exec .resetNPin s = .next (hs { s.hs with resetN := true }))) ∧
    (s.railUp = true ∨ s.hs.dev = .boot →
      (m.val < 4 → Resets s (.supplyTrip m) 3 0 (some m.val) (s.hearthKept .boot)) ∧
      (4 ≤ m.val → Resets s (.supplyTrip m) 3 0 (some m.val) { s.hearthKept .cold with vioLost := true })) ∧
    (s.hs.dev = .ember ∨ s.hs.dev = .cold → m.val < 4 → Idle s (.supplyTrip m)) ∧
    (4 ≤ m.val →
      (s.hs.dev = .ember → exec (.supplyTrip m) s = .next (hs { s.hs with resumeOk := false })) ∧
      (s.hs.dev = .cold → exec (.supplyTrip m) s = .next (hs { s.hs with vioLost := true }))) ∧
    (s.hs.hot = false → Idle s .thermalColdRelease) ∧
    (s.hs.hot = true → ∃ h, exec .thermalColdRelease s = .next (hs h) ∧ h.hot = false ∧
      h = { s.hs with hot := false, dev := h.dev } ∧ h.dev = if s.hs.dev = .cold ∧ s.hs.vioLost = false then .boot else s.hs.dev) ∧
    exec .resetNRelease s = .next (hs { s.hs with resetN := false }) ∧
    exec .vhearthLoss s = .next
      { pending := s.pending, freeCtr := s.freeCtr, flash := s.flash, sec := { otp := s.sec.otp }, hs := { dev := .unpowered } } ∧
    (s.powered = true → Idle s .powerOnReset) ∧
    (s.powered = false → Does s .powerOnReset (fun _ => False) (fun t => { s with hs := t.hs, sec := t.sec }) (fun t =>
      t.hs = { s.hs with dev := .boot } ∧ t.sec = { s.sec with fails := t.sec.fails, nexts := t.sec.nexts } ∧
      ∀ k, k < 4 → Tab.get t.sec.fails k 0 = 5 ∧ Tab.get t.sec.nexts k 0 = (s.ioR Reg.HRTH_RTC).toNat + 32768)) ∧
    (s.railUp = true →
      let key : Prop := fld v 63 48 = 0x7C1A
      let x := s.part p
      (s.reqPart r ≠ 0 ∨ ¬ key → Idle s (.hresetChip r v) ∧ Idle s (.hresetPartition r v)) ∧
      (s.reqPart r = 0 → key →
        (bitAt v 5 = true → Resets s (.hresetChip r v) 7 0 none (s.hearthKept .boot)) ∧
        (bitAt v 5 = false → bitAt v 4 = true → fld v 3 0 = p.val →
          (p.val = 0 → Resets s (.hresetPartition r v) 7 0 none (s.hearthKept .boot)) ∧
          (p.val ≠ 0 → ¬ (x.defined = true ∧ x.resetReq = false ∧ x.resetting = false) → Idle s (.hresetPartition r v)) ∧
          (p.val ≠ 0 → x.defined = true → x.resetReq = false → x.resetting = false → (∀ c q d h, (s.core c).wait ≠ .qwait q d h) →
            Does s (.hresetPartition r v) (fun _ => False) (fun t => { s with cores := t.cores, parts := t.parts }) (fun t =>
              t.part p = { x with resetReq := true, resetAt := s.now } ∧ (∀ q, q ≠ p.val → t.part q = s.part q) ∧
              ∀ c, (if c < 64 ∧ s.coreOwned c = true ∧ s.corePart c = p.val ∧ s.corePowered c = true then (t.core c).run = .held ∧
                (t.core c).wait = .none ∧ (t.core c).g = [] ∧ (t.core c).hands = [] else t.core c = s.core c))))) ∧
      (x.resetReq = false → Idle s (.partitionReset p)) ∧
      (x.resetReq = true → ∃ t, exec (.partitionReset p) s = .next t ∧ (t.part p).resetReq = false ∧ (t.part p).resetting = true ∧
        t.rf Reg.HRTH_HRSTC 23 20 = p.val ∧ t.rf Reg.HRTH_HRSTC 47 32 = min (s.rf Reg.HRTH_HRSTC 47 32 + 1) 65535 ∧
        t.rb (Reg.SAFE_TWCFG p) 63 = false ∧ t.rf Reg.HRTH_HLOGPTR 7 0 = (s.rf Reg.HRTH_HLOGPTR 7 0 + 1) % 256) ∧
      (let nets : Prop := ∃ n, n < 8 ∧ s.nDefined n = true ∧ s.nOwner n = p.val ∧ (s.net n).reloadAt ≠ none
       (x.resetting = false ∨ x.presetAt ≠ none ∨ nets → Idle s (.partitionRelease p)) ∧
       (x.resetting = true → x.presetAt = none → ¬ nets → x.resetAt + 2000000 < 2 ^ 64 →
         Does s (.partitionRelease p) (· = Reg.CGL_TIMENS) (fun t => { s with cores := t.cores, parts := t.parts }) (fun t =>
           t.now = max s.now (x.resetAt + 2000000) ∧ t.part p = { x with resetting := false } ∧ (∀ q, q ≠ p.val → t.part q = s.part q) ∧
           ∀ c, c < 64 →
             let mine : Prop := s.coreOwned c = true ∧ s.corePart c = p.val
             let runs : Prop := s.dcore c = true ∧ s.dstatBit (64 + c / 8) = true
             (mine → runs → StartedAt s t c x.entrySel x.entryOff) ∧ (mine → ¬ runs → (t.core c).run = .off) ∧
             (¬ mine → t.core c = s.core c))))) ∧
    (∀ (a b : SlotRead) (ok : Bool),
      let pref := s.rf Reg.HRTH_HBOOT 0 0
      let rd (k : Nat) : SlotRead := if k = 0 then a else b
      let ready : Prop := s.hs.dev = .boot ∧ s.hs.resetN = false ∧ s.hs.jtag ≠ .extest ∧ s.hs.jtag ≠ .clamp ∧ s.hs.jtag ≠ .highz
      (¬ ready → Idle s (.coldBoot a b ok)) ∧
      (ready →
        (∀ o g, s.slotCheck pref (rd pref) ok = .ok (o, g) → ∃ t, exec (.coldBoot a b ok) s = .next t ∧ t.hs.dev = .run ∧ t.railUp = true ∧
          (s.hs.rails = [] → t.hs.rails = [.core, .vddq, .serdes] ∧ t.hs.coreMv = 720)) ∧
        (a = .fails → b = .fails →
          Does s (.coldBoot a b ok) (fun q => q = Reg.HRTH_HBOOT ∨ q = Reg.HRTH_HLOGPTR ∨ q = Reg.SEC_SECSTAT)
            (fun t => { s with hs := t.hs, mem := t.mem }) (fun t =>
            t.hs = { s.hs with dev := .recovery, rails := t.hs.rails, coreMv := t.hs.coreMv } ∧
            (s.hs.rails = [] → t.hs.rails = [.core, .vddq, .serdes] ∧ t.hs.coreMv = 720) ∧ t.rf Reg.HRTH_HBOOT 63 48 = 1 ∧ t.rb Reg.HRTH_HBOOT 16 = true ∧ t.rb Reg.SEC_SECSTAT 6 = true ∧
            t.rf Reg.HRTH_HLOGPTR 7 0 = (s.rf Reg.HRTH_HLOGPTR 7 0 + 2) % 256))))

/-- Hearth and the Damper (R409–R422): monitors warn, shed and recover; cores and domains are gated and powered; operating points and CEIL
move; HPWR is refused or accepted, Ember and Cold are entered, wake sources and the return of VIO leave them, and the RTC is calibrated. -/
def Obligations.PowerEvents : Prop :=
  ∀ (s : State) (r : Req) (v : W64) (m : Fin 10),
    let sm := Reg.HRTH_SMSTAT
    let opp := Reg.CLK_OPP
    let st := Reg.HRTH_HSTATE
    let low := s.rf sm 41 32
    let logs (t : State) : State := { s with mem := t.mem }
    let note (t : State) (code detail : Nat) : Prop := Logged s t code detail ∧ ∀ pa, isLog pa = false → Tab.get t.mem pa 0#80 = Tab.get s.mem pa 0#80
    let hearth (t : State) : State := { s with hs := t.hs }
    let restored (t : State) : State := { s with shuf := t.shuf, ucBad := t.ucBad }
    let shuffled (t : State) (id : Nat) : Prop := Tab.get t.shuf id 0xACE1#16 = 0xACE1#16
    let clean (t : State) (k : Nat) : Prop := ∀ e ∈ t.ucBad, ¬ (k * 2 ^ 14 + 0x2000 ≤ e.1 ∧ e.1 < (k + 1) * 2 ^ 14)
    let sys : Prop := s.reqPart r = 0
    (s.monLive m = false ∨ s.rb sm (32 + m.val) = true → Idle s (.supplyWarn m)) ∧
    (s.monLive m = true → s.rb sm (32 + m.val) = false →
      let x := setBit (setBit (s.ioR sm) (32 + m.val) true) (12 + m.val) true
      (1 ≤ m.val ∧ m.val ≤ 3 → Does s (.supplyWarn m) (fun a => a = sm ∨ a = Reg.HRTH_HLOGPTR) logs (fun t =>
        t.ioR sm = x ∧ note t 0x03 (2 ^ m.val))) ∧
      (¬ (1 ≤ m.val ∧ m.val ≤ 3) → low ≠ 0 → Does s (.supplyWarn m) (· = sm) (fun _ => s) (fun t => t.ioR sm = x)) ∧
      (¬ (1 ≤ m.val ∧ m.val ≤ 3) → low = 0 →
        let shed (k : Nat) : Prop := k < 273 ∧ s.rb (Reg.DMPR_DSHED (k / 64)) (k % 64) = true ∧ s.domOn k = true
        ((∀ k, ¬ shed k) → Does s (.supplyWarn m) (fun a => a = sm ∨ a = Reg.HRTH_HLOGPTR) logs (fun t => note t 0x03 (2 ^ m.val) ∧
          t.ioR sm = setFld (setBit x 0 true) 63 48 (min (s.rf sm 63 48 + 1) 65535))) ∧
        ((∀ k, shed k → k < 64) → (∀ c q d h, (s.core c).wait ≠ .qwait q d h) →
          Does s (.supplyWarn m) (fun a => a = sm ∨ a = Reg.HRTH_HLOGPTR ∨ a = Reg.DMPR_DSHOFF 0) (fun t => { logs t with cores := t.cores }) (fun t =>
            note t 0x03 (2 ^ m.val) ∧ (∀ c, c < 64 → t.rb (Reg.DMPR_DSHOFF 0) c = (s.rb (Reg.DMPR_DSHOFF 0) c || decide (shed c))) ∧
            ∀ c, t.core c = if shed c ∧ (s.core c).run = .run then { s.core c with run := .shed } else s.core c)))) ∧
    (s.powered = false ∨ low = 0 → Idle s .supplyRecovered) ∧
    (s.powered = true → low ≠ 0 → Does s .supplyRecovered (fun a => a = sm ∨ a = Reg.HRTH_HLOGPTR) logs (fun t =>
      t.ioR sm = setBit (setFld (s.ioR sm) 41 32 0) 1 true ∧ note t 0x04 low)) ∧
    (s.railUp = true →
      (¬ (sys ∧ bitAt v 0 = true ∧ low = 0) → Idle s (.dreenAll r v)) ∧
      (sys → bitAt v 0 = true → low = 0 → (∀ k, 232 ≤ k → k < 248 → s.domShed k = false) →
        Does s (.dreenAll r v) (fun a => a = sm ∨ ∃ k, k < 5 ∧ a = Reg.DMPR_DSHOFF k) (fun t => { s with cores := t.cores }) (fun t =>
          t.ioR sm = setFld (s.ioR sm) 2 2 0 ∧ (∀ k, k < 5 → t.ioR (Reg.DMPR_DSHOFF k) = 0#64) ∧
          ∀ c, t.core c = if c < 64 ∧ s.domShed c = true ∧ (s.core c).run = .shed then { s.core c with run := .run } else s.core c)) ∧
      (let gated (c : Nat) : Prop := c < 64 ∧ ¬ (bitAt v c = true ∧ s.coreOwned c = true) ∧ (s.core c).run = .run ∧ (s.core c).wait = .doze ∧
         s.servesSource c = false
       let asked (t : State) : Prop := ∀ c, c < 64 → t.dcore c = (bitAt v c && s.coreOwned c)
       (¬ sys → Idle s (.dcoreWrite r v)) ∧
       (sys → (∀ c, ¬ gated c) → Does s (.dcoreWrite r v) (· = Reg.DMPR_DCORE) (fun _ => s) asked) ∧
       (sys → ∃ t, exec (.dcoreWrite r v) s = .next t ∧ asked t ∧ ∀ c, gated c → (t.core c).run = .off)) ∧
      (∀ (d : Fin 273) (ok : Bool), let k := d.val
        (s.domShed k = true → Idle s (.domainPowerUp d ok)) ∧
        (s.domShed k = false →
          (k < 64 →
            let due : Prop := s.coreOwned k = true ∧ s.dcore k = true ∧ (s.core k).run = .off ∧ s.dstatBit (64 + k / 8) = true ∧
              (s.part (s.corePart k)).resetting = false ∧ (s.part (s.corePart k)).resetReq = false
            (¬ due → Idle s (.domainPowerUp d ok)) ∧
            (due → ok = true → Does s (.domainPowerUp d ok) (fun _ => False) (fun t => { restored t with cores := t.cores }) (fun t =>
              StartedAt s t k (s.part (s.corePart k)).entrySel (s.part (s.corePart k)).entryOff ∧ (∀ c, c ≠ k → t.core c = s.core c) ∧
              shuffled t (cL1D k) ∧ clean t (k / 8))) ∧
            (due → ok = false → Does s (.domainPowerUp d ok) (fun _ => False) (fun t => { s with faultIn := t.faultIn }) (fun t =>
              ∃ y ∈ t.faultIn, y.1 = 16 + k / 8))) ∧
          (64 ≤ k → k < 72 →
            let due : Prop := s.shellNeeded (k - 64) = true ∧ s.dstatBit k = false
            (¬ due → Idle s (.domainPowerUp d ok)) ∧
            (due → ok = true → Does s (.domainPowerUp d ok) (· = Reg.DMPR_DSTAT 1) restored (fun t =>
              t.ioR (Reg.DMPR_DSTAT 1) = setBit (s.ioR (Reg.DMPR_DSTAT 1)) (k - 64) true ∧ shuffled t (cL2 (k - 64)) ∧ clean t (k - 64))) ∧
            (due → ok = false → Does s (.domainPowerUp d ok) (fun _ => False) (fun t => { s with faultIn := t.faultIn }) (fun t =>
              ∃ y ∈ t.faultIn, y.1 = 16 + (k - 64)))) ∧
          (251 ≤ k → k < 255 →
            let due : Prop := ∃ j, j < 16 ∧ s.dState (16 * (k - 251) + j) ≠ 0
            (¬ due → Idle s (.domainPowerUp d ok)) ∧
            (due → Does s (.domainPowerUp d ok) (· = Reg.DMA_ESTAT (k - 251)) (fun _ => s) (fun t =>
              t.ioR (Reg.DMA_ESTAT (k - 251)) = setBit (s.ioR (Reg.DMA_ESTAT (k - 251))) 4 true))) ∧
          ((263 ≤ k ∧ k < 269) ∨ k = 272 →
            let due : Prop := s.dioBit k = true ∧ (k = 272 ∨ ∃ q ∈ perAll, perDomain q = some k ∧ s.perOwner q ≠ none)
            (¬ due → Idle s (.domainPowerUp d ok)) ∧
            (due → Does s (.domainPowerUp d ok) (· = Reg.DMPR_DSTAT 4) (fun _ => s) (fun t =>
              t.ioR (Reg.DMPR_DSTAT 4) = setBit (s.ioR (Reg.DMPR_DSTAT 4)) (k % 64) true))))) ∧
      (let x := setFld (s.ioR opp) 1 0 (fld v 1 0)
       let goal := min (fld v 1 0) (s.rf opp 9 8)
       (¬ sys → Idle s (.oppWrite r v)) ∧
       (sys → fld v 1 0 < 3 →
         (bitAt x 7 = true ∨ goal = s.rf opp 5 4 → Does s (.oppWrite r v) (· = opp) (fun _ => s) (fun t => t.ioR opp = x)) ∧
         (bitAt x 7 = false → goal ≠ s.rf opp 5 4 → Does s (.oppWrite r v) (· = opp) hearth (fun t =>
           t.ioR opp = setBit (setBit x 7 true) 6 true ∧ t.hs = { s.hs with oppTo := some goal })))) ∧
      (s.hs.oppTo = none → Idle s .oppTransition ∧ Idle s (.modeTransitionComplete .opPoint)) ∧
      (∀ b, s.hs.oppTo = some b →
        (s.rf opp 5 4 < b → s.rb sm 32 = true → Idle s .oppTransition) ∧
        (¬ (s.rf opp 5 4 < b ∧ s.rb sm 32 = true) → b < 3 → s.oppTarget = b →
          ∀ i, i = .oppTransition ∨ i = .modeTransitionComplete .opPoint → Does s i (· = opp) hearth (fun t =>
            t.ioR opp = setFld (setFld (s.ioR opp) 5 4 b) 7 6 0 ∧ t.hs = { s.hs with oppTo := none, coreMv := if b = 0 then 650 else if b = 1 then 720 else 850 }))) ∧
      (∀ tj : BitVec 14,
        let cfg := s.ioR Reg.CLK_TGCFG
        let up := if fld cfg 27 14 ≤ tj.toNat then s.hs.stepCnt + 1 else 0
        let dn := if tj.toNat ≤ fld cfg 41 28 then s.hs.relCnt + 1 else 0
        let tr := if fld cfg 55 42 ≤ tj.toNat then s.hs.tripCnt + 1 else 0
        let tg := setFld (s.ioR Reg.CLK_TGSTAT) 13 0 tj.toNat
        let ceil := s.rf opp 9 8
        let h := { s.hs with stepCnt := up, relCnt := dn, tripCnt := tr, ceilHold := s.hs.ceilHold - 1 }
        let lowers : Prop := s.hs.ceilHold ≤ 1 ∧ 10 ≤ up ∧ 0 < ceil
        let raises : Prop := s.hs.ceilHold ≤ 1 ∧ 1000 ≤ dn ∧ ceil < 2
        (¬ lowers → ¬ raises → tr ≠ 10 → Does s (.thermalReading tj) (· = Reg.CLK_TGSTAT) hearth (fun t =>
          t.ioR Reg.CLK_TGSTAT = tg ∧ t.hs = h)) ∧
        (¬ lowers → ¬ raises → tr = 10 → Does s (.thermalReading tj) (fun a => a = Reg.CLK_TGSTAT ∨ a = Reg.HRTH_HLOGPTR)
          (fun t => { hearth t with mem := t.mem, faultIn := t.faultIn }) (fun t =>
          t.ioR Reg.CLK_TGSTAT = setBit tg 17 true ∧ t.hs = h ∧ (∃ y ∈ t.faultIn, y.1 = 78) ∧ note t 0x06 0)) ∧
        (let moved (c : Nat) : Prop := Does s (.thermalReading tj) (fun a => a = Reg.CLK_TGSTAT ∨ a = Reg.HRTH_HLOGPTR ∨ a = opp)
             (fun t => { hearth t with mem := t.mem, pulses := t.pulses }) (fun t =>
             t.rf opp 9 8 = c ∧ t.pulses = s.pulses ++ [359] ∧ note t 0x05 c ∧ t.rf Reg.CLK_TGSTAT 13 0 = tj.toNat)
         tr ≠ 10 → (lowers → moved (ceil - 1)) ∧ (¬ lowers → raises → moved (ceil + 1)))) ∧
      (let w : Option Nat := match r with | .core c => some c.val | _ => none
       let answers (k : Nat) (t : State) : Prop := t.ioR st = setFld (s.ioR st) 11 8 k
       (∀ i, i = .hpwrEmber r v ∨ i = .hpwrCold r v →
         (¬ sys → Idle s i) ∧
         (sys → fld v 63 48 ≠ 0xE4B3 → Does s i (· = st) (fun _ => s) (answers 6)) ∧
         (sys → fld v 63 48 = 0xE4B3 → fld v 1 0 = 1 ∨ fld v 1 0 = 2 →
           let k := s.hpwrRefusal w (fld v 1 0 = 1)
           (k ≠ 0 → Does s i (· = st) (fun _ => s) (answers k)) ∧
           (k = 0 → Does s i (· = st) hearth (fun t => answers 0 t ∧ t.hs = { s.hs with cmd := w.map (fun c => (fld v 1 0, c)) }))))) ∧
      (s.sleepReady 1 = false → Idle s .emberEntry) ∧
      (s.sleepReady 1 = true → ∃ t, exec .emberEntry s = .next t ∧ t.railUp = false ∧ (∀ c, c < 64 → (t.core c).run = .off) ∧ t.tags = [] ∧
        t.hs = { s.hs with dev := .ember, cmd := none, wake := 0, resumeOk := true, emberRtc := (s.ioR Reg.HRTH_RTC).toNat,
                           rails := (s.hs.rails.erase .serdes).erase .core, coreMv := 0 }) ∧
      (s.sleepReady 2 = false → Idle s .coldEntry) ∧
      (s.sleepReady 2 = true → Rising s.io → Rising s.mem → ∃ t, exec .coldEntry s = .next t ∧ t.hs = s.hearthKept .cold ∧ Logged s t 0x07 1 ∧
        t.cores = [] ∧ (∀ pa, isLog pa = false → Tab.get t.mem pa 0#80 = 0#80) ∧
        (∀ a, 0xFF00D00000 ≤ a → a < 0xFF00D10000 → a ≠ Reg.HRTH_HLOGPTR → t.ioR a = s.ioR a) ∧
        ∀ a, ¬ (0xFF00D00000 ≤ a ∧ a < 0xFF00D10000) → t.ioR a = regReset a) ∧
      (let old := (s.ioR Reg.HRTH_RTC).toNat
       let alm := (s.ioR Reg.HRTH_RTCALM).toNat
       let rang : Prop := old < alm ∧ alm ≤ old + 32768
       (¬ rang → Does s .rtcCalibration (· = Reg.HRTH_RTC) (fun _ => s) (fun t => t.ioR Reg.HRTH_RTC = s.ioR Reg.HRTH_RTC + 32768#64)) ∧
       (rang → Does s .rtcCalibration (fun a => a = Reg.HRTH_RTC ∨ a = Reg.HRTH_HWSRC) hearth (fun t =>
         t.ioR Reg.HRTH_RTC = s.ioR Reg.HRTH_RTC + 32768#64 ∧ t.rb Reg.HRTH_HWSRC 8 = true ∧
         t.hs = if s.rb Reg.HRTH_HWAKE 17 then { s.hs with cmd := none } else s.hs)))) ∧
    (∀ src : Fin 11,
      let seen (t : State) : Prop := t.ioR Reg.HRTH_HWSRC = setBit (s.ioR Reg.HRTH_HWSRC) src true
      (s.powered = false → Idle s (.wakeSource src)) ∧
      (s.powered = true →
        (s.wakeEnabled src = false → Does s (.wakeSource src) (· = Reg.HRTH_HWSRC) (fun _ => s) seen) ∧
        (s.wakeEnabled src = true →
          (s.hs.dev = .ember → Does s (.wakeSource src) (· = Reg.HRTH_HWSRC) hearth (fun t => seen t ∧
            t.hs = { s.hs with wake := if s.hs.wake = 0 then src.val + 1 else s.hs.wake })) ∧
          (s.railUp = true → Does s (.wakeSource src) (· = Reg.HRTH_HWSRC) hearth (fun t => seen t ∧ t.hs = { s.hs with cmd := none })) ∧
          (s.hs.dev = .cold → s.hs.hot = true ∨ (s.hs.vioLost = true ∧ src.val ≠ 10) →
            Does s (.wakeSource src) (· = Reg.HRTH_HWSRC) (fun _ => s) seen) ∧
          (s.hs.dev = .cold → ¬ (s.hs.hot = true ∨ (s.hs.vioLost = true ∧ src.val ≠ 10)) →
            Does s (.wakeSource src) (fun a => a = Reg.HRTH_HWSRC ∨ a = st ∨ a = Reg.HRTH_HLOGPTR) (fun t => { hearth t with mem := t.mem }) (fun t =>
              seen t ∧ t.rf st 23 16 = src.val + 1 ∧ note t 0x08 (src.val + 1) ∧
              t.hs = { s.hs with dev := .boot, vioLost := false }))))) ∧
    (¬ (s.hs.dev = .cold ∧ s.hs.vioLost = true) → Idle s .vioReturn) ∧
    (s.hs.dev = .cold → s.hs.vioLost = true → s.hs.hot = false →
      Does s .vioReturn (fun a => a = Reg.HRTH_HWSRC ∨ a = st ∨ a = Reg.HRTH_HLOGPTR) (fun t => { hearth t with mem := t.mem }) (fun t =>
        t.rb Reg.HRTH_HWSRC 10 = true ∧ t.rf st 23 16 = 11 ∧ t.hs = { s.hs with dev := .boot, vioLost := false })) ∧
    ∀ (n : BitVec 64) (ok : Bool),
      (s.hs.dev ≠ .ember ∨ s.hs.wake = 0 → Idle s (.emberExit n ok)) ∧
      (s.hs.dev = .ember → s.hs.wake ≠ 0 → s.hs.wake < 256 → s.hs.resumeOk = true → ok = true → s.rb Reg.SAFE_SWDCFG 63 = false →
        let p := s.part 0
        let own : Prop := p.resumeSel = 0 ∧ p.resumeOff = 0
        ∃ t, exec (.emberExit n ok) s = .next t ∧ t.railUp = true ∧
          t.hs = { s.hs with dev := .run, wake := 0, resumeOk := false, rails := t.hs.rails, coreMv := t.hs.coreMv } ∧
          (s.hs.rails = [.vddq] → t.hs.rails = [.vddq, .core, .serdes] ∧ t.hs.coreMv = 720) ∧
          t.ioR Reg.HRTH_RTC = s.ioR Reg.HRTH_RTC + n ∧
          t.ioR Reg.CGL_TIMENS = s.ioR Reg.CGL_TIMENS + n64 (n.toNat * 1000000000 / 32768) ∧ t.rb st 0 = true ∧ t.rf st 23 16 = s.hs.wake ∧
          (own → StartedAt s t p.bootCore (s.part (s.corePart p.bootCore)).entrySel (s.part (s.corePart p.bootCore)).entryOff) ∧
          (¬ own → StartedAt s t p.bootCore p.resumeSel p.resumeOff) ∧ ∀ c, c ≠ p.bootCore → t.core c = s.core c) ∧
      (s.hs.dev = .ember → s.hs.wake ≠ 0 → ok = false → Rising s.io → ∃ t, exec (.emberExit n ok) s = .next t ∧ t.hs.dev = .boot ∧ t.cores = [] ∧
        t.rf Reg.HRTH_HRSTC 7 0 = 9 ∧ t.ioR Reg.HRTH_RTC = s.ioR Reg.HRTH_RTC + n)

/-- The safety monitor (R454–R470): an input latches once, with its reaction; lockstep, clock and self-test faults; settings under the lock; the
clearing of inputs; and the safety and task watchdogs. -/
def Obligations.SafetyMonitor : Prop :=
  ∀ (s : State) (r : Req) (v : W64), s.railUp = true →
    let q := s.reqPart r
    let saf (t : State) : State := { s with saf := t.saf }
    let faults (t : State) : State := { s with faultIn := t.faultIn }
    let input (t : State) (k : Nat) : Prop := (∃ y ∈ t.faultIn, y.1 = k) ∧ ∀ y ∈ s.faultIn, y ∈ t.faultIn
    let locked : Prop := s.rb Reg.SAFE_SLOCK 0 = true
    let reset (t : State) (cause : Nat) : Prop := t.hs.dev = .boot ∧ t.cores = [] ∧ t.rf Reg.HRTH_HRSTC 7 0 = cause
    let latchRegs (k a : Nat) : Prop := a = Reg.SAFE_FREC0 ∨ a = Reg.SAFE_FREC1 ∨ a = Reg.SAFE_FPEND (k / 64) ∨ cacheRegs a
    let latched (t : State) (k p core : Nat) : Prop :=
      let clear : Prop := ∀ w, w < 4 → s.ioR (Reg.SAFE_FPEND w) = 0#64
      t.ioR (Reg.SAFE_FPEND (k / 64)) = setBit (s.ioR (Reg.SAFE_FPEND (k / 64))) (k % 64) true ∧ Tab.get t.saf.concerned k 0 = p + 1 ∧
      Tab.get t.saf.mask k 0 = (if k < 16 then s.groupsOf p else 0) ∧
      (clear → t.ioR Reg.SAFE_FREC1 = n64 s.now ∧ t.ioR Reg.SAFE_FREC0 =
        (putFld 63 63 1 ||| putFld 29 24 (if k < 16 ∨ (112 ≤ k ∧ k < 144) then core else 0) ||| putFld 19 16 p ||| putFld 10 8 (s.fact_ k) |||
          putFld 7 0 k)) ∧
      (¬ clear → t.ioR Reg.SAFE_FREC0 = s.ioR Reg.SAFE_FREC0 ∧ t.ioR Reg.SAFE_FREC1 = s.ioR Reg.SAFE_FREC1)
    (∀ k : Fin 256,
      ((∀ y ∈ s.faultIn, y.1 ≠ k.val) → Idle s (.faultInputLatch k)) ∧
      ∀ pre post p core, s.faultIn = pre ++ (k.val, p, core) :: post → (∀ y ∈ pre, y.1 ≠ k.val) →
        let o := s.concernedBy k p
        (inputReserved k = true ∨ s.fpend k = true → Does s (.faultInputLatch k) (fun _ => False) faults (fun t => t.faultIn = pre ++ post)) ∧
        (inputReserved k = false → s.fpend k = false →
          (s.fact_ k < 3 ∨ 5 < s.fact_ k → Does s (.faultInputLatch k) (latchRegs k) (fun t => { faults t with saf := t.saf }) (fun t =>
            t.faultIn = pre ++ post ∧ latched t k o core)) ∧
          (s.fact_ k = 3 ∨ s.fact_ k = 4 → ∃ t, exec (.faultInputLatch k) s = .next t ∧
            (o ≠ 0 ∨ s.fact_ k = 3 → latched t k o core ∧ t.faultIn = pre ++ post ∧
              ∀ g, g < 8 → (s.rb (Reg.SAFE_FCFG k) (24 + g) = true ∨ (k.val < 16 ∧ (s.groupsOf o).testBit g = true)) → t.groupArmed g = false) ∧
            (s.fact_ k = 4 → o ≠ 0 → (s.part o).defined = true → (t.part o).resetReq = true ∨ (t.part o).resetting = true)) ∧
          (s.fact_ k = 5 → Rising s.io → ∃ t, exec (.faultInputLatch k) s = .next t ∧ reset t 6))) ∧
    (∀ (j : Fin 32) (what : Fin 4) (idx : BitVec 24),
      let c := 2 * j.val
      let k := j.val / 4
      let stat := Reg.DBG_DBGSTAT c
      (¬ (s.corePaired c = true ∧ (s.core c).run = .run) → Idle s (.lockstepMismatch j what idx)) ∧
      (s.corePaired c = true → (s.core c).run = .run → (∀ q d h, (s.core c).wait ≠ .qwait q d h) →
        Does s (.lockstepMismatch j what idx) (fun a => a = Reg.SAFE_LSREC k ∨ a = stat) (fun t => { faults t with cores := t.cores }) (fun t =>
          t.core c = { s.core c with run := .mismatch, micro := none, walk := none, wait := .none } ∧ (∀ i, i ≠ c → t.core i = s.core i) ∧
          t.ioR stat = setBit (s.ioR stat) 0 true ∧ input t k ∧
          t.ioR (Reg.SAFE_LSREC k) = (if s.rb (Reg.SAFE_LSREC k) 63 then s.ioR (Reg.SAFE_LSREC k) else
            (putFld 63 63 1 ||| putFld 27 26 (j.val % 4) ||| putFld 25 24 what ||| putFld 23 0 idx.toNat))))) ∧
    (∀ k : Fin 8,
      (s.corePaired (8 * k.val) = false → ∀ ok, Idle s (.comparatorSelfTest k ok)) ∧
      (s.corePaired (8 * k.val) = true → Does s (.comparatorSelfTest k true) cacheRegs (fun _ => s) (fun _ => True) ∧
        Does s (.comparatorSelfTest k false) (fun _ => False) faults (fun t => input t (168 + k.val)))) ∧
    Does s (.rcCheck true) (fun _ => False) saf (fun t => t.saf = { s.saf with refBad := false }) ∧
    Does s (.rcCheck false) (fun _ => False) (fun t => { saf t with faultIn := t.faultIn }) (fun t =>
      t.saf = { s.saf with refBad := true } ∧ input t 164) ∧
    (∀ k : Fin 4, Does s (.pllLockLoss k) (fun _ => False) (fun t => { saf t with faultIn := t.faultIn }) (fun t =>
      t.saf = { s.saf with pllLost := s.saf.pllLost ||| 2 ^ k.val } ∧ input t (160 + k.val))) ∧
    (∀ k : Fin 256,
      let a := Reg.SAFE_FCFG k
      let floor := s.rf a 10 8
      (q ≠ 0 ∨ locked → Idle s (.fcfgWrite r k v)) ∧
      (q = 0 → ¬ locked → Does s (.fcfgWrite r k v) (· = a) (fun _ => s) (fun t =>
        t.fact_ k = (if 6 ≤ fld v 2 0 then s.fact_ k else max floor (fld v 2 0)) ∧ t.rf a 10 8 = floor ∧ t.rf a 19 16 = fld v 19 16 ∧
        t.rf a 31 24 = if floor = 0 then fld v 31 24 else (fld v 31 24 ||| s.defaultMask k) % 256))) ∧
    (∀ w : Fin 4, Does s (.fpendClear r w v) (fun a => a = Reg.SAFE_FPEND w ∨ ∃ n, n < 96 ∧ a = Reg.GPIO_GPCFG n)
      (fun t => { saf t with pulses := t.pulses }) (fun t =>
      ∀ j, j < 64 →
        let k := 64 * w.val + j
        let clears : Prop := bitAt v j = true ∧ s.fpend k = true ∧ (q = 0 ∨ Tab.get s.saf.concerned k 0 = q + 1) ∧ s.faultStands k = false
        t.fpend k = (s.fpend k && !decide clears) ∧ (clears → Tab.get t.saf.concerned k 0 = 0 ∧ Tab.get t.saf.mask k 0 = 0))) ∧
    (let k := fld v 7 0
     let own : Prop := k = 224 + 2 * q ∨ k = 225 + 2 * q
     (¬ own → Idle s (.swfltWrite r v)) ∧
     (own → inputReserved k = true ∨ s.fpend k = true → Idle s (.swfltWrite r v)) ∧
     (own → inputReserved k = false → s.fpend k = false → (s.fact_ k < 3 ∨ 5 < s.fact_ k) →
       Does s (.swfltWrite r v) (latchRegs k) saf (fun t => latched t k (s.concernedBy k q) 0))) ∧
    (let on : Prop := s.rb Reg.SAFE_SWDCFG 63 = true
     let stat := Reg.SAFE_SWDSTAT
     let legal : Prop := 100 ≤ fld v 13 0 ∧ fld v 13 0 ≤ 10000 ∧ fld v 29 16 + 100 ≤ fld v 13 0
     let put (t : State) (b : Nat) : Prop := t.ioR Reg.SAFE_SWDCFG = (putFld 63 63 b ||| (v &&& (fmask 59 56 ||| fmask 29 16 ||| fmask 13 0)))
     (¬ (q = 0 ∧ ¬ locked ∧ legal) → Idle s (.swdcfgWrite r v)) ∧
     (q = 0 → ¬ locked → legal →
       (on ∨ bitAt v 63 = false → Does s (.swdcfgWrite r v) (· = Reg.SAFE_SWDCFG) (fun _ => s) (fun t => put t (s.rb Reg.SAFE_SWDCFG 63).toNat)) ∧
       (¬ on → bitAt v 63 = true → Does s (.swdcfgWrite r v) (fun a => a = Reg.SAFE_SWDCFG ∨ a = stat) saf (fun t => put t 1 ∧
         t.ioR stat = setBit (setFld (s.ioR stat) 63 48 0x5A3C) 32 true ∧ t.saf = { s.saf with swdAt := s.now, swdRuns := true }))) ∧
     (let runs : Prop := on ∧ s.saf.swdRuns = true
      let mine : Prop := s.rf Reg.SAFE_SWDCFG 59 56 = q
      let first : Prop := s.rb stat 32 = true
      let from_ := s.saf.swdAt + s.rf Reg.SAFE_SWDCFG 29 16 * 1000
      let upTo := s.saf.swdAt + s.rf Reg.SAFE_SWDCFG 13 0 * 1000 * (if s.rb stat 32 then 2 else 1)
      let good : Prop := fld v 15 0 = s.rf stat 63 48 ∧ (first ∨ from_ ≤ s.now) ∧ s.now ≤ upTo
      (¬ (runs ∧ mine) → Idle s (.swdkick r v)) ∧
      (runs → mine → good → Does s (.swdkick r v) (· = stat) saf (fun t => t.saf = { s.saf with swdAt := s.now } ∧
        t.ioR stat = setFld (setFld (s.ioR stat) 63 48 (if fld v 15 0 = 0x5A3C then 0xC3A5 else 0x5A3C)) 32 32 0)) ∧
      (runs → mine → ¬ good → Rising s.io → ∃ t, exec (.swdkick r v) s = .next t ∧ reset t 5) ∧
      (¬ runs → Idle s .safetyWatchdogExpiry) ∧
      (runs → Rising s.io → ∃ t, exec .safetyWatchdogExpiry s = .next t ∧ reset t 5))) ∧
    ∀ p : PartId,
      let cfg := Reg.SAFE_TWCFG p
      let counts (t : State) (x : Nat × Nat) : Prop := t.tw p = x ∧ (∀ k, k ≠ p.val → t.tw k = s.tw k) ∧ t.saf = { s.saf with tw := t.saf.tw }
      (¬ (q = 0 ∨ q = p.val) → Idle s (.twkick r p)) ∧
      (q = 0 ∨ q = p.val → Does s (.twkick r p) (fun _ => False) saf (fun t => counts t (s.now, if (s.tw p).2 = 0 then 0 else s.now + 1))) ∧
      (s.rb cfg 63 = false ∨ (s.tw p).2 ≠ 0 → Idle s (.taskWatchdogExpiry p)) ∧
      (let T := (s.tw p).1 + s.rf cfg 23 0 * 1000
       s.rb cfg 63 = true → (s.tw p).2 = 0 → T < 2 ^ 64 →
        Does s (.taskWatchdogExpiry p) (fun a => a = cfg ∨ a = Reg.CGL_TIMENS) (fun t => { saf t with faultIn := t.faultIn }) (fun t =>
          t.now = max s.now T ∧ t.ioR cfg = setBit (s.ioR cfg) 61 true ∧ counts t (max s.now T, 0) ∧ input t (144 + p.val)))

/-! The security block. -/

/-- Sessions (R474–R478, R483): openings by role key and by password, with their refusals and the count of failures; closing by a frame, a wrong MAC or
SEQ, the timeout or SCTL; and the octets in and out. -/
def Obligations.Sessions : Prop :=
  ∀ (s : State) (r : Req) (v : W64) (carried f : List Octet), s.railUp = true →
    let z := s.sec.sess
    let b := State.fBody f
    let stat := Reg.SEC_SECSTAT
    let sec (t : State) : State := { s with sec := t.sec }
    let drawn (t : State) : State := { s with sec := t.sec, freeCtr := t.freeCtr }
    let drop := if s.inRecovery then s.sec.frames else s.sec.frames.tail
    let tells (t : State) (typ : Nat) (body : List Octet) : Prop := t.sec.sout = s.sec.sout ++ State.plainFrame typ body ∧ t.sec.frames = drop
    let refused (t : State) (code : Octet) (x : SessSt) : Prop := tells t 0x05 [code] ∧ t.sec = { s.secAnswer t with sess := x }
    let closed (t : State) : Prop := t.sec.sess = {} ∧ t.ioR stat = setBit (setFld (setFld (s.ioR stat) 0 0 0) 6 2 0) 7 true
    let wrong (t : State) (role : Nat) : Prop :=
      let n := min 255 (Tab.get s.sec.fails role 0 + 1)
      tells t 0x05 [SC.auth] ∧ t.sec.sess = {} ∧ Tab.get t.sec.fails role 0 = n ∧
      Tab.get t.sec.nexts role 0 = (if 5 ≤ n then s.rtc + 32768 * min (2 ^ (n - 5)) 3600 else Tab.get s.sec.nexts role 0) ∧
      (∀ k, k ≠ role → Tab.get t.sec.fails k 0 = Tab.get s.sec.fails k 0 ∧ Tab.get t.sec.nexts k 0 = Tab.get s.sec.nexts k 0) ∧
      t.sec = { s.secAnswer t with fails := t.sec.fails, nexts := t.sec.nexts }
    let opened (t : State) (ks ke : List Octet) : Prop := tells t 0x04 (Config.hmac ks (ascii "KS8840-DEV" ++ z.nh)) ∧
      t.sec.sess = { z with phase := .opened, ks := ks, ke := ke, seqIn := 1, seqOut := 1, last := s.now, usb := s.inRecovery } ∧
      Tab.get t.sec.fails z.role 0 = 0 ∧ (∀ k, k ≠ z.role → Tab.get t.sec.fails k 0 = Tab.get s.sec.fails k 0) ∧
      t.sec = { s.secAnswer t with fails := t.sec.fails } ∧ t.rb stat 0 = true ∧ t.rb stat 7 = true ∧ t.rf stat 3 2 = z.role % 4
    let octets (k n : Nat) : List Octet := (List.range n).map (fun i => (Config.random k).getD i 0#8)
    (s.nextIn carried = some (f, true) → State.fOk f false = true → State.fType f = 1 →
      ∀ (method : Nat) (i : Instr), (method = 0 ∧ i = .sessionHello carried) ∨ (method = 1 ∧ i = .sessionPasswordHello carried) →
        numAt f 17 1 = method → b.length = (if method = 0 then 18 else 82) →
        let role := numAt b 0 1
        (3 < role → Does s i (fun _ => False) sec (fun t => refused t SC.badmsg z)) ∧
        (role ≤ 3 →
          (s.sessOpen = true → Does s i (fun _ => False) sec (fun t => refused t SC.busy z)) ∧
          (s.sessOpen = false → s.lockedOut role = true → Does s i (fun _ => False) sec (fun t => refused t SC.locked z)) ∧
          (s.sessOpen = false → s.lockedOut role = false → s.hasCred role method = false →
            Does s i (fun _ => False) sec (fun t => refused t SC.nocred z)) ∧
          (s.sessOpen = false → s.lockedOut role = false → s.hasCred role method = true →
            let nd := octets s.freeCtr 16
            let dp := octets (s.freeCtr + 1) 32
            let qd := if method = 0 then [] else Config.ecdhPublic dp
            Does s i (fun _ => False) drawn (fun t => t.freeCtr = s.freeCtr + 2 ∧ tells t 0x02 (nd ++ Config.devId ++ qd) ∧
              t.sec = s.secAnswer t ∧ (t.sec.sess.phase = .challenged ∧ t.sec.sess.role = role ∧ t.sec.sess.method = method) ∧
              (t.sec.sess.nh = octAt b 2 16 ∧ t.sec.sess.nd = nd ∧ t.sec.sess.qh = b.drop 18 ∧ t.sec.sess.qd = qd ∧ t.sec.sess.at_ = s.now))))) ∧
    (s.nextIn carried = some (f, true) → State.fType f = 3 → z.phase = .challenged → z.method = 0 → State.fOk f false = true →
      let k := s.roleKey z.role
      let i : Instr := .sessionResponse carried
      (s.lockedOut z.role = true → Does s i (fun _ => False) sec (fun t => refused t SC.locked {})) ∧
      (s.lockedOut z.role = false → k = [] → Does s i (fun _ => False) sec (fun t => refused t SC.nocred {})) ∧
      (s.lockedOut z.role = false → k ≠ [] →
        let proof := Config.hmac k (ascii "KS8840-AUTH" ++ Config.devId ++ [BitVec.ofNat 8 z.role] ++ z.nd ++ z.nh)
        (s.now ≤ z.at_ + 10000000000 ∧ b = proof → Does s i (· = stat) sec (fun t =>
          opened t (Config.hmac k (ascii "KS8840-SESS" ++ z.nd ++ z.nh)) (Config.hmac k (ascii "KS8840-ENC" ++ z.nd ++ z.nh)))) ∧
        (¬ (s.now ≤ z.at_ + 10000000000 ∧ b = proof) → Does s i (fun _ => False) sec (fun t => wrong t z.role)))) ∧
    (s.nextIn carried = some (f, true) → State.fType f = 3 → z.phase = .challenged → z.method = 1 → State.fOk f true = true → 1 ≤ b.length → b.length ≤ 64 →
      let i : Instr := .sessionPasswordResponse carried
      let kx := Config.hmac (Config.ecdhShared z.dpriv z.qh) (ascii "KS8840-PWD" ++ z.qh ++ z.qd ++ z.nd ++ z.nh)
      let ks := Config.hmac kx (ascii "SESS")
      let ke := Config.hmac kx (ascii "ENC")
      let y := s.pwdRec z.role
      (s.lockedOut z.role = true → Does s i (fun _ => False) sec (fun t => refused t SC.locked {})) ∧
      (s.lockedOut z.role = false → y.iter = 0 → Does s i (fun _ => False) sec (fun t => refused t SC.nocred {})) ∧
      (s.lockedOut z.role = false → y.iter ≠ 0 →
        let good : Prop := s.now ≤ z.at_ + 10000000000 ∧ State.fMac f = State.macOf ks f ∧
          Config.pbkdf2 (xorOct b (Config.hmac ke [0#8] ++ Config.hmac ke [1#8])) y.salt y.iter = y.result
        (good → Does s i (· = stat) sec (fun t => opened t ks ke)) ∧
        (¬ good → Does s i (fun _ => False) sec (fun t => wrong t z.role)))) ∧
    (s.sessOpen = false → Idle s (.sessionCloseFrame carried) ∧ Idle s .sessionTimeout) ∧
    (s.sessOpen = true → z.flashed = false →
      (s.nextIn carried = some (f, true) → State.fOk f true = true →
        (State.fType f = 8 → Does s (.sessionCloseFrame carried) (· = stat) sec (fun t => closed t ∧ t.sec.frames = drop)) ∧
        ((State.fMac f ≠ State.macOf z.ks f ∨ State.fSeq f ≠ z.seqIn) → State.fType f = 6 → numAt f 16 1 = 0x01 →
          Does s (.cmdStatus carried) (· = stat) sec (fun t => closed t ∧ t.sec.sout = s.sec.sout ∧ t.sec.frames = drop))) ∧
      (z.last + 600000000000 < 2 ^ 64 → Does s .sessionTimeout (fun a => a = stat ∨ a = Reg.CGL_TIMENS) sec (fun t =>
        t.now = max s.now (z.last + 600000000000) ∧ closed t ∧ t.sec = { s.sec with sess := {} })) ∧
      (s.reqPart r = 0 → bitAt v 0 = true → Does s (.sctlClose r v) (· = stat) sec (fun t => closed t ∧ t.sec = { s.sec with sess := {} }))) ∧
    (¬ (s.reqPart r = 0 ∧ bitAt v 0 = true) → Idle s (.sctlClose r v)) ∧
    (s.reqPart r ≠ 0 → Idle s (.sinWrite r v)) ∧
    (s.reqPart r = 0 → Does s (.sinWrite r v) (fun _ => False) sec (fun t => t.sec = { s.sec with sin := s.sec.sin ++ octetsOf 8 v })) ∧
    Does s (.soutRead r) (fun _ => False) (fun t => { sec t with lastRead := t.lastRead }) (fun t =>
      t.lastRead = payOf (s.sec.sout.take 8) ∧ t.sec = { s.sec with sout := s.sec.sout.drop 8 })

/-- The commands of a session (R445, R447, R448, R479–R481): a command the role may not issue is answered ROLE and has no effect; the others have
the effect of Table 19-3 and are answered; PROVISION needs no session; and what an image leaves to be done follows. -/
def Obligations.SessionCommands : Prop :=
  ∀ (s : State) (carried b : List Octet), s.railUp = true →
    let role := s.sec.sess.role
    let otp := s.sec.otp
    let sec (t : State) : State := { s with sec := t.sec }
    let tells (i : Instr) (code : Octet) (data : List Octet) : Prop := Does s i (fun _ => False) sec (fun t =>
      Replied s t code data ∧ t.sec.sess.flashed = s.sec.sess.flashed ∧ t.sec = s.secAnswer t)
    let rows : List (Instr × Nat) := [(.cmdStatus carried, 0x01), (.cmdReadlog carried, 0x02), (.cmdTune carried, 0x10), (.cmdVerify carried, 0x11),
      (.cmdPreset carried, 0x12), (.cmdFlash carried, 0x18), (.cmdSetpwd carried, 0x20), (.cmdUnlock carried, 0x21), (.cmdOtpwrite carried, 0x30),
      (.cmdRevoke carried, 0x31), (.cmdProvlock carried, 0x32), (.cmdDebug carried, 0x38), (.cmdJtagoff carried, 0x39)]
    let takes (code : Nat) : Prop := Ordered s carried code b ∧ s.mayIssue code
    let fuse (i : Instr) (o : OtpSt) : Prop := Does s i (fun _ => False) sec (fun t => Replied s t SC.ok [] ∧ t.sec.sess.flashed = s.sec.sess.flashed ∧
      t.sec = { s.secAnswer t with otp := o })
    let fails (i : Instr) (e : LErr) : Prop := tells i SC.loader (octetsOf 2 (n64 e.code))
    (∀ e ∈ rows, (s.sessOpen = false → Idle s e.1) ∧ (Ordered s carried e.2 b → ¬ s.mayIssue e.2 → tells e.1 SC.role [])) ∧
    (takes 0x01 → tells (.cmdStatus carried) SC.ok (octetsOf 8 (s.ioR Reg.SYS_IDREV) ++ octetsOf 8 (s.ioR Reg.HRTH_HBOOT) ++
      octetsOf 8 (s.ioR Reg.HRTH_HRSTC) ++ octetsOf 8 (s.ioR Reg.SEC_SECSTAT) ++ octetsOf 8 s.otpstatRead)) ∧
    (takes 0x02 → Does s (.cmdReadlog carried) (fun _ => False) (fun t => { sec t with mem := t.mem }) (fun t =>
      Replied s t SC.ok ((List.range 1024).flatMap (fun i => octetsOf 8 (s.peekWord (0xF100000000 + i)).1.pay)) ∧
      t.sec.sess.flashed = s.sec.sess.flashed ∧ t.sec = s.secAnswer t ∧
      ∀ pa, Tab.get t.mem pa 0#80 = if 0xF100000000 ≤ pa ∧ pa < 0xF100000400 ∧ (s.peekWord pa).2 = .corrected then Ecc.encode (s.peekWord pa).1 else Tab.get s.mem pa 0#80)) ∧
    (takes 0x10 →
      (∀ e, s.checkTuning b = .error e → fails (.cmdTune carried) e) ∧
      (∀ secs, s.checkTuning b = .ok secs → Does s (.cmdTune carried) (fun _ => False) sec (fun t => Replied s t SC.ok [0#8, 0#8] ∧
        t.sec.sess.flashed = s.sec.sess.flashed ∧ t.sec = { s.secAnswer t with tune := t.sec.tune } ∧
        t.sec.tune = ([Image.tQUE, Image.tSENS, Image.tSTOK].flatMap (fun k => (Image.all secs k).map (fun x => (k, Image.fields x))))))) ∧
    (takes 0x11 →
      (∀ e, s.checkImage b s.preNetCode = .error e → fails (.cmdVerify carried) e) ∧
      (∀ g, s.checkImage b s.preNetCode = .ok g → tells (.cmdVerify carried) SC.ok [])) ∧
    (takes 0x12 →
      let p := numAt b 0 1
      let i : Instr := .cmdPreset carried
      let x := s.part p
      (b.length ≠ 1 ∨ p = 0 ∨ 15 < p ∨ x.defined = false → tells i SC.badmsg []) ∧
      (b.length = 1 → p ≠ 0 → p ≤ 15 → x.defined = true →
        (x.safety = true → role = 2 → tells i SC.role []) ∧
        (¬ (x.safety = true ∧ role = 2) → x.resetReq = false → x.resetting = false → (∀ c q d h, (s.core c).wait ≠ .qwait q d h) →
          Does s i (fun _ => False) (fun t => { sec t with cores := t.cores, parts := t.parts }) (fun t => Replied s t SC.ok [] ∧
            t.part p = { x with resetReq := true, resetAt := s.now } ∧ ∀ q, q ≠ p → t.part q = s.part q)))) ∧
    (takes 0x18 →
      let slot := numAt b 0 1
      let i : Instr := .cmdFlash carried
      (1 < slot → tells i SC.badmsg []) ∧
      (slot ≤ 1 →
        (∀ e, s.checkImage (b.drop 1) s.preNetCode = .error e → fails i e) ∧
        (∀ g, s.checkImage (b.drop 1) s.preNetCode = .ok g → Does s i (fun _ => False) (fun t => { sec t with flash := t.flash }) (fun t =>
          Replied s t SC.ok [] ∧ t.sec = s.secAnswer t ∧ t.sec.sess.flashed = true ∧ Tab.get t.flash slot [] = b.drop 1 ∧
          ∀ k, k ≠ slot → Tab.get t.flash k [] = Tab.get s.flash k [])))) ∧
    (takes 0x20 →
      let r := numAt b 0 1
      let iter := numAt b 1 4
      let i : Instr := .cmdSetpwd carried
      let legal : Prop := 6 ≤ b.length ∧ b.length ≤ 69 ∧ r ≤ 3 ∧ 1000 ≤ iter ∧ iter ≤ 100000
      let allowed : Prop := role = 0 ∨ (role = 1 ∧ 2 ≤ r) ∨ (role = 2 ∧ r = 2)
      (¬ legal → tells i SC.badmsg []) ∧ (legal → ¬ allowed → tells i SC.role []) ∧
      (legal → allowed →
        let salt := (List.range 16).map (fun i => (Config.random s.freeCtr).getD i 0#8)
        let pw := xorOct (b.drop 5) (keystream s.sec.sess.ke)
        Does s i (fun _ => False) (fun t => { sec t with freeCtr := t.freeCtr }) (fun t => Replied s t SC.ok [] ∧
          t.sec = { s.secAnswer t with pwds := t.sec.pwds } ∧ t.pwdRec r = { salt := salt, iter := iter, result := Config.pbkdf2 pw salt iter } ∧
          ∀ k, k ≠ r → t.pwdRec k = s.pwdRec k))) ∧
    (takes 0x21 →
      let r := numAt b 0 1
      (b.length ≠ 1 ∨ r = 0 ∨ 3 < r → tells (.cmdUnlock carried) SC.badmsg []) ∧
      (b.length = 1 → r ≠ 0 → r ≤ 3 → Does s (.cmdUnlock carried) (fun _ => False) sec (fun t => Replied s t SC.ok [] ∧
        t.sec = { s.secAnswer t with fails := t.sec.fails } ∧ ∀ k, Tab.get t.sec.fails k 0 = if k = r then 0 else Tab.get s.sec.fails k 0))) ∧
    (takes 0x30 →
      let k := numAt b 0 1
      let key := b.drop 1
      let i : Instr := .cmdOtpwrite carried
      let legal : Prop := k ≤ 8 ∧ key.length = (if k ≤ 4 then 64 else 32)
      let free : Prop := s.otpKey k = [] ∧ ¬ (k = 4 ∧ otp.provLock = true)
      (¬ legal → tells i SC.badmsg []) ∧ (legal → ¬ free → tells i SC.otp []) ∧
      (legal → free →
        (k < 4 → fuse i { otp with imgKey := Tab.set otp.imgKey k key [] }) ∧ (k = 4 → fuse i { otp with ucKey := key }) ∧
        (4 < k → fuse i { otp with rkey := Tab.set otp.rkey (k - 5) key [] }))) ∧
    (takes 0x31 →
      let k := numAt b 0 1
      let i : Instr := .cmdRevoke carried
      let legal : Prop := b.length = 1 ∧ k ≤ 8 ∧ k ≠ 4 ∧ k ≠ 5
      let gone : Prop := s.otpKey k = [] ∨ (if k < 4 then Tab.get otp.imgRev k false else Tab.get otp.rkeyRev (k - 5) false) = true
      let last : Prop := k < 4 ∧ ∀ j, j < 4 → j ≠ k → s.keyUsable j = false
      (¬ legal → tells i SC.badmsg []) ∧ (legal → gone → tells i SC.otp []) ∧ (legal → ¬ gone → last → tells i SC.last []) ∧
      (legal → ¬ gone → ¬ last →
        (k < 4 → fuse i { otp with imgRev := Tab.set otp.imgRev k true false }) ∧
        (4 < k → fuse i { otp with rkeyRev := Tab.set otp.rkeyRev (k - 5) true false }))) ∧
    (takes 0x32 → fuse (.cmdProvlock carried) { otp with provLock := true }) ∧
    (takes 0x38 → Does s (.cmdDebug carried) (· = Reg.SEC_SECSTAT) sec (fun t => Replied s t SC.ok [] ∧ t.sec = s.secAnswer t ∧
      t.ioR Reg.SEC_SECSTAT = setBit (s.ioR Reg.SEC_SECSTAT) 5 true)) ∧
    (takes 0x39 → fuse (.cmdJtagoff carried) { otp with jtagOff := true }) ∧
    (let i : Instr := .cmdProvision carried
     let plain (code : Octet) (o : OtpSt) : Prop := Does s i (fun _ => False) sec (fun t =>
       t.sec = { s.sec with otp := o, sout := s.sec.sout ++ State.plainFrame 0x07 [code] })
     (s.inRecovery = false ∨ s.sec.sess.phase ≠ .closed → Idle s i) ∧
     (s.inRecovery = true → s.sec.sess.phase = .closed → State.fOk carried false = true → State.fType carried = 6 → numAt carried 16 1 = 0x3F →
       let key := (State.fBody carried).drop 1
       ((State.fBody carried).length ≠ 33 → plain SC.badmsg otp) ∧
       ((State.fBody carried).length = 33 → Tab.get otp.rkey 1 [] ≠ [] → plain SC.otp otp) ∧
       ((State.fBody carried).length = 33 → Tab.get otp.rkey 1 [] = [] → plain SC.ok { otp with rkey := Tab.set otp.rkey 1 key [] }))) ∧
    (s.sec.tune = [] → Idle s .tuningApply) ∧
    (∀ e es, s.sec.tune = e :: es → ∃ t, exec .tuningApply s = .next t ∧ t.sec.tune = es) ∧
    (s.sec.advance = none → Idle s .antiRollbackAdvance) ∧
    (∀ a u, s.sec.advance = some (a, u) → Does s .antiRollbackAdvance (fun _ => False) sec (fun t =>
      t.sec = { s.sec with advance := none, otp := { otp with imgSvn := max otp.imgSvn a, ucSvn := max otp.ucSvn u } }))

/-! Debug access, reset and the rail. -/

/-- JTAG and trace (R493–R495, R517): without its rights an instruction acts as BYPASS; those that hold the chip reset it once; the boundary cells
are loaded; a debug access reads, writes or is refused; TRCCTL starts and empties the buffer, and TRCMARK records a word. -/
def Obligations.DebugPort : Prop :=
  ∀ (s : State) (r : Req) (v : W64) (c : CoreId),
    let hs (h : HearthSt) : State := { s with hs := h }
    let holds : List (Instr × JtagIr) := [(.jtagExtest, .extest), (.jtagClamp, .clamp), (.jtagHighz, .highz)]
    (s.powered = false → (∀ e ∈ holds, Idle s e.1) ∧ (∀ l, Idle s (.jtagSamplePreload l)) ∧ (∀ acc, Idle s (.jtagDbgacc acc)) ∧
      Idle s .jtagDbgrst ∧ Idle s .jtagBypass) ∧
    (s.powered = true →
      exec .jtagBypass s = .next (hs { s.hs with jtag := .bypass }) ∧
      (∀ l : List (Nat × Bool), Rising l → ∃ t, exec (.jtagSamplePreload l) s = .next t ∧ t = hs { s.hs with jtag := .sample, cells := t.hs.cells } ∧
        ∀ k, Tab.get t.hs.cells k false = true ↔ (k, true) ∈ l) ∧
      (s.jtagRights = false →
        (∀ e ∈ holds, exec e.1 s = .next (hs { s.hs with jtag := .bypass })) ∧ exec .jtagDbgrst s = .next (hs { s.hs with jtag := .bypass }) ∧
        ∀ acc, exec (.jtagDbgacc acc) s = .next (hs { s.hs with jtag := .bypass, dbgSt := 2 })) ∧
      (s.jtagRights = true →
        (∀ e ∈ holds, (s.jtagHolds = true → exec e.1 s = .next (hs { s.hs with jtag := e.2 })) ∧
          (s.jtagHolds = false → Rising s.io → Rising s.mem → Resets s e.1 8 0 none { s.hearthKept .boot with jtag := e.2 })) ∧
        (Rising s.io → Rising s.mem → Resets s .jtagDbgrst 8 0 none { s.hearthKept .boot with jtag := .bypass }) ∧
        ∀ (op : Fin 4) (pa : BitVec 40) (w : Word),
          let acc : BitVec 116 := BitVec.ofNat 116 (op.val + 4 * pa.toNat + 2 ^ 42 * w.tag.toNat + 2 ^ 50 * w.pay.toNat)
          let done (t : State) (st : Nat) (x : Word) : Prop := t.hs = { s.hs with jtag := .dbgacc, dbgSt := st, dbgWord := x }
          let view (t : State) : State := { s with hs := t.hs }
          (op.val = 0 → exec (.jtagDbgacc acc) s = .next (hs { s.hs with jtag := .dbgacc })) ∧
          (op.val ≠ 0 → State.jtagRefused s pa.toNat = true → Does s (.jtagDbgacc acc) (fun _ => False) view (fun t => done t 2 s.hs.dbgWord)) ∧
          (State.jtagRefused s pa.toNat = false →
            (∀ off x j, op.val = 2 → findBlk pa.toNat = some (.bSYS, 0, off) → findReg Blk.bSYS.regs off = some (x, j) →
              w.tag = Tag.fix ∨ w.tag = Tag.raww →
              Does s (.jtagDbgacc acc) (· = pa.toNat) view (fun t => done t 0 s.hs.dbgWord ∧
                t.ioR pa.toNat = ((s.ioR pa.toNat &&& ~~~x.rw) ||| (w.pay &&& x.rw)) &&& ~~~(w.pay &&& x.w1c))) ∧
            (op.val = 1 ∨ op.val = 3 → isIo pa.toNat = false → s.implemented pa.toNat = true → (s.peekWord pa.toNat).2 = .ok →
              DoesMem s (.jtagDbgacc acc) (fun _ => False) (fun _ => False) view (fun t => done t 0 (s.peekWord pa.toNat).1)) ∧
            (op.val ≠ 0 → (isIo pa.toNat = true → findBlk pa.toNat = none) → (isIo pa.toNat = false → s.implemented pa.toNat = false) →
              Does s (.jtagDbgacc acc) (fun _ => False) (fun t => { view t with freeCtr := t.freeCtr }) (fun t =>
                t.freeCtr = s.freeCtr + 1 ∧ t.hs = { s.hs with jtag := .dbgacc, dbgSt := 3, dbgWord := t.hs.dbgWord }))))) ∧
    (s.railUp = true → s.domOn 272 = true →
      let ctl := Reg.TRC_TRCCTL
      let stat := Reg.TRC_TRCSTAT
      let x := v &&& (fmask 31 26 ||| fmask 23 17 ||| fmask 2 0)
      (s.reqPart r ≠ 0 → Idle s (.trcctlWrite r v)) ∧
      (s.reqPart r = 0 →
        (bitAt v 0 = false → Does s (.trcctlWrite r v) (· = ctl) (fun _ => s) (fun t => t.ioR ctl = x)) ∧
        (bitAt v 0 = true → Does s (.trcctlWrite r v) (fun a => a = ctl ∨ a = stat) (fun _ => s) (fun t => t.ioR ctl = x ∧
          t.rf stat 45 32 = 0 ∧ t.rf stat 1 0 = 0 ∧ t.rb stat 2 = s.rb stat 2))) ∧
      ((∀ k, r ≠ .core k) → Idle s (.trcmarkWrite r v)) ∧
      (s.traced c.val 7 = false → Idle s (.trcmarkWrite (.core c) v)) ∧
      (s.traced c.val 7 = true →
        let n := s.rf stat 45 32
        let a := Reg.TRC_TRCBUF (2 * n)
        let b := Reg.TRC_TRCBUF (2 * n + 1)
        Does s (.trcmarkWrite (.core c) v) (fun q => q = a ∨ q = b ∨ q = stat ∨ q = ctl) (fun _ => s) (fun t =>
          t.ioR a = (putFld 63 60 7 ||| putFld 59 57 (s.cl c.val) ||| putFld 56 49 0 ||| putFld 47 0 s.now) ∧ t.ioR b = v ∧
          t.rf stat 45 32 = (n + 1) % 16384 ∧ (n ≠ 16383 → t.ioR ctl = s.ioR ctl) ∧
          (n = 16383 → t.rb stat 1 = true ∧ (t.rb ctl 0 = true ↔ s.rb ctl 1 = true)))))

/-- The state right after a power-on reset (R62, R425, R477): the queue is empty, every register holds the value of the register map, no word of memory is
listed, no core runs, the device boots, and every opening of a session waits one second; the machine is quiet there. The values of registers for which
the spec gives none are the model's choice (notes/assumptions/1.md). -/
def Obligations.ResetState : Prop :=
  State.reset.pending = [] ∧ (∀ a, State.reset.ioR a = regReset a) ∧ (∀ pa, State.reset.peekWord pa = (Word.void, .ok)) ∧
  State.reset.mem = [] ∧ State.reset.hs.dev = .boot ∧ State.reset.powered = true ∧
  (∀ c, (State.reset.core c).run = .off) ∧ (∀ c r, State.reset.reg c r = Word.void) ∧
  (∀ k, k < 4 → Tab.get State.reset.sec.fails k 0 = 5 ∧ State.reset.lockedOut k = true) ∧ Quiet State.reset

/-- While the core rail is down the machine stays quiet, whatever command comes next but one that brings the rail up; and every command but those of
Hearth and the JTAG port does nothing (R407, R413, R423). -/
def Obligations.RailDown : Prop :=
  (∀ s t : State, Quiet s → step s = .next t → Quiet t) ∧
  ∀ (s : State) (i : Instr), Quiet s → ¬ Hearthly i → Idle s i
end

