-- ==== Sys2Proof/Laws/State.lean ====
section
/-!
SUPPORT. What each update of the state leaves alone, field by field, and what it puts where: the lemmas by which a proof reads a field of an
updated state with no record update unfolded.
-/
namespace Sys2Proof.Machine

variable (s : State)

@[simp] theorem State.setCore_pending (c : Nat) (x : CoreSt) : (s.setCore c x).pending = s.pending := rfl
@[simp] theorem State.setCore_freeCtr (c : Nat) (x : CoreSt) : (s.setCore c x).freeCtr = s.freeCtr := rfl
@[simp] theorem State.setCore_lastRead (c : Nat) (x : CoreSt) : (s.setCore c x).lastRead = s.lastRead := rfl
@[simp] theorem State.setCore_mem (c : Nat) (x : CoreSt) : (s.setCore c x).mem = s.mem := rfl
@[simp] theorem State.setCore_l1d (c : Nat) (x : CoreSt) : (s.setCore c x).l1d = s.l1d := rfl
@[simp] theorem State.setCore_l2 (c : Nat) (x : CoreSt) : (s.setCore c x).l2 = s.l2 := rfl
@[simp] theorem State.setCore_l3 (c : Nat) (x : CoreSt) : (s.setCore c x).l3 = s.l3 := rfl
@[simp] theorem State.setCore_l1i (c : Nat) (x : CoreSt) : (s.setCore c x).l1i = s.l1i := rfl
@[simp] theorem State.setCore_tags (c : Nat) (x : CoreSt) : (s.setCore c x).tags = s.tags := rfl
@[simp] theorem State.setCore_modeTo (c : Nat) (x : CoreSt) : (s.setCore c x).modeTo = s.modeTo := rfl
@[simp] theorem State.setCore_vbuf (c : Nat) (x : CoreSt) : (s.setCore c x).vbuf = s.vbuf := rfl
@[simp] theorem State.setCore_shuf (c : Nat) (x : CoreSt) : (s.setCore c x).shuf = s.shuf := rfl
@[simp] theorem State.setCore_faultIn (c : Nat) (x : CoreSt) : (s.setCore c x).faultIn = s.faultIn := rfl
@[simp] theorem State.setCore_pulses (c : Nat) (x : CoreSt) : (s.setCore c x).pulses = s.pulses := rfl
@[simp] theorem State.setCore_fills (c : Nat) (x : CoreSt) : (s.setCore c x).fills = s.fills := rfl
@[simp] theorem State.setCore_io (c : Nat) (x : CoreSt) : (s.setCore c x).io = s.io := rfl
@[simp] theorem State.setCore_img (c : Nat) (x : CoreSt) : (s.setCore c x).img = s.img := rfl
@[simp] theorem State.setCore_parts (c : Nat) (x : CoreSt) : (s.setCore c x).parts = s.parts := rfl
@[simp] theorem State.setCore_ctags (c : Nat) (x : CoreSt) : (s.setCore c x).ctags = s.ctags := rfl
@[simp] theorem State.setCore_heaps (c : Nat) (x : CoreSt) : (s.setCore c x).heaps = s.heaps := rfl
@[simp] theorem State.setCore_sweep (c : Nat) (x : CoreSt) : (s.setCore c x).sweep = s.sweep := rfl
@[simp] theorem State.setCore_offers (c : Nat) (x : CoreSt) : (s.setCore c x).offers = s.offers := rfl
@[simp] theorem State.setCore_srcCount (c : Nat) (x : CoreSt) : (s.setCore c x).srcCount = s.srcCount := rfl
@[simp] theorem State.setCore_queues (c : Nat) (x : CoreSt) : (s.setCore c x).queues = s.queues := rfl
@[simp] theorem State.setCore_qcache (c : Nat) (x : CoreSt) : (s.setCore c x).qcache = s.qcache := rfl
@[simp] theorem State.setCore_timers (c : Nat) (x : CoreSt) : (s.setCore c x).timers = s.timers := rfl
@[simp] theorem State.setCore_lastTick (c : Nat) (x : CoreSt) : (s.setCore c x).lastTick = s.lastTick := rfl
@[simp] theorem State.setCore_fireLeft (c : Nat) (x : CoreSt) : (s.setCore c x).fireLeft = s.fireLeft := rfl
@[simp] theorem State.setCore_ash (c : Nat) (x : CoreSt) : (s.setCore c x).ash = s.ash := rfl
@[simp] theorem State.setCore_dma (c : Nat) (x : CoreSt) : (s.setCore c x).dma = s.dma := rfl
@[simp] theorem State.setCore_owners (c : Nat) (x : CoreSt) : (s.setCore c x).owners = s.owners := rfl
@[simp] theorem State.setCore_meld (c : Nat) (x : CoreSt) : (s.setCore c x).meld = s.meld := rfl
@[simp] theorem State.setCore_cg (c : Nat) (x : CoreSt) : (s.setCore c x).cg = s.cg := rfl
@[simp] theorem State.setCore_stk (c : Nat) (x : CoreSt) : (s.setCore c x).stk = s.stk := rfl
@[simp] theorem State.setCore_pers (c : Nat) (x : CoreSt) : (s.setCore c x).pers = s.pers := rfl
@[simp] theorem State.setCore_hs (c : Nat) (x : CoreSt) : (s.setCore c x).hs = s.hs := rfl
@[simp] theorem State.setCore_saf (c : Nat) (x : CoreSt) : (s.setCore c x).saf = s.saf := rfl
@[simp] theorem State.setCore_sec (c : Nat) (x : CoreSt) : (s.setCore c x).sec = s.sec := rfl
@[simp] theorem State.setCore_wcs (c : Nat) (x : CoreSt) : (s.setCore c x).wcs = s.wcs := rfl
@[simp] theorem State.setCore_ucBad (c : Nat) (x : CoreSt) : (s.setCore c x).ucBad = s.ucBad := rfl
@[simp] theorem State.setCore_flash (c : Nat) (x : CoreSt) : (s.setCore c x).flash = s.flash := rfl

@[simp] theorem State.modCore_pending (c : Nat) (f : CoreSt → CoreSt) : (s.modCore c f).pending = s.pending := rfl
@[simp] theorem State.modCore_freeCtr (c : Nat) (f : CoreSt → CoreSt) : (s.modCore c f).freeCtr = s.freeCtr := rfl
@[simp] theorem State.modCore_lastRead (c : Nat) (f : CoreSt → CoreSt) : (s.modCore c f).lastRead = s.lastRead := rfl
@[simp] theorem State.modCore_mem (c : Nat) (f : CoreSt → CoreSt) : (s.modCore c f).mem = s.mem := rfl
@[simp] theorem State.modCore_l1d (c : Nat) (f : CoreSt → CoreSt) : (s.modCore c f).l1d = s.l1d := rfl
@[simp] theorem State.modCore_l2 (c : Nat) (f : CoreSt → CoreSt) : (s.modCore c f).l2 = s.l2 := rfl
@[simp] theorem State.modCore_l3 (c : Nat) (f : CoreSt → CoreSt) : (s.modCore c f).l3 = s.l3 := rfl
@[simp] theorem State.modCore_l1i (c : Nat) (f : CoreSt → CoreSt) : (s.modCore c f).l1i = s.l1i := rfl
@[simp] theorem State.modCore_tags (c : Nat) (f : CoreSt → CoreSt) : (s.modCore c f).tags = s.tags := rfl
@[simp] theorem State.modCore_modeTo (c : Nat) (f : CoreSt → CoreSt) : (s.modCore c f).modeTo = s.modeTo := rfl
@[simp] theorem State.modCore_vbuf (c : Nat) (f : CoreSt → CoreSt) : (s.modCore c f).vbuf = s.vbuf := rfl
@[simp] theorem State.modCore_shuf (c : Nat) (f : CoreSt → CoreSt) : (s.modCore c f).shuf = s.shuf := rfl
@[simp] theorem State.modCore_faultIn (c : Nat) (f : CoreSt → CoreSt) : (s.modCore c f).faultIn = s.faultIn := rfl
@[simp] theorem State.modCore_pulses (c : Nat) (f : CoreSt → CoreSt) : (s.modCore c f).pulses = s.pulses := rfl
@[simp] theorem State.modCore_fills (c : Nat) (f : CoreSt → CoreSt) : (s.modCore c f).fills = s.fills := rfl
@[simp] theorem State.modCore_io (c : Nat) (f : CoreSt → CoreSt) : (s.modCore c f).io = s.io := rfl
@[simp] theorem State.modCore_img (c : Nat) (f : CoreSt → CoreSt) : (s.modCore c f).img = s.img := rfl
@[simp] theorem State.modCore_parts (c : Nat) (f : CoreSt → CoreSt) : (s.modCore c f).parts = s.parts := rfl
@[simp] theorem State.modCore_ctags (c : Nat) (f : CoreSt → CoreSt) : (s.modCore c f).ctags = s.ctags := rfl
@[simp] theorem State.modCore_heaps (c : Nat) (f : CoreSt → CoreSt) : (s.modCore c f).heaps = s.heaps := rfl
@[simp] theorem State.modCore_sweep (c : Nat) (f : CoreSt → CoreSt) : (s.modCore c f).sweep = s.sweep := rfl
@[simp] theorem State.modCore_offers (c : Nat) (f : CoreSt → CoreSt) : (s.modCore c f).offers = s.offers := rfl
@[simp] theorem State.modCore_srcCount (c : Nat) (f : CoreSt → CoreSt) : (s.modCore c f).srcCount = s.srcCount := rfl
@[simp] theorem State.modCore_queues (c : Nat) (f : CoreSt → CoreSt) : (s.modCore c f).queues = s.queues := rfl
@[simp] theorem State.modCore_qcache (c : Nat) (f : CoreSt → CoreSt) : (s.modCore c f).qcache = s.qcache := rfl
@[simp] theorem State.modCore_timers (c : Nat) (f : CoreSt → CoreSt) : (s.modCore c f).timers = s.timers := rfl
@[simp] theorem State.modCore_lastTick (c : Nat) (f : CoreSt → CoreSt) : (s.modCore c f).lastTick = s.lastTick := rfl
@[simp] theorem State.modCore_fireLeft (c : Nat) (f : CoreSt → CoreSt) : (s.modCore c f).fireLeft = s.fireLeft := rfl
@[simp] theorem State.modCore_ash (c : Nat) (f : CoreSt → CoreSt) : (s.modCore c f).ash = s.ash := rfl
@[simp] theorem State.modCore_dma (c : Nat) (f : CoreSt → CoreSt) : (s.modCore c f).dma = s.dma := rfl
@[simp] theorem State.modCore_owners (c : Nat) (f : CoreSt → CoreSt) : (s.modCore c f).owners = s.owners := rfl
@[simp] theorem State.modCore_meld (c : Nat) (f : CoreSt → CoreSt) : (s.modCore c f).meld = s.meld := rfl
@[simp] theorem State.modCore_cg (c : Nat) (f : CoreSt → CoreSt) : (s.modCore c f).cg = s.cg := rfl
@[simp] theorem State.modCore_stk (c : Nat) (f : CoreSt → CoreSt) : (s.modCore c f).stk = s.stk := rfl
@[simp] theorem State.modCore_pers (c : Nat) (f : CoreSt → CoreSt) : (s.modCore c f).pers = s.pers := rfl
@[simp] theorem State.modCore_hs (c : Nat) (f : CoreSt → CoreSt) : (s.modCore c f).hs = s.hs := rfl
@[simp] theorem State.modCore_saf (c : Nat) (f : CoreSt → CoreSt) : (s.modCore c f).saf = s.saf := rfl
@[simp] theorem State.modCore_sec (c : Nat) (f : CoreSt → CoreSt) : (s.modCore c f).sec = s.sec := rfl
@[simp] theorem State.modCore_wcs (c : Nat) (f : CoreSt → CoreSt) : (s.modCore c f).wcs = s.wcs := rfl
@[simp] theorem State.modCore_ucBad (c : Nat) (f : CoreSt → CoreSt) : (s.modCore c f).ucBad = s.ucBad := rfl
@[simp] theorem State.modCore_flash (c : Nat) (f : CoreSt → CoreSt) : (s.modCore c f).flash = s.flash := rfl

@[simp] theorem State.crW_pending (c k : Nat) (v : W64) : (s.crW c k v).pending = s.pending := rfl
@[simp] theorem State.crW_freeCtr (c k : Nat) (v : W64) : (s.crW c k v).freeCtr = s.freeCtr := rfl
@[simp] theorem State.crW_lastRead (c k : Nat) (v : W64) : (s.crW c k v).lastRead = s.lastRead := rfl
@[simp] theorem State.crW_mem (c k : Nat) (v : W64) : (s.crW c k v).mem = s.mem := rfl
@[simp] theorem State.crW_l1d (c k : Nat) (v : W64) : (s.crW c k v).l1d = s.l1d := rfl
@[simp] theorem State.crW_l2 (c k : Nat) (v : W64) : (s.crW c k v).l2 = s.l2 := rfl
@[simp] theorem State.crW_l3 (c k : Nat) (v : W64) : (s.crW c k v).l3 = s.l3 := rfl
@[simp] theorem State.crW_l1i (c k : Nat) (v : W64) : (s.crW c k v).l1i = s.l1i := rfl
@[simp] theorem State.crW_tags (c k : Nat) (v : W64) : (s.crW c k v).tags = s.tags := rfl
@[simp] theorem State.crW_modeTo (c k : Nat) (v : W64) : (s.crW c k v).modeTo = s.modeTo := rfl
@[simp] theorem State.crW_vbuf (c k : Nat) (v : W64) : (s.crW c k v).vbuf = s.vbuf := rfl
@[simp] theorem State.crW_shuf (c k : Nat) (v : W64) : (s.crW c k v).shuf = s.shuf := rfl
@[simp] theorem State.crW_faultIn (c k : Nat) (v : W64) : (s.crW c k v).faultIn = s.faultIn := rfl
@[simp] theorem State.crW_pulses (c k : Nat) (v : W64) : (s.crW c k v).pulses = s.pulses := rfl
@[simp] theorem State.crW_fills (c k : Nat) (v : W64) : (s.crW c k v).fills = s.fills := rfl
@[simp] theorem State.crW_io (c k : Nat) (v : W64) : (s.crW c k v).io = s.io := rfl
@[simp] theorem State.crW_img (c k : Nat) (v : W64) : (s.crW c k v).img = s.img := rfl
@[simp] theorem State.crW_parts (c k : Nat) (v : W64) : (s.crW c k v).parts = s.parts := rfl
@[simp] theorem State.crW_ctags (c k : Nat) (v : W64) : (s.crW c k v).ctags = s.ctags := rfl
@[simp] theorem State.crW_heaps (c k : Nat) (v : W64) : (s.crW c k v).heaps = s.heaps := rfl
@[simp] theorem State.crW_sweep (c k : Nat) (v : W64) : (s.crW c k v).sweep = s.sweep := rfl
@[simp] theorem State.crW_offers (c k : Nat) (v : W64) : (s.crW c k v).offers = s.offers := rfl
@[simp] theorem State.crW_srcCount (c k : Nat) (v : W64) : (s.crW c k v).srcCount = s.srcCount := rfl
@[simp] theorem State.crW_queues (c k : Nat) (v : W64) : (s.crW c k v).queues = s.queues := rfl
@[simp] theorem State.crW_qcache (c k : Nat) (v : W64) : (s.crW c k v).qcache = s.qcache := rfl
@[simp] theorem State.crW_timers (c k : Nat) (v : W64) : (s.crW c k v).timers = s.timers := rfl
@[simp] theorem State.crW_lastTick (c k : Nat) (v : W64) : (s.crW c k v).lastTick = s.lastTick := rfl
@[simp] theorem State.crW_fireLeft (c k : Nat) (v : W64) : (s.crW c k v).fireLeft = s.fireLeft := rfl
@[simp] theorem State.crW_ash (c k : Nat) (v : W64) : (s.crW c k v).ash = s.ash := rfl
@[simp] theorem State.crW_dma (c k : Nat) (v : W64) : (s.crW c k v).dma = s.dma := rfl
@[simp] theorem State.crW_owners (c k : Nat) (v : W64) : (s.crW c k v).owners = s.owners := rfl
@[simp] theorem State.crW_meld (c k : Nat) (v : W64) : (s.crW c k v).meld = s.meld := rfl
@[simp] theorem State.crW_cg (c k : Nat) (v : W64) : (s.crW c k v).cg = s.cg := rfl
@[simp] theorem State.crW_stk (c k : Nat) (v : W64) : (s.crW c k v).stk = s.stk := rfl
@[simp] theorem State.crW_pers (c k : Nat) (v : W64) : (s.crW c k v).pers = s.pers := rfl
@[simp] theorem State.crW_hs (c k : Nat) (v : W64) : (s.crW c k v).hs = s.hs := rfl
@[simp] theorem State.crW_saf (c k : Nat) (v : W64) : (s.crW c k v).saf = s.saf := rfl
@[simp] theorem State.crW_sec (c k : Nat) (v : W64) : (s.crW c k v).sec = s.sec := rfl
@[simp] theorem State.crW_wcs (c k : Nat) (v : W64) : (s.crW c k v).wcs = s.wcs := rfl
@[simp] theorem State.crW_ucBad (c k : Nat) (v : W64) : (s.crW c k v).ucBad = s.ucBad := rfl
@[simp] theorem State.crW_flash (c k : Nat) (v : W64) : (s.crW c k v).flash = s.flash := rfl

@[simp] theorem State.ioW_pending (a : Nat) (v : W64) : (s.ioW a v).pending = s.pending := rfl
@[simp] theorem State.ioW_freeCtr (a : Nat) (v : W64) : (s.ioW a v).freeCtr = s.freeCtr := rfl
@[simp] theorem State.ioW_lastRead (a : Nat) (v : W64) : (s.ioW a v).lastRead = s.lastRead := rfl
@[simp] theorem State.ioW_mem (a : Nat) (v : W64) : (s.ioW a v).mem = s.mem := rfl
@[simp] theorem State.ioW_l1d (a : Nat) (v : W64) : (s.ioW a v).l1d = s.l1d := rfl
@[simp] theorem State.ioW_l2 (a : Nat) (v : W64) : (s.ioW a v).l2 = s.l2 := rfl
@[simp] theorem State.ioW_l3 (a : Nat) (v : W64) : (s.ioW a v).l3 = s.l3 := rfl
@[simp] theorem State.ioW_l1i (a : Nat) (v : W64) : (s.ioW a v).l1i = s.l1i := rfl
@[simp] theorem State.ioW_tags (a : Nat) (v : W64) : (s.ioW a v).tags = s.tags := rfl
@[simp] theorem State.ioW_modeTo (a : Nat) (v : W64) : (s.ioW a v).modeTo = s.modeTo := rfl
@[simp] theorem State.ioW_vbuf (a : Nat) (v : W64) : (s.ioW a v).vbuf = s.vbuf := rfl
@[simp] theorem State.ioW_shuf (a : Nat) (v : W64) : (s.ioW a v).shuf = s.shuf := rfl
@[simp] theorem State.ioW_faultIn (a : Nat) (v : W64) : (s.ioW a v).faultIn = s.faultIn := rfl
@[simp] theorem State.ioW_pulses (a : Nat) (v : W64) : (s.ioW a v).pulses = s.pulses := rfl
@[simp] theorem State.ioW_fills (a : Nat) (v : W64) : (s.ioW a v).fills = s.fills := rfl
@[simp] theorem State.ioW_img (a : Nat) (v : W64) : (s.ioW a v).img = s.img := rfl
@[simp] theorem State.ioW_cores (a : Nat) (v : W64) : (s.ioW a v).cores = s.cores := rfl
@[simp] theorem State.ioW_parts (a : Nat) (v : W64) : (s.ioW a v).parts = s.parts := rfl
@[simp] theorem State.ioW_ctags (a : Nat) (v : W64) : (s.ioW a v).ctags = s.ctags := rfl
@[simp] theorem State.ioW_heaps (a : Nat) (v : W64) : (s.ioW a v).heaps = s.heaps := rfl
@[simp] theorem State.ioW_sweep (a : Nat) (v : W64) : (s.ioW a v).sweep = s.sweep := rfl
@[simp] theorem State.ioW_offers (a : Nat) (v : W64) : (s.ioW a v).offers = s.offers := rfl
@[simp] theorem State.ioW_srcCount (a : Nat) (v : W64) : (s.ioW a v).srcCount = s.srcCount := rfl
@[simp] theorem State.ioW_queues (a : Nat) (v : W64) : (s.ioW a v).queues = s.queues := rfl
@[simp] theorem State.ioW_qcache (a : Nat) (v : W64) : (s.ioW a v).qcache = s.qcache := rfl
@[simp] theorem State.ioW_timers (a : Nat) (v : W64) : (s.ioW a v).timers = s.timers := rfl
@[simp] theorem State.ioW_lastTick (a : Nat) (v : W64) : (s.ioW a v).lastTick = s.lastTick := rfl
@[simp] theorem State.ioW_fireLeft (a : Nat) (v : W64) : (s.ioW a v).fireLeft = s.fireLeft := rfl
@[simp] theorem State.ioW_ash (a : Nat) (v : W64) : (s.ioW a v).ash = s.ash := rfl
@[simp] theorem State.ioW_dma (a : Nat) (v : W64) : (s.ioW a v).dma = s.dma := rfl
@[simp] theorem State.ioW_owners (a : Nat) (v : W64) : (s.ioW a v).owners = s.owners := rfl
@[simp] theorem State.ioW_meld (a : Nat) (v : W64) : (s.ioW a v).meld = s.meld := rfl
@[simp] theorem State.ioW_cg (a : Nat) (v : W64) : (s.ioW a v).cg = s.cg := rfl
@[simp] theorem State.ioW_stk (a : Nat) (v : W64) : (s.ioW a v).stk = s.stk := rfl
@[simp] theorem State.ioW_pers (a : Nat) (v : W64) : (s.ioW a v).pers = s.pers := rfl
@[simp] theorem State.ioW_hs (a : Nat) (v : W64) : (s.ioW a v).hs = s.hs := rfl
@[simp] theorem State.ioW_saf (a : Nat) (v : W64) : (s.ioW a v).saf = s.saf := rfl
@[simp] theorem State.ioW_sec (a : Nat) (v : W64) : (s.ioW a v).sec = s.sec := rfl
@[simp] theorem State.ioW_wcs (a : Nat) (v : W64) : (s.ioW a v).wcs = s.wcs := rfl
@[simp] theorem State.ioW_ucBad (a : Nat) (v : W64) : (s.ioW a v).ucBad = s.ucBad := rfl
@[simp] theorem State.ioW_flash (a : Nat) (v : W64) : (s.ioW a v).flash = s.flash := rfl

@[simp] theorem State.modPart_pending (p : Nat) (f : PartSt → PartSt) : (s.modPart p f).pending = s.pending := rfl
@[simp] theorem State.modPart_freeCtr (p : Nat) (f : PartSt → PartSt) : (s.modPart p f).freeCtr = s.freeCtr := rfl
@[simp] theorem State.modPart_lastRead (p : Nat) (f : PartSt → PartSt) : (s.modPart p f).lastRead = s.lastRead := rfl
@[simp] theorem State.modPart_mem (p : Nat) (f : PartSt → PartSt) : (s.modPart p f).mem = s.mem := rfl
@[simp] theorem State.modPart_l1d (p : Nat) (f : PartSt → PartSt) : (s.modPart p f).l1d = s.l1d := rfl
@[simp] theorem State.modPart_l2 (p : Nat) (f : PartSt → PartSt) : (s.modPart p f).l2 = s.l2 := rfl
@[simp] theorem State.modPart_l3 (p : Nat) (f : PartSt → PartSt) : (s.modPart p f).l3 = s.l3 := rfl
@[simp] theorem State.modPart_l1i (p : Nat) (f : PartSt → PartSt) : (s.modPart p f).l1i = s.l1i := rfl
@[simp] theorem State.modPart_tags (p : Nat) (f : PartSt → PartSt) : (s.modPart p f).tags = s.tags := rfl
@[simp] theorem State.modPart_modeTo (p : Nat) (f : PartSt → PartSt) : (s.modPart p f).modeTo = s.modeTo := rfl
@[simp] theorem State.modPart_vbuf (p : Nat) (f : PartSt → PartSt) : (s.modPart p f).vbuf = s.vbuf := rfl
@[simp] theorem State.modPart_shuf (p : Nat) (f : PartSt → PartSt) : (s.modPart p f).shuf = s.shuf := rfl
@[simp] theorem State.modPart_faultIn (p : Nat) (f : PartSt → PartSt) : (s.modPart p f).faultIn = s.faultIn := rfl
@[simp] theorem State.modPart_pulses (p : Nat) (f : PartSt → PartSt) : (s.modPart p f).pulses = s.pulses := rfl
@[simp] theorem State.modPart_fills (p : Nat) (f : PartSt → PartSt) : (s.modPart p f).fills = s.fills := rfl
@[simp] theorem State.modPart_io (p : Nat) (f : PartSt → PartSt) : (s.modPart p f).io = s.io := rfl
@[simp] theorem State.modPart_img (p : Nat) (f : PartSt → PartSt) : (s.modPart p f).img = s.img := rfl
@[simp] theorem State.modPart_cores (p : Nat) (f : PartSt → PartSt) : (s.modPart p f).cores = s.cores := rfl
@[simp] theorem State.modPart_ctags (p : Nat) (f : PartSt → PartSt) : (s.modPart p f).ctags = s.ctags := rfl
@[simp] theorem State.modPart_heaps (p : Nat) (f : PartSt → PartSt) : (s.modPart p f).heaps = s.heaps := rfl
@[simp] theorem State.modPart_sweep (p : Nat) (f : PartSt → PartSt) : (s.modPart p f).sweep = s.sweep := rfl
@[simp] theorem State.modPart_offers (p : Nat) (f : PartSt → PartSt) : (s.modPart p f).offers = s.offers := rfl
@[simp] theorem State.modPart_srcCount (p : Nat) (f : PartSt → PartSt) : (s.modPart p f).srcCount = s.srcCount := rfl
@[simp] theorem State.modPart_queues (p : Nat) (f : PartSt → PartSt) : (s.modPart p f).queues = s.queues := rfl
@[simp] theorem State.modPart_qcache (p : Nat) (f : PartSt → PartSt) : (s.modPart p f).qcache = s.qcache := rfl
@[simp] theorem State.modPart_timers (p : Nat) (f : PartSt → PartSt) : (s.modPart p f).timers = s.timers := rfl
@[simp] theorem State.modPart_lastTick (p : Nat) (f : PartSt → PartSt) : (s.modPart p f).lastTick = s.lastTick := rfl
@[simp] theorem State.modPart_fireLeft (p : Nat) (f : PartSt → PartSt) : (s.modPart p f).fireLeft = s.fireLeft := rfl
@[simp] theorem State.modPart_ash (p : Nat) (f : PartSt → PartSt) : (s.modPart p f).ash = s.ash := rfl
@[simp] theorem State.modPart_dma (p : Nat) (f : PartSt → PartSt) : (s.modPart p f).dma = s.dma := rfl
@[simp] theorem State.modPart_owners (p : Nat) (f : PartSt → PartSt) : (s.modPart p f).owners = s.owners := rfl
@[simp] theorem State.modPart_meld (p : Nat) (f : PartSt → PartSt) : (s.modPart p f).meld = s.meld := rfl
@[simp] theorem State.modPart_cg (p : Nat) (f : PartSt → PartSt) : (s.modPart p f).cg = s.cg := rfl
@[simp] theorem State.modPart_stk (p : Nat) (f : PartSt → PartSt) : (s.modPart p f).stk = s.stk := rfl
@[simp] theorem State.modPart_pers (p : Nat) (f : PartSt → PartSt) : (s.modPart p f).pers = s.pers := rfl
@[simp] theorem State.modPart_hs (p : Nat) (f : PartSt → PartSt) : (s.modPart p f).hs = s.hs := rfl
@[simp] theorem State.modPart_saf (p : Nat) (f : PartSt → PartSt) : (s.modPart p f).saf = s.saf := rfl
@[simp] theorem State.modPart_sec (p : Nat) (f : PartSt → PartSt) : (s.modPart p f).sec = s.sec := rfl
@[simp] theorem State.modPart_wcs (p : Nat) (f : PartSt → PartSt) : (s.modPart p f).wcs = s.wcs := rfl
@[simp] theorem State.modPart_ucBad (p : Nat) (f : PartSt → PartSt) : (s.modPart p f).ucBad = s.ucBad := rfl
@[simp] theorem State.modPart_flash (p : Nat) (f : PartSt → PartSt) : (s.modPart p f).flash = s.flash := rfl

@[simp] theorem State.modHeap_pending (h : Nat) (f : HeapSt → HeapSt) : (s.modHeap h f).pending = s.pending := rfl
@[simp] theorem State.modHeap_freeCtr (h : Nat) (f : HeapSt → HeapSt) : (s.modHeap h f).freeCtr = s.freeCtr := rfl
@[simp] theorem State.modHeap_lastRead (h : Nat) (f : HeapSt → HeapSt) : (s.modHeap h f).lastRead = s.lastRead := rfl
@[simp] theorem State.modHeap_mem (h : Nat) (f : HeapSt → HeapSt) : (s.modHeap h f).mem = s.mem := rfl
@[simp] theorem State.modHeap_l1d (h : Nat) (f : HeapSt → HeapSt) : (s.modHeap h f).l1d = s.l1d := rfl
@[simp] theorem State.modHeap_l2 (h : Nat) (f : HeapSt → HeapSt) : (s.modHeap h f).l2 = s.l2 := rfl
@[simp] theorem State.modHeap_l3 (h : Nat) (f : HeapSt → HeapSt) : (s.modHeap h f).l3 = s.l3 := rfl
@[simp] theorem State.modHeap_l1i (h : Nat) (f : HeapSt → HeapSt) : (s.modHeap h f).l1i = s.l1i := rfl
@[simp] theorem State.modHeap_tags (h : Nat) (f : HeapSt → HeapSt) : (s.modHeap h f).tags = s.tags := rfl
@[simp] theorem State.modHeap_modeTo (h : Nat) (f : HeapSt → HeapSt) : (s.modHeap h f).modeTo = s.modeTo := rfl
@[simp] theorem State.modHeap_vbuf (h : Nat) (f : HeapSt → HeapSt) : (s.modHeap h f).vbuf = s.vbuf := rfl
@[simp] theorem State.modHeap_shuf (h : Nat) (f : HeapSt → HeapSt) : (s.modHeap h f).shuf = s.shuf := rfl
@[simp] theorem State.modHeap_faultIn (h : Nat) (f : HeapSt → HeapSt) : (s.modHeap h f).faultIn = s.faultIn := rfl
@[simp] theorem State.modHeap_pulses (h : Nat) (f : HeapSt → HeapSt) : (s.modHeap h f).pulses = s.pulses := rfl
@[simp] theorem State.modHeap_fills (h : Nat) (f : HeapSt → HeapSt) : (s.modHeap h f).fills = s.fills := rfl
@[simp] theorem State.modHeap_io (h : Nat) (f : HeapSt → HeapSt) : (s.modHeap h f).io = s.io := rfl
@[simp] theorem State.modHeap_img (h : Nat) (f : HeapSt → HeapSt) : (s.modHeap h f).img = s.img := rfl
@[simp] theorem State.modHeap_cores (h : Nat) (f : HeapSt → HeapSt) : (s.modHeap h f).cores = s.cores := rfl
@[simp] theorem State.modHeap_parts (h : Nat) (f : HeapSt → HeapSt) : (s.modHeap h f).parts = s.parts := rfl
@[simp] theorem State.modHeap_ctags (h : Nat) (f : HeapSt → HeapSt) : (s.modHeap h f).ctags = s.ctags := rfl
@[simp] theorem State.modHeap_sweep (h : Nat) (f : HeapSt → HeapSt) : (s.modHeap h f).sweep = s.sweep := rfl
@[simp] theorem State.modHeap_offers (h : Nat) (f : HeapSt → HeapSt) : (s.modHeap h f).offers = s.offers := rfl
@[simp] theorem State.modHeap_srcCount (h : Nat) (f : HeapSt → HeapSt) : (s.modHeap h f).srcCount = s.srcCount := rfl
@[simp] theorem State.modHeap_queues (h : Nat) (f : HeapSt → HeapSt) : (s.modHeap h f).queues = s.queues := rfl
@[simp] theorem State.modHeap_qcache (h : Nat) (f : HeapSt → HeapSt) : (s.modHeap h f).qcache = s.qcache := rfl
@[simp] theorem State.modHeap_timers (h : Nat) (f : HeapSt → HeapSt) : (s.modHeap h f).timers = s.timers := rfl
@[simp] theorem State.modHeap_lastTick (h : Nat) (f : HeapSt → HeapSt) : (s.modHeap h f).lastTick = s.lastTick := rfl
@[simp] theorem State.modHeap_fireLeft (h : Nat) (f : HeapSt → HeapSt) : (s.modHeap h f).fireLeft = s.fireLeft := rfl
@[simp] theorem State.modHeap_ash (h : Nat) (f : HeapSt → HeapSt) : (s.modHeap h f).ash = s.ash := rfl
@[simp] theorem State.modHeap_dma (h : Nat) (f : HeapSt → HeapSt) : (s.modHeap h f).dma = s.dma := rfl
@[simp] theorem State.modHeap_owners (h : Nat) (f : HeapSt → HeapSt) : (s.modHeap h f).owners = s.owners := rfl
@[simp] theorem State.modHeap_meld (h : Nat) (f : HeapSt → HeapSt) : (s.modHeap h f).meld = s.meld := rfl
@[simp] theorem State.modHeap_cg (h : Nat) (f : HeapSt → HeapSt) : (s.modHeap h f).cg = s.cg := rfl
@[simp] theorem State.modHeap_stk (h : Nat) (f : HeapSt → HeapSt) : (s.modHeap h f).stk = s.stk := rfl
@[simp] theorem State.modHeap_pers (h : Nat) (f : HeapSt → HeapSt) : (s.modHeap h f).pers = s.pers := rfl
@[simp] theorem State.modHeap_hs (h : Nat) (f : HeapSt → HeapSt) : (s.modHeap h f).hs = s.hs := rfl
@[simp] theorem State.modHeap_saf (h : Nat) (f : HeapSt → HeapSt) : (s.modHeap h f).saf = s.saf := rfl
@[simp] theorem State.modHeap_sec (h : Nat) (f : HeapSt → HeapSt) : (s.modHeap h f).sec = s.sec := rfl
@[simp] theorem State.modHeap_wcs (h : Nat) (f : HeapSt → HeapSt) : (s.modHeap h f).wcs = s.wcs := rfl
@[simp] theorem State.modHeap_ucBad (h : Nat) (f : HeapSt → HeapSt) : (s.modHeap h f).ucBad = s.ucBad := rfl
@[simp] theorem State.modHeap_flash (h : Nat) (f : HeapSt → HeapSt) : (s.modHeap h f).flash = s.flash := rfl

@[simp] theorem State.modQueue_pending (q : Nat) (f : QueueSt → QueueSt) : (s.modQueue q f).pending = s.pending := rfl
@[simp] theorem State.modQueue_freeCtr (q : Nat) (f : QueueSt → QueueSt) : (s.modQueue q f).freeCtr = s.freeCtr := rfl
@[simp] theorem State.modQueue_lastRead (q : Nat) (f : QueueSt → QueueSt) : (s.modQueue q f).lastRead = s.lastRead := rfl
@[simp] theorem State.modQueue_mem (q : Nat) (f : QueueSt → QueueSt) : (s.modQueue q f).mem = s.mem := rfl
@[simp] theorem State.modQueue_l1d (q : Nat) (f : QueueSt → QueueSt) : (s.modQueue q f).l1d = s.l1d := rfl
@[simp] theorem State.modQueue_l2 (q : Nat) (f : QueueSt → QueueSt) : (s.modQueue q f).l2 = s.l2 := rfl
@[simp] theorem State.modQueue_l3 (q : Nat) (f : QueueSt → QueueSt) : (s.modQueue q f).l3 = s.l3 := rfl
@[simp] theorem State.modQueue_l1i (q : Nat) (f : QueueSt → QueueSt) : (s.modQueue q f).l1i = s.l1i := rfl
@[simp] theorem State.modQueue_tags (q : Nat) (f : QueueSt → QueueSt) : (s.modQueue q f).tags = s.tags := rfl
@[simp] theorem State.modQueue_modeTo (q : Nat) (f : QueueSt → QueueSt) : (s.modQueue q f).modeTo = s.modeTo := rfl
@[simp] theorem State.modQueue_vbuf (q : Nat) (f : QueueSt → QueueSt) : (s.modQueue q f).vbuf = s.vbuf := rfl
@[simp] theorem State.modQueue_shuf (q : Nat) (f : QueueSt → QueueSt) : (s.modQueue q f).shuf = s.shuf := rfl
@[simp] theorem State.modQueue_faultIn (q : Nat) (f : QueueSt → QueueSt) : (s.modQueue q f).faultIn = s.faultIn := rfl
@[simp] theorem State.modQueue_pulses (q : Nat) (f : QueueSt → QueueSt) : (s.modQueue q f).pulses = s.pulses := rfl
@[simp] theorem State.modQueue_fills (q : Nat) (f : QueueSt → QueueSt) : (s.modQueue q f).fills = s.fills := rfl
@[simp] theorem State.modQueue_io (q : Nat) (f : QueueSt → QueueSt) : (s.modQueue q f).io = s.io := rfl
@[simp] theorem State.modQueue_img (q : Nat) (f : QueueSt → QueueSt) : (s.modQueue q f).img = s.img := rfl
@[simp] theorem State.modQueue_cores (q : Nat) (f : QueueSt → QueueSt) : (s.modQueue q f).cores = s.cores := rfl
@[simp] theorem State.modQueue_parts (q : Nat) (f : QueueSt → QueueSt) : (s.modQueue q f).parts = s.parts := rfl
@[simp] theorem State.modQueue_ctags (q : Nat) (f : QueueSt → QueueSt) : (s.modQueue q f).ctags = s.ctags := rfl
@[simp] theorem State.modQueue_heaps (q : Nat) (f : QueueSt → QueueSt) : (s.modQueue q f).heaps = s.heaps := rfl
@[simp] theorem State.modQueue_sweep (q : Nat) (f : QueueSt → QueueSt) : (s.modQueue q f).sweep = s.sweep := rfl
@[simp] theorem State.modQueue_offers (q : Nat) (f : QueueSt → QueueSt) : (s.modQueue q f).offers = s.offers := rfl
@[simp] theorem State.modQueue_srcCount (q : Nat) (f : QueueSt → QueueSt) : (s.modQueue q f).srcCount = s.srcCount := rfl
@[simp] theorem State.modQueue_qcache (q : Nat) (f : QueueSt → QueueSt) : (s.modQueue q f).qcache = s.qcache := rfl
@[simp] theorem State.modQueue_timers (q : Nat) (f : QueueSt → QueueSt) : (s.modQueue q f).timers = s.timers := rfl
@[simp] theorem State.modQueue_lastTick (q : Nat) (f : QueueSt → QueueSt) : (s.modQueue q f).lastTick = s.lastTick := rfl
@[simp] theorem State.modQueue_fireLeft (q : Nat) (f : QueueSt → QueueSt) : (s.modQueue q f).fireLeft = s.fireLeft := rfl
@[simp] theorem State.modQueue_ash (q : Nat) (f : QueueSt → QueueSt) : (s.modQueue q f).ash = s.ash := rfl
@[simp] theorem State.modQueue_dma (q : Nat) (f : QueueSt → QueueSt) : (s.modQueue q f).dma = s.dma := rfl
@[simp] theorem State.modQueue_owners (q : Nat) (f : QueueSt → QueueSt) : (s.modQueue q f).owners = s.owners := rfl
@[simp] theorem State.modQueue_meld (q : Nat) (f : QueueSt → QueueSt) : (s.modQueue q f).meld = s.meld := rfl
@[simp] theorem State.modQueue_cg (q : Nat) (f : QueueSt → QueueSt) : (s.modQueue q f).cg = s.cg := rfl
@[simp] theorem State.modQueue_stk (q : Nat) (f : QueueSt → QueueSt) : (s.modQueue q f).stk = s.stk := rfl
@[simp] theorem State.modQueue_pers (q : Nat) (f : QueueSt → QueueSt) : (s.modQueue q f).pers = s.pers := rfl
@[simp] theorem State.modQueue_hs (q : Nat) (f : QueueSt → QueueSt) : (s.modQueue q f).hs = s.hs := rfl
@[simp] theorem State.modQueue_saf (q : Nat) (f : QueueSt → QueueSt) : (s.modQueue q f).saf = s.saf := rfl
@[simp] theorem State.modQueue_sec (q : Nat) (f : QueueSt → QueueSt) : (s.modQueue q f).sec = s.sec := rfl
@[simp] theorem State.modQueue_wcs (q : Nat) (f : QueueSt → QueueSt) : (s.modQueue q f).wcs = s.wcs := rfl
@[simp] theorem State.modQueue_ucBad (q : Nat) (f : QueueSt → QueueSt) : (s.modQueue q f).ucBad = s.ucBad := rfl
@[simp] theorem State.modQueue_flash (q : Nat) (f : QueueSt → QueueSt) : (s.modQueue q f).flash = s.flash := rfl

@[simp] theorem State.setTimer_pending (t : Nat) (x : TimerSt) : (s.setTimer t x).pending = s.pending := rfl
@[simp] theorem State.setTimer_freeCtr (t : Nat) (x : TimerSt) : (s.setTimer t x).freeCtr = s.freeCtr := rfl
@[simp] theorem State.setTimer_lastRead (t : Nat) (x : TimerSt) : (s.setTimer t x).lastRead = s.lastRead := rfl
@[simp] theorem State.setTimer_mem (t : Nat) (x : TimerSt) : (s.setTimer t x).mem = s.mem := rfl
@[simp] theorem State.setTimer_l1d (t : Nat) (x : TimerSt) : (s.setTimer t x).l1d = s.l1d := rfl
@[simp] theorem State.setTimer_l2 (t : Nat) (x : TimerSt) : (s.setTimer t x).l2 = s.l2 := rfl
@[simp] theorem State.setTimer_l3 (t : Nat) (x : TimerSt) : (s.setTimer t x).l3 = s.l3 := rfl
@[simp] theorem State.setTimer_l1i (t : Nat) (x : TimerSt) : (s.setTimer t x).l1i = s.l1i := rfl
@[simp] theorem State.setTimer_tags (t : Nat) (x : TimerSt) : (s.setTimer t x).tags = s.tags := rfl
@[simp] theorem State.setTimer_modeTo (t : Nat) (x : TimerSt) : (s.setTimer t x).modeTo = s.modeTo := rfl
@[simp] theorem State.setTimer_vbuf (t : Nat) (x : TimerSt) : (s.setTimer t x).vbuf = s.vbuf := rfl
@[simp] theorem State.setTimer_shuf (t : Nat) (x : TimerSt) : (s.setTimer t x).shuf = s.shuf := rfl
@[simp] theorem State.setTimer_faultIn (t : Nat) (x : TimerSt) : (s.setTimer t x).faultIn = s.faultIn := rfl
@[simp] theorem State.setTimer_pulses (t : Nat) (x : TimerSt) : (s.setTimer t x).pulses = s.pulses := rfl
@[simp] theorem State.setTimer_fills (t : Nat) (x : TimerSt) : (s.setTimer t x).fills = s.fills := rfl
@[simp] theorem State.setTimer_io (t : Nat) (x : TimerSt) : (s.setTimer t x).io = s.io := rfl
@[simp] theorem State.setTimer_img (t : Nat) (x : TimerSt) : (s.setTimer t x).img = s.img := rfl
@[simp] theorem State.setTimer_cores (t : Nat) (x : TimerSt) : (s.setTimer t x).cores = s.cores := rfl
@[simp] theorem State.setTimer_parts (t : Nat) (x : TimerSt) : (s.setTimer t x).parts = s.parts := rfl
@[simp] theorem State.setTimer_ctags (t : Nat) (x : TimerSt) : (s.setTimer t x).ctags = s.ctags := rfl
@[simp] theorem State.setTimer_heaps (t : Nat) (x : TimerSt) : (s.setTimer t x).heaps = s.heaps := rfl
@[simp] theorem State.setTimer_sweep (t : Nat) (x : TimerSt) : (s.setTimer t x).sweep = s.sweep := rfl
@[simp] theorem State.setTimer_offers (t : Nat) (x : TimerSt) : (s.setTimer t x).offers = s.offers := rfl
@[simp] theorem State.setTimer_srcCount (t : Nat) (x : TimerSt) : (s.setTimer t x).srcCount = s.srcCount := rfl
@[simp] theorem State.setTimer_queues (t : Nat) (x : TimerSt) : (s.setTimer t x).queues = s.queues := rfl
@[simp] theorem State.setTimer_qcache (t : Nat) (x : TimerSt) : (s.setTimer t x).qcache = s.qcache := rfl
@[simp] theorem State.setTimer_lastTick (t : Nat) (x : TimerSt) : (s.setTimer t x).lastTick = s.lastTick := rfl
@[simp] theorem State.setTimer_fireLeft (t : Nat) (x : TimerSt) : (s.setTimer t x).fireLeft = s.fireLeft := rfl
@[simp] theorem State.setTimer_ash (t : Nat) (x : TimerSt) : (s.setTimer t x).ash = s.ash := rfl
@[simp] theorem State.setTimer_dma (t : Nat) (x : TimerSt) : (s.setTimer t x).dma = s.dma := rfl
@[simp] theorem State.setTimer_owners (t : Nat) (x : TimerSt) : (s.setTimer t x).owners = s.owners := rfl
@[simp] theorem State.setTimer_meld (t : Nat) (x : TimerSt) : (s.setTimer t x).meld = s.meld := rfl
@[simp] theorem State.setTimer_cg (t : Nat) (x : TimerSt) : (s.setTimer t x).cg = s.cg := rfl
@[simp] theorem State.setTimer_stk (t : Nat) (x : TimerSt) : (s.setTimer t x).stk = s.stk := rfl
@[simp] theorem State.setTimer_pers (t : Nat) (x : TimerSt) : (s.setTimer t x).pers = s.pers := rfl
@[simp] theorem State.setTimer_hs (t : Nat) (x : TimerSt) : (s.setTimer t x).hs = s.hs := rfl
@[simp] theorem State.setTimer_saf (t : Nat) (x : TimerSt) : (s.setTimer t x).saf = s.saf := rfl
@[simp] theorem State.setTimer_sec (t : Nat) (x : TimerSt) : (s.setTimer t x).sec = s.sec := rfl
@[simp] theorem State.setTimer_wcs (t : Nat) (x : TimerSt) : (s.setTimer t x).wcs = s.wcs := rfl
@[simp] theorem State.setTimer_ucBad (t : Nat) (x : TimerSt) : (s.setTimer t x).ucBad = s.ucBad := rfl
@[simp] theorem State.setTimer_flash (t : Nat) (x : TimerSt) : (s.setTimer t x).flash = s.flash := rfl

@[simp] theorem State.modDma_pending (k : Nat) (f : DmaSt → DmaSt) : (s.modDma k f).pending = s.pending := rfl
@[simp] theorem State.modDma_freeCtr (k : Nat) (f : DmaSt → DmaSt) : (s.modDma k f).freeCtr = s.freeCtr := rfl
@[simp] theorem State.modDma_lastRead (k : Nat) (f : DmaSt → DmaSt) : (s.modDma k f).lastRead = s.lastRead := rfl
@[simp] theorem State.modDma_mem (k : Nat) (f : DmaSt → DmaSt) : (s.modDma k f).mem = s.mem := rfl
@[simp] theorem State.modDma_l1d (k : Nat) (f : DmaSt → DmaSt) : (s.modDma k f).l1d = s.l1d := rfl
@[simp] theorem State.modDma_l2 (k : Nat) (f : DmaSt → DmaSt) : (s.modDma k f).l2 = s.l2 := rfl
@[simp] theorem State.modDma_l3 (k : Nat) (f : DmaSt → DmaSt) : (s.modDma k f).l3 = s.l3 := rfl
@[simp] theorem State.modDma_l1i (k : Nat) (f : DmaSt → DmaSt) : (s.modDma k f).l1i = s.l1i := rfl
@[simp] theorem State.modDma_tags (k : Nat) (f : DmaSt → DmaSt) : (s.modDma k f).tags = s.tags := rfl
@[simp] theorem State.modDma_modeTo (k : Nat) (f : DmaSt → DmaSt) : (s.modDma k f).modeTo = s.modeTo := rfl
@[simp] theorem State.modDma_vbuf (k : Nat) (f : DmaSt → DmaSt) : (s.modDma k f).vbuf = s.vbuf := rfl
@[simp] theorem State.modDma_shuf (k : Nat) (f : DmaSt → DmaSt) : (s.modDma k f).shuf = s.shuf := rfl
@[simp] theorem State.modDma_faultIn (k : Nat) (f : DmaSt → DmaSt) : (s.modDma k f).faultIn = s.faultIn := rfl
@[simp] theorem State.modDma_pulses (k : Nat) (f : DmaSt → DmaSt) : (s.modDma k f).pulses = s.pulses := rfl
@[simp] theorem State.modDma_fills (k : Nat) (f : DmaSt → DmaSt) : (s.modDma k f).fills = s.fills := rfl
@[simp] theorem State.modDma_io (k : Nat) (f : DmaSt → DmaSt) : (s.modDma k f).io = s.io := rfl
@[simp] theorem State.modDma_img (k : Nat) (f : DmaSt → DmaSt) : (s.modDma k f).img = s.img := rfl
@[simp] theorem State.modDma_cores (k : Nat) (f : DmaSt → DmaSt) : (s.modDma k f).cores = s.cores := rfl
@[simp] theorem State.modDma_parts (k : Nat) (f : DmaSt → DmaSt) : (s.modDma k f).parts = s.parts := rfl
@[simp] theorem State.modDma_ctags (k : Nat) (f : DmaSt → DmaSt) : (s.modDma k f).ctags = s.ctags := rfl
@[simp] theorem State.modDma_heaps (k : Nat) (f : DmaSt → DmaSt) : (s.modDma k f).heaps = s.heaps := rfl
@[simp] theorem State.modDma_sweep (k : Nat) (f : DmaSt → DmaSt) : (s.modDma k f).sweep = s.sweep := rfl
@[simp] theorem State.modDma_offers (k : Nat) (f : DmaSt → DmaSt) : (s.modDma k f).offers = s.offers := rfl
@[simp] theorem State.modDma_srcCount (k : Nat) (f : DmaSt → DmaSt) : (s.modDma k f).srcCount = s.srcCount := rfl
@[simp] theorem State.modDma_queues (k : Nat) (f : DmaSt → DmaSt) : (s.modDma k f).queues = s.queues := rfl
@[simp] theorem State.modDma_qcache (k : Nat) (f : DmaSt → DmaSt) : (s.modDma k f).qcache = s.qcache := rfl
@[simp] theorem State.modDma_timers (k : Nat) (f : DmaSt → DmaSt) : (s.modDma k f).timers = s.timers := rfl
@[simp] theorem State.modDma_lastTick (k : Nat) (f : DmaSt → DmaSt) : (s.modDma k f).lastTick = s.lastTick := rfl
@[simp] theorem State.modDma_fireLeft (k : Nat) (f : DmaSt → DmaSt) : (s.modDma k f).fireLeft = s.fireLeft := rfl
@[simp] theorem State.modDma_ash (k : Nat) (f : DmaSt → DmaSt) : (s.modDma k f).ash = s.ash := rfl
@[simp] theorem State.modDma_owners (k : Nat) (f : DmaSt → DmaSt) : (s.modDma k f).owners = s.owners := rfl
@[simp] theorem State.modDma_meld (k : Nat) (f : DmaSt → DmaSt) : (s.modDma k f).meld = s.meld := rfl
@[simp] theorem State.modDma_cg (k : Nat) (f : DmaSt → DmaSt) : (s.modDma k f).cg = s.cg := rfl
@[simp] theorem State.modDma_stk (k : Nat) (f : DmaSt → DmaSt) : (s.modDma k f).stk = s.stk := rfl
@[simp] theorem State.modDma_pers (k : Nat) (f : DmaSt → DmaSt) : (s.modDma k f).pers = s.pers := rfl
@[simp] theorem State.modDma_hs (k : Nat) (f : DmaSt → DmaSt) : (s.modDma k f).hs = s.hs := rfl
@[simp] theorem State.modDma_saf (k : Nat) (f : DmaSt → DmaSt) : (s.modDma k f).saf = s.saf := rfl
@[simp] theorem State.modDma_sec (k : Nat) (f : DmaSt → DmaSt) : (s.modDma k f).sec = s.sec := rfl
@[simp] theorem State.modDma_wcs (k : Nat) (f : DmaSt → DmaSt) : (s.modDma k f).wcs = s.wcs := rfl
@[simp] theorem State.modDma_ucBad (k : Nat) (f : DmaSt → DmaSt) : (s.modDma k f).ucBad = s.ucBad := rfl
@[simp] theorem State.modDma_flash (k : Nat) (f : DmaSt → DmaSt) : (s.modDma k f).flash = s.flash := rfl

@[simp] theorem State.modNet_pending (n : Nat) (f : MeldNet → MeldNet) : (s.modNet n f).pending = s.pending := rfl
@[simp] theorem State.modNet_freeCtr (n : Nat) (f : MeldNet → MeldNet) : (s.modNet n f).freeCtr = s.freeCtr := rfl
@[simp] theorem State.modNet_lastRead (n : Nat) (f : MeldNet → MeldNet) : (s.modNet n f).lastRead = s.lastRead := rfl
@[simp] theorem State.modNet_mem (n : Nat) (f : MeldNet → MeldNet) : (s.modNet n f).mem = s.mem := rfl
@[simp] theorem State.modNet_l1d (n : Nat) (f : MeldNet → MeldNet) : (s.modNet n f).l1d = s.l1d := rfl
@[simp] theorem State.modNet_l2 (n : Nat) (f : MeldNet → MeldNet) : (s.modNet n f).l2 = s.l2 := rfl
@[simp] theorem State.modNet_l3 (n : Nat) (f : MeldNet → MeldNet) : (s.modNet n f).l3 = s.l3 := rfl
@[simp] theorem State.modNet_l1i (n : Nat) (f : MeldNet → MeldNet) : (s.modNet n f).l1i = s.l1i := rfl
@[simp] theorem State.modNet_tags (n : Nat) (f : MeldNet → MeldNet) : (s.modNet n f).tags = s.tags := rfl
@[simp] theorem State.modNet_modeTo (n : Nat) (f : MeldNet → MeldNet) : (s.modNet n f).modeTo = s.modeTo := rfl
@[simp] theorem State.modNet_vbuf (n : Nat) (f : MeldNet → MeldNet) : (s.modNet n f).vbuf = s.vbuf := rfl
@[simp] theorem State.modNet_shuf (n : Nat) (f : MeldNet → MeldNet) : (s.modNet n f).shuf = s.shuf := rfl
@[simp] theorem State.modNet_faultIn (n : Nat) (f : MeldNet → MeldNet) : (s.modNet n f).faultIn = s.faultIn := rfl
@[simp] theorem State.modNet_pulses (n : Nat) (f : MeldNet → MeldNet) : (s.modNet n f).pulses = s.pulses := rfl
@[simp] theorem State.modNet_fills (n : Nat) (f : MeldNet → MeldNet) : (s.modNet n f).fills = s.fills := rfl
@[simp] theorem State.modNet_io (n : Nat) (f : MeldNet → MeldNet) : (s.modNet n f).io = s.io := rfl
@[simp] theorem State.modNet_img (n : Nat) (f : MeldNet → MeldNet) : (s.modNet n f).img = s.img := rfl
@[simp] theorem State.modNet_cores (n : Nat) (f : MeldNet → MeldNet) : (s.modNet n f).cores = s.cores := rfl
@[simp] theorem State.modNet_parts (n : Nat) (f : MeldNet → MeldNet) : (s.modNet n f).parts = s.parts := rfl
@[simp] theorem State.modNet_ctags (n : Nat) (f : MeldNet → MeldNet) : (s.modNet n f).ctags = s.ctags := rfl
@[simp] theorem State.modNet_heaps (n : Nat) (f : MeldNet → MeldNet) : (s.modNet n f).heaps = s.heaps := rfl
@[simp] theorem State.modNet_sweep (n : Nat) (f : MeldNet → MeldNet) : (s.modNet n f).sweep = s.sweep := rfl
@[simp] theorem State.modNet_offers (n : Nat) (f : MeldNet → MeldNet) : (s.modNet n f).offers = s.offers := rfl
@[simp] theorem State.modNet_srcCount (n : Nat) (f : MeldNet → MeldNet) : (s.modNet n f).srcCount = s.srcCount := rfl
@[simp] theorem State.modNet_queues (n : Nat) (f : MeldNet → MeldNet) : (s.modNet n f).queues = s.queues := rfl
@[simp] theorem State.modNet_qcache (n : Nat) (f : MeldNet → MeldNet) : (s.modNet n f).qcache = s.qcache := rfl
@[simp] theorem State.modNet_timers (n : Nat) (f : MeldNet → MeldNet) : (s.modNet n f).timers = s.timers := rfl
@[simp] theorem State.modNet_lastTick (n : Nat) (f : MeldNet → MeldNet) : (s.modNet n f).lastTick = s.lastTick := rfl
@[simp] theorem State.modNet_fireLeft (n : Nat) (f : MeldNet → MeldNet) : (s.modNet n f).fireLeft = s.fireLeft := rfl
@[simp] theorem State.modNet_ash (n : Nat) (f : MeldNet → MeldNet) : (s.modNet n f).ash = s.ash := rfl
@[simp] theorem State.modNet_dma (n : Nat) (f : MeldNet → MeldNet) : (s.modNet n f).dma = s.dma := rfl
@[simp] theorem State.modNet_owners (n : Nat) (f : MeldNet → MeldNet) : (s.modNet n f).owners = s.owners := rfl
@[simp] theorem State.modNet_cg (n : Nat) (f : MeldNet → MeldNet) : (s.modNet n f).cg = s.cg := rfl
@[simp] theorem State.modNet_stk (n : Nat) (f : MeldNet → MeldNet) : (s.modNet n f).stk = s.stk := rfl
@[simp] theorem State.modNet_pers (n : Nat) (f : MeldNet → MeldNet) : (s.modNet n f).pers = s.pers := rfl
@[simp] theorem State.modNet_hs (n : Nat) (f : MeldNet → MeldNet) : (s.modNet n f).hs = s.hs := rfl
@[simp] theorem State.modNet_saf (n : Nat) (f : MeldNet → MeldNet) : (s.modNet n f).saf = s.saf := rfl
@[simp] theorem State.modNet_sec (n : Nat) (f : MeldNet → MeldNet) : (s.modNet n f).sec = s.sec := rfl
@[simp] theorem State.modNet_wcs (n : Nat) (f : MeldNet → MeldNet) : (s.modNet n f).wcs = s.wcs := rfl
@[simp] theorem State.modNet_ucBad (n : Nat) (f : MeldNet → MeldNet) : (s.modNet n f).ucBad = s.ucBad := rfl
@[simp] theorem State.modNet_flash (n : Nat) (f : MeldNet → MeldNet) : (s.modNet n f).flash = s.flash := rfl

@[simp] theorem State.setOwner_pending (r : Res) (i p : Nat) : (s.setOwner r i p).pending = s.pending := rfl
@[simp] theorem State.setOwner_freeCtr (r : Res) (i p : Nat) : (s.setOwner r i p).freeCtr = s.freeCtr := rfl
@[simp] theorem State.setOwner_lastRead (r : Res) (i p : Nat) : (s.setOwner r i p).lastRead = s.lastRead := rfl
@[simp] theorem State.setOwner_mem (r : Res) (i p : Nat) : (s.setOwner r i p).mem = s.mem := rfl
@[simp] theorem State.setOwner_l1d (r : Res) (i p : Nat) : (s.setOwner r i p).l1d = s.l1d := rfl
@[simp] theorem State.setOwner_l2 (r : Res) (i p : Nat) : (s.setOwner r i p).l2 = s.l2 := rfl
@[simp] theorem State.setOwner_l3 (r : Res) (i p : Nat) : (s.setOwner r i p).l3 = s.l3 := rfl
@[simp] theorem State.setOwner_l1i (r : Res) (i p : Nat) : (s.setOwner r i p).l1i = s.l1i := rfl
@[simp] theorem State.setOwner_tags (r : Res) (i p : Nat) : (s.setOwner r i p).tags = s.tags := rfl
@[simp] theorem State.setOwner_modeTo (r : Res) (i p : Nat) : (s.setOwner r i p).modeTo = s.modeTo := rfl
@[simp] theorem State.setOwner_vbuf (r : Res) (i p : Nat) : (s.setOwner r i p).vbuf = s.vbuf := rfl
@[simp] theorem State.setOwner_shuf (r : Res) (i p : Nat) : (s.setOwner r i p).shuf = s.shuf := rfl
@[simp] theorem State.setOwner_faultIn (r : Res) (i p : Nat) : (s.setOwner r i p).faultIn = s.faultIn := rfl
@[simp] theorem State.setOwner_pulses (r : Res) (i p : Nat) : (s.setOwner r i p).pulses = s.pulses := rfl
@[simp] theorem State.setOwner_fills (r : Res) (i p : Nat) : (s.setOwner r i p).fills = s.fills := rfl
@[simp] theorem State.setOwner_io (r : Res) (i p : Nat) : (s.setOwner r i p).io = s.io := rfl
@[simp] theorem State.setOwner_img (r : Res) (i p : Nat) : (s.setOwner r i p).img = s.img := rfl
@[simp] theorem State.setOwner_cores (r : Res) (i p : Nat) : (s.setOwner r i p).cores = s.cores := rfl
@[simp] theorem State.setOwner_parts (r : Res) (i p : Nat) : (s.setOwner r i p).parts = s.parts := rfl
@[simp] theorem State.setOwner_ctags (r : Res) (i p : Nat) : (s.setOwner r i p).ctags = s.ctags := rfl
@[simp] theorem State.setOwner_heaps (r : Res) (i p : Nat) : (s.setOwner r i p).heaps = s.heaps := rfl
@[simp] theorem State.setOwner_sweep (r : Res) (i p : Nat) : (s.setOwner r i p).sweep = s.sweep := rfl
@[simp] theorem State.setOwner_offers (r : Res) (i p : Nat) : (s.setOwner r i p).offers = s.offers := rfl
@[simp] theorem State.setOwner_srcCount (r : Res) (i p : Nat) : (s.setOwner r i p).srcCount = s.srcCount := rfl
@[simp] theorem State.setOwner_queues (r : Res) (i p : Nat) : (s.setOwner r i p).queues = s.queues := rfl
@[simp] theorem State.setOwner_qcache (r : Res) (i p : Nat) : (s.setOwner r i p).qcache = s.qcache := rfl
@[simp] theorem State.setOwner_timers (r : Res) (i p : Nat) : (s.setOwner r i p).timers = s.timers := rfl
@[simp] theorem State.setOwner_lastTick (r : Res) (i p : Nat) : (s.setOwner r i p).lastTick = s.lastTick := rfl
@[simp] theorem State.setOwner_fireLeft (r : Res) (i p : Nat) : (s.setOwner r i p).fireLeft = s.fireLeft := rfl
@[simp] theorem State.setOwner_ash (r : Res) (i p : Nat) : (s.setOwner r i p).ash = s.ash := rfl
@[simp] theorem State.setOwner_dma (r : Res) (i p : Nat) : (s.setOwner r i p).dma = s.dma := rfl
@[simp] theorem State.setOwner_meld (r : Res) (i p : Nat) : (s.setOwner r i p).meld = s.meld := rfl
@[simp] theorem State.setOwner_cg (r : Res) (i p : Nat) : (s.setOwner r i p).cg = s.cg := rfl
@[simp] theorem State.setOwner_stk (r : Res) (i p : Nat) : (s.setOwner r i p).stk = s.stk := rfl
@[simp] theorem State.setOwner_pers (r : Res) (i p : Nat) : (s.setOwner r i p).pers = s.pers := rfl
@[simp] theorem State.setOwner_hs (r : Res) (i p : Nat) : (s.setOwner r i p).hs = s.hs := rfl
@[simp] theorem State.setOwner_saf (r : Res) (i p : Nat) : (s.setOwner r i p).saf = s.saf := rfl
@[simp] theorem State.setOwner_sec (r : Res) (i p : Nat) : (s.setOwner r i p).sec = s.sec := rfl
@[simp] theorem State.setOwner_wcs (r : Res) (i p : Nat) : (s.setOwner r i p).wcs = s.wcs := rfl
@[simp] theorem State.setOwner_ucBad (r : Res) (i p : Nat) : (s.setOwner r i p).ucBad = s.ucBad := rfl
@[simp] theorem State.setOwner_flash (r : Res) (i p : Nat) : (s.setOwner r i p).flash = s.flash := rfl

@[simp] theorem State.pulse_pending (k : Nat) : (s.pulse k).pending = s.pending := rfl
@[simp] theorem State.pulse_freeCtr (k : Nat) : (s.pulse k).freeCtr = s.freeCtr := rfl
@[simp] theorem State.pulse_lastRead (k : Nat) : (s.pulse k).lastRead = s.lastRead := rfl
@[simp] theorem State.pulse_mem (k : Nat) : (s.pulse k).mem = s.mem := rfl
@[simp] theorem State.pulse_l1d (k : Nat) : (s.pulse k).l1d = s.l1d := rfl
@[simp] theorem State.pulse_l2 (k : Nat) : (s.pulse k).l2 = s.l2 := rfl
@[simp] theorem State.pulse_l3 (k : Nat) : (s.pulse k).l3 = s.l3 := rfl
@[simp] theorem State.pulse_l1i (k : Nat) : (s.pulse k).l1i = s.l1i := rfl
@[simp] theorem State.pulse_tags (k : Nat) : (s.pulse k).tags = s.tags := rfl
@[simp] theorem State.pulse_modeTo (k : Nat) : (s.pulse k).modeTo = s.modeTo := rfl
@[simp] theorem State.pulse_vbuf (k : Nat) : (s.pulse k).vbuf = s.vbuf := rfl
@[simp] theorem State.pulse_shuf (k : Nat) : (s.pulse k).shuf = s.shuf := rfl
@[simp] theorem State.pulse_faultIn (k : Nat) : (s.pulse k).faultIn = s.faultIn := rfl
@[simp] theorem State.pulse_fills (k : Nat) : (s.pulse k).fills = s.fills := rfl
@[simp] theorem State.pulse_io (k : Nat) : (s.pulse k).io = s.io := rfl
@[simp] theorem State.pulse_img (k : Nat) : (s.pulse k).img = s.img := rfl
@[simp] theorem State.pulse_cores (k : Nat) : (s.pulse k).cores = s.cores := rfl
@[simp] theorem State.pulse_parts (k : Nat) : (s.pulse k).parts = s.parts := rfl
@[simp] theorem State.pulse_ctags (k : Nat) : (s.pulse k).ctags = s.ctags := rfl
@[simp] theorem State.pulse_heaps (k : Nat) : (s.pulse k).heaps = s.heaps := rfl
@[simp] theorem State.pulse_sweep (k : Nat) : (s.pulse k).sweep = s.sweep := rfl
@[simp] theorem State.pulse_offers (k : Nat) : (s.pulse k).offers = s.offers := rfl
@[simp] theorem State.pulse_srcCount (k : Nat) : (s.pulse k).srcCount = s.srcCount := rfl
@[simp] theorem State.pulse_queues (k : Nat) : (s.pulse k).queues = s.queues := rfl
@[simp] theorem State.pulse_qcache (k : Nat) : (s.pulse k).qcache = s.qcache := rfl
@[simp] theorem State.pulse_timers (k : Nat) : (s.pulse k).timers = s.timers := rfl
@[simp] theorem State.pulse_lastTick (k : Nat) : (s.pulse k).lastTick = s.lastTick := rfl
@[simp] theorem State.pulse_fireLeft (k : Nat) : (s.pulse k).fireLeft = s.fireLeft := rfl
@[simp] theorem State.pulse_ash (k : Nat) : (s.pulse k).ash = s.ash := rfl
@[simp] theorem State.pulse_dma (k : Nat) : (s.pulse k).dma = s.dma := rfl
@[simp] theorem State.pulse_owners (k : Nat) : (s.pulse k).owners = s.owners := rfl
@[simp] theorem State.pulse_meld (k : Nat) : (s.pulse k).meld = s.meld := rfl
@[simp] theorem State.pulse_cg (k : Nat) : (s.pulse k).cg = s.cg := rfl
@[simp] theorem State.pulse_stk (k : Nat) : (s.pulse k).stk = s.stk := rfl
@[simp] theorem State.pulse_pers (k : Nat) : (s.pulse k).pers = s.pers := rfl
@[simp] theorem State.pulse_hs (k : Nat) : (s.pulse k).hs = s.hs := rfl
@[simp] theorem State.pulse_saf (k : Nat) : (s.pulse k).saf = s.saf := rfl
@[simp] theorem State.pulse_sec (k : Nat) : (s.pulse k).sec = s.sec := rfl
@[simp] theorem State.pulse_wcs (k : Nat) : (s.pulse k).wcs = s.wcs := rfl
@[simp] theorem State.pulse_ucBad (k : Nat) : (s.pulse k).ucBad = s.ucBad := rfl
@[simp] theorem State.pulse_flash (k : Nat) : (s.pulse k).flash = s.flash := rfl

@[simp] theorem State.withPending_freeCtr (q : List Instr) : (s.withPending q).freeCtr = s.freeCtr := rfl
@[simp] theorem State.withPending_lastRead (q : List Instr) : (s.withPending q).lastRead = s.lastRead := rfl
@[simp] theorem State.withPending_mem (q : List Instr) : (s.withPending q).mem = s.mem := rfl
@[simp] theorem State.withPending_l1d (q : List Instr) : (s.withPending q).l1d = s.l1d := rfl
@[simp] theorem State.withPending_l2 (q : List Instr) : (s.withPending q).l2 = s.l2 := rfl
@[simp] theorem State.withPending_l3 (q : List Instr) : (s.withPending q).l3 = s.l3 := rfl
@[simp] theorem State.withPending_l1i (q : List Instr) : (s.withPending q).l1i = s.l1i := rfl
@[simp] theorem State.withPending_tags (q : List Instr) : (s.withPending q).tags = s.tags := rfl
@[simp] theorem State.withPending_modeTo (q : List Instr) : (s.withPending q).modeTo = s.modeTo := rfl
@[simp] theorem State.withPending_vbuf (q : List Instr) : (s.withPending q).vbuf = s.vbuf := rfl
@[simp] theorem State.withPending_shuf (q : List Instr) : (s.withPending q).shuf = s.shuf := rfl
@[simp] theorem State.withPending_faultIn (q : List Instr) : (s.withPending q).faultIn = s.faultIn := rfl
@[simp] theorem State.withPending_pulses (q : List Instr) : (s.withPending q).pulses = s.pulses := rfl
@[simp] theorem State.withPending_fills (q : List Instr) : (s.withPending q).fills = s.fills := rfl
@[simp] theorem State.withPending_io (q : List Instr) : (s.withPending q).io = s.io := rfl
@[simp] theorem State.withPending_img (q : List Instr) : (s.withPending q).img = s.img := rfl
@[simp] theorem State.withPending_cores (q : List Instr) : (s.withPending q).cores = s.cores := rfl
@[simp] theorem State.withPending_parts (q : List Instr) : (s.withPending q).parts = s.parts := rfl
@[simp] theorem State.withPending_ctags (q : List Instr) : (s.withPending q).ctags = s.ctags := rfl
@[simp] theorem State.withPending_heaps (q : List Instr) : (s.withPending q).heaps = s.heaps := rfl
@[simp] theorem State.withPending_sweep (q : List Instr) : (s.withPending q).sweep = s.sweep := rfl
@[simp] theorem State.withPending_offers (q : List Instr) : (s.withPending q).offers = s.offers := rfl
@[simp] theorem State.withPending_srcCount (q : List Instr) : (s.withPending q).srcCount = s.srcCount := rfl
@[simp] theorem State.withPending_queues (q : List Instr) : (s.withPending q).queues = s.queues := rfl
@[simp] theorem State.withPending_qcache (q : List Instr) : (s.withPending q).qcache = s.qcache := rfl
@[simp] theorem State.withPending_timers (q : List Instr) : (s.withPending q).timers = s.timers := rfl
@[simp] theorem State.withPending_lastTick (q : List Instr) : (s.withPending q).lastTick = s.lastTick := rfl
@[simp] theorem State.withPending_fireLeft (q : List Instr) : (s.withPending q).fireLeft = s.fireLeft := rfl
@[simp] theorem State.withPending_ash (q : List Instr) : (s.withPending q).ash = s.ash := rfl
@[simp] theorem State.withPending_dma (q : List Instr) : (s.withPending q).dma = s.dma := rfl
@[simp] theorem State.withPending_owners (q : List Instr) : (s.withPending q).owners = s.owners := rfl
@[simp] theorem State.withPending_meld (q : List Instr) : (s.withPending q).meld = s.meld := rfl
@[simp] theorem State.withPending_cg (q : List Instr) : (s.withPending q).cg = s.cg := rfl
@[simp] theorem State.withPending_stk (q : List Instr) : (s.withPending q).stk = s.stk := rfl
@[simp] theorem State.withPending_pers (q : List Instr) : (s.withPending q).pers = s.pers := rfl
@[simp] theorem State.withPending_hs (q : List Instr) : (s.withPending q).hs = s.hs := rfl
@[simp] theorem State.withPending_saf (q : List Instr) : (s.withPending q).saf = s.saf := rfl
@[simp] theorem State.withPending_sec (q : List Instr) : (s.withPending q).sec = s.sec := rfl
@[simp] theorem State.withPending_wcs (q : List Instr) : (s.withPending q).wcs = s.wcs := rfl
@[simp] theorem State.withPending_ucBad (q : List Instr) : (s.withPending q).ucBad = s.ucBad := rfl
@[simp] theorem State.withPending_flash (q : List Instr) : (s.withPending q).flash = s.flash := rfl

end Sys2Proof.Machine
end

