-- ==== Sys2Proof/Laws/Tab.lean ====
section
/-!
SUPPORT. Sparse tables: a read after a write, and the canonical form kept by every write.
-/
namespace Sys2Proof.Machine

variable {α : Type} [DecidableEq α]

omit [DecidableEq α] in
theorem Tab.get_dropTo_le (t : Tab α) (k j : Nat) (d : α) (h : j ≤ k) : Tab.get (Tab.dropTo t k) j d = d := by
  induction t with
  | nil => rfl
  | cons e t ih =>
    obtain ⟨k', v⟩ := e
    unfold Tab.dropTo
    split
    · exact ih
    · have h1 : ¬ (j = k') := by omega
      have h2 : j < k' := by omega
      simp [Tab.get, h1, h2]

omit [DecidableEq α] in
theorem Tab.get_dropTo_gt (t : Tab α) (k j : Nat) (d : α) (h : k < j) : Tab.get (Tab.dropTo t k) j d = Tab.get t j d := by
  induction t with
  | nil => rfl
  | cons e t ih =>
    obtain ⟨k', v⟩ := e
    unfold Tab.dropTo
    split
    · have h1 : ¬ (j = k') := by omega
      have h2 : ¬ (j < k') := by omega
      simp [Tab.get, h1, h2, ih]
    · rfl

/-- A read of the key just written. -/
@[simp] theorem Tab.get_set (t : Tab α) (k : Nat) (v d : α) : Tab.get (Tab.set t k v d) k d = v := by
  induction t with
  | nil => unfold Tab.set; split <;> simp_all [Tab.get]
  | cons e t ih =>
    obtain ⟨k', v'⟩ := e
    unfold Tab.set
    split
    · rename_i h
      have : ¬ (k = k') := by omega
      split <;> simp_all [Tab.get]
    · split
      · split
        · rename_i h1 h2 h3; rw [Tab.get_dropTo_le _ _ _ _ (Nat.le_refl k)]; exact h3.symm
        · simp [Tab.get]
      · rename_i h1 h2
        simp [Tab.get, h1, h2, ih]

/-- A read of another key, whatever the default it is read with. -/
theorem Tab.get_set_ne (t : Tab α) (k j : Nat) (v d d' : α) (h : j ≠ k) : Tab.get (Tab.set t k v d) j d' = Tab.get t j d' := by
  induction t with
  | nil => unfold Tab.set; split <;> simp_all [Tab.get]
  | cons e t ih =>
    obtain ⟨k', v'⟩ := e
    unfold Tab.set
    split
    · split
      · rfl
      · simp only [Tab.get, h, if_false]
        split
        · have h1 : ¬ (j = k') := by omega
          have h2 : j < k' := by omega
          simp [h1, h2]
        · rfl
    · split
      · rename_i h1 h2
        subst h2
        split
        · rcases Nat.lt_or_gt_of_ne h with hl | hg
          · rw [Tab.get_dropTo_le _ _ _ _ (Nat.le_of_lt hl)]; simp [Tab.get, h, hl]
          · rw [Tab.get_dropTo_gt _ _ _ _ hg]
            have : ¬ (j < k) := by omega
            simp [Tab.get, h, this]
        · simp [Tab.get, h]
      · simp [Tab.get, ih]

theorem Tab.get_set_eq (t : Tab α) (k j : Nat) (v d : α) :
    Tab.get (Tab.set t k v d) j d = if j = k then v else Tab.get t j d := by
  split
  · rename_i h; subst h; simp
  · rename_i h; exact Tab.get_set_ne t k j v d d h

@[simp] theorem Tab.get_modify (t : Tab α) (k : Nat) (d : α) (f : α → α) : Tab.get (Tab.modify t k d f) k d = f (Tab.get t k d) := by
  simp [Tab.modify]

theorem Tab.get_modify_ne (t : Tab α) (k j : Nat) (d d' : α) (f : α → α) (h : j ≠ k) :
    Tab.get (Tab.modify t k d f) j d' = Tab.get t j d' := Tab.get_set_ne t k j _ d d' h

omit [DecidableEq α] in
theorem Tab.above_mono (t : Tab α) (m n : Nat) (h : m ≤ n) (ha : Tab.above t n = true) : Tab.above t m = true := by
  simp only [Tab.above, List.all_eq_true, decide_eq_true_eq] at *
  intro e he; have := ha e he; omega

omit [DecidableEq α] in
theorem Tab.dropTo_of_above (t : Tab α) (k : Nat) (h : Tab.above t k = true) : Tab.dropTo t k = t := by
  cases t with
  | nil => rfl
  | cons e t =>
    obtain ⟨k', v⟩ := e
    simp only [Tab.above, List.all_cons, Bool.and_eq_true, decide_eq_true_eq] at h
    unfold Tab.dropTo
    have : ¬ (k' ≤ k) := by omega
    simp [this]

theorem Tab.above_set (t : Tab α) (k n : Nat) (v d : α) (hk : n < k) (h : Tab.above t n = true) : Tab.above (Tab.set t k v d) n = true := by
  induction t with
  | nil => unfold Tab.set; split <;> simp [Tab.above, hk]
  | cons e t ih =>
    obtain ⟨k', v'⟩ := e
    have h' := h
    simp only [Tab.above, List.all_cons, Bool.and_eq_true, decide_eq_true_eq] at h'
    have ht : Tab.above t n = true := h'.2
    unfold Tab.set
    split
    · split
      · exact h
      · simp only [Tab.above, List.all_cons, Bool.and_eq_true, decide_eq_true_eq]; exact ⟨hk, h'⟩
    · split
      · split
        · rename_i h1 h2 h3
          simp only [Tab.above, List.all_eq_true, decide_eq_true_eq]
          intro e he
          have : ∀ (t : Tab α), (∀ e ∈ t, n < e.1) → ∀ e ∈ Tab.dropTo t k, n < e.1 := by
            intro t
            induction t with
            | nil => intro _ e he; cases he
            | cons a t iht =>
              intro hall e he
              unfold Tab.dropTo at he
              split at he
              · exact iht (fun x hx => hall x (List.mem_cons_of_mem _ hx)) e he
              · exact hall e he
          apply this t _ e he
          intro x hx
          simp only [Tab.above, List.all_eq_true, decide_eq_true_eq] at ht
          exact ht x hx
        · simp only [Tab.above, List.all_cons, Bool.and_eq_true, decide_eq_true_eq]; exact ⟨hk, ht⟩
      · simp only [Tab.above, List.all_cons, Bool.and_eq_true, decide_eq_true_eq]; exact ⟨h'.1, ih ht⟩

/-- Every write keeps the canonical form. -/
theorem Tab.wf_set (t : Tab α) (k : Nat) (v d : α) (h : Tab.wf t d = true) : Tab.wf (Tab.set t k v d) d = true := by
  induction t with
  | nil => unfold Tab.set; split <;> simp_all [Tab.wf, Tab.above]
  | cons e t ih =>
    obtain ⟨k', v'⟩ := e
    have h' := h
    simp only [Tab.wf, Bool.and_eq_true, decide_eq_true_eq] at h'
    obtain ⟨⟨hv, ha⟩, ht⟩ := h'
    unfold Tab.set
    split
    · rename_i hlt
      split
      · exact h
      · rename_i hne
        simp only [Tab.wf, Bool.and_eq_true, decide_eq_true_eq]
        refine ⟨⟨hne, ?_⟩, ⟨hv, ha⟩, ht⟩
        simp only [Tab.above, List.all_cons, Bool.and_eq_true, decide_eq_true_eq]
        exact ⟨hlt, Tab.above_mono t k k' (Nat.le_of_lt hlt) ha⟩
    · split
      · rename_i heq
        subst heq
        split
        · rw [Tab.dropTo_of_above t _ ha]; exact ht
        · rename_i hne
          simp only [Tab.wf, Bool.and_eq_true, decide_eq_true_eq]; exact ⟨⟨hne, ha⟩, ht⟩
      · rename_i h1 h2
        simp only [Tab.wf, Bool.and_eq_true, decide_eq_true_eq]
        exact ⟨⟨hv, Tab.above_set t k k' v d (by omega) ha⟩, ih ht⟩

theorem Tab.wf_modify (t : Tab α) (k : Nat) (d : α) (f : α → α) (h : Tab.wf t d = true) : Tab.wf (Tab.modify t k d f) d = true :=
  Tab.wf_set t k _ d h

end Sys2Proof.Machine
end

