-- ==== Sys2Proof/Laws/Core.lean ====
section
/-!
SUPPORT. Cores and their registers: what a write leaves and what it puts, how a computation runs, and what the completion of an instruction
changes.
-/
namespace Sys2Proof.Machine

open Sys2Proof

variable (s : State)

/-! Reading what was written. -/

@[simp] theorem State.core_setCore (c : Nat) (x : CoreSt) : (s.setCore c x).core c = x := Tab.get_set ..
theorem State.core_setCore_ne (c k : Nat) (x : CoreSt) (h : k ≠ c) : (s.setCore c x).core k = s.core k := Tab.get_set_ne _ _ _ _ _ _ h
@[simp] theorem State.core_modCore (c : Nat) (f : CoreSt → CoreSt) : (s.modCore c f).core c = f (s.core c) := State.core_setCore ..
theorem State.core_modCore_ne (c k : Nat) (f : CoreSt → CoreSt) (h : k ≠ c) : (s.modCore c f).core k = s.core k :=
  State.core_setCore_ne _ _ _ _ h
@[simp] theorem State.core_ioW (c a : Nat) (v : W64) : (s.ioW a v).core c = s.core c := rfl
@[simp] theorem State.core_crW (c k : Nat) (v : W64) : (s.crW c k v).core c = { s.core c with cr := Tab.set (s.core c).cr k v (crReset k) } :=
  State.core_modCore ..
theorem State.core_crW_ne (c k j : Nat) (v : W64) (h : j ≠ c) : (s.crW c k v).core j = s.core j := State.core_modCore_ne _ _ _ _ h
@[simp] theorem State.crR_crW (c k : Nat) (v : W64) : (s.crW c k v).crR c k = v := by simp [State.crR]
theorem State.crR_crW_ne (c k j : Nat) (v : W64) (h : j ≠ k) : (s.crW c k v).crR c j = s.crR c j := by
  simp [State.crR, Tab.get_set_ne _ _ _ _ _ _ h]
@[simp] theorem State.crR_ioW (c k a : Nat) (v : W64) : (s.ioW a v).crR c k = s.crR c k := rfl
theorem State.crR_modCore (c k : Nat) (f : CoreSt → CoreSt) (h : (f (s.core c)).cr = (s.core c).cr) :
    (s.modCore c f).crR c k = s.crR c k := by simp [State.crR, h]
@[simp] theorem State.ioR_ioW (a : Nat) (v : W64) : (s.ioW a v).ioR a = v := Tab.get_set ..
theorem State.ioR_ioW_ne (a b : Nat) (v : W64) (h : b ≠ a) : (s.ioW a v).ioR b = s.ioR b := Tab.get_set_ne _ _ _ _ _ _ h
@[simp] theorem State.ioR_modCore (c a : Nat) (f : CoreSt → CoreSt) : (s.modCore c f).ioR a = s.ioR a := rfl
@[simp] theorem State.ioR_crW (c k a : Nat) (v : W64) : (s.crW c k v).ioR a = s.ioR a := rfl

/-! Register-only changes. -/

theorem OnlyRegs.refl (P : Nat → Prop) : OnlyRegs P s s := ⟨rfl, fun _ _ => rfl⟩

theorem OnlyRegs.trans {P : Nat → Prop} {s t u : State} (h : OnlyRegs P s t) (k : OnlyRegs P t u) : OnlyRegs P s u :=
  ⟨by rw [k.rest, h.rest], fun a ha => (k.regs a ha).trans (h.regs a ha)⟩

theorem OnlyRegs.ioW {P : Nat → Prop} (a : Nat) (v : W64) (h : P a) : OnlyRegs P s (s.ioW a v) :=
  ⟨rfl, fun b hb => State.ioR_ioW_ne s a b v (fun e => hb (e ▸ h))⟩

theorem OnlyRegs.mono {P Q : Nat → Prop} {s t : State} (h : OnlyRegs P s t) (i : ∀ a, P a → Q a) : OnlyRegs Q s t :=
  ⟨h.rest, fun a ha => h.regs a (fun p => ha (i a p))⟩

theorem OnlyRegs.cores {P : Nat → Prop} {s t : State} (h : OnlyRegs P s t) : t.cores = s.cores := by rw [h.rest]
theorem OnlyRegs.core {P : Nat → Prop} {s t : State} (h : OnlyRegs P s t) (c : Nat) : t.core c = s.core c := by
  unfold State.core; rw [h.cores]

/-- A fold whose every step changes only registers of P changes only registers of P. -/
theorem OnlyRegs.foldl {P : Nat → Prop} {α : Type} (l : List α) (f : State → α → State)
    (h : ∀ s x, x ∈ l → OnlyRegs P s (f s x)) : OnlyRegs P s (l.foldl f s) := by
  induction l generalizing s with
  | nil => exact OnlyRegs.refl s P
  | cons x l ih =>
    exact (h s x (by simp)).trans (ih (f s x) (fun s y hy => h s y (by simp [hy])))

theorem OnlyRegs.wf {P : Nat → Prop} (a hi lo v : Nat) (h : P a) : OnlyRegs P s (s.wf a hi lo v) := OnlyRegs.ioW s a _ h

theorem OnlyRegs.ite {P : Nat → Prop} {s t u : State} (b : Bool) (ht : OnlyRegs P s t) (hu : OnlyRegs P s u) :
    OnlyRegs P s (if b then t else u) := by cases b <;> simpa

theorem OnlyRegs.countAt {P : Nat → Prop} (a n : Nat) (h : P a) (h1 : P (a + 1)) : OnlyRegs P s (s.countAt a n) := by
  unfold State.countAt
  simp only
  split
  · exact (OnlyRegs.wf s _ _ _ _ h1).trans (OnlyRegs.wf _ _ _ _ _ h)
  · exact OnlyRegs.wf s _ _ _ _ h1

/-- An occurrence of a core event moves only the counters of the core (R496). -/
theorem State.countCore_only (c ev n : Nat) : OnlyRegs (runRegs c) s (s.countCore c ev n) := by
  unfold State.countCore forN
  refine OnlyRegs.foldl s _ _ (fun t j hj => ?_)
  have hj : j < 8 := by simpa using hj
  have hc (n : Nat) : OnlyRegs (runRegs c) t (t.countAt (Reg.DBG_CNTSEL c j) n) :=
    OnlyRegs.countAt t _ _ (Or.inl (Exists.intro j (And.intro hj (Or.inl rfl)))) (Or.inl (Exists.intro j (And.intro hj (Or.inr rfl))))
  exact OnlyRegs.ite _ (hc n) (OnlyRegs.refl t _)

theorem State.clearSkip_only (c : Nat) : OnlyRegs (runRegs c) s (s.clearSkip c) := by
  unfold State.clearSkip
  split
  · exact OnlyRegs.wf s _ _ _ _ (Or.inr rfl)
  · exact OnlyRegs.refl s _

/-! How a computation runs. -/

@[simp] theorem MM.run_pure {α : Type} (a : α) : (pure a : MM α).run s = (.ok a, s) := rfl
@[simp] theorem MM.run_bind {α β : Type} (m : MM α) (f : α → MM β) :
    (m >>= f).run s = match m.run s with
      | (.ok a, t) => (f a).run t
      | (.error e, t) => (.error e, t) := by
  simp only [MM.run, EStateM.run, bind, EStateM.bind]
  cases m s <;> rfl
@[simp] theorem MM.run_map {α β : Type} (m : MM α) (f : α → β) :
    (f <$> m).run s = match m.run s with
      | (.ok a, t) => (.ok (f a), t)
      | (.error e, t) => (.error e, t) := by
  simp only [MM.run, EStateM.run, Functor.map, EStateM.map]
  cases m s <;> rfl
@[simp] theorem MM.run_get : (get : MM State).run s = (.ok s, s) := rfl
@[simp] theorem MM.run_upd (f : State → State) : (upd f).run s = (.ok (), f s) := rfl
@[simp] theorem MM.run_ask {α : Type} (f : State → α × State) : (ask f).run s = (.ok (f s).1, (f s).2) := rfl
@[simp] theorem MM.run_fault {α : Type} (e : Exn) : (fault e : MM α).run s = (.error (.exn e), s) := rfl
@[simp] theorem MM.run_need (b : Bool) (e : Exn) :
    (need b e).run s = if b then (.ok (), s) else (.error (.exn e), s) := by
  unfold need; split <;> rfl
@[simp] theorem run_rd (c r : Nat) : (rd c r).run s = (.ok (s.reg c r), s) := rfl
@[simp] theorem run_wr (c r : Nat) (w : Word) : (wr c r w).run s = (.ok (), s.setReg c r w) := rfl

/-! The completion of an instruction. -/

/-- What the end of an instruction changes in its core. -/
def ended (x : CoreSt) (h : Option (Nat × Ip)) : CoreSt :=
  { x with accs := [], hold := h, breakAt := 0, walk := none, ip := { x.ip with idx := x.ip.idx + 1 } }

/-- The result of an instruction that ends at the next index, debugging off: the core's bookkeeping, and the counters. -/
theorem State.retire_seq (c : Nat) (hd : s.dbgOn c = false) :
    ∃ h, (s.retire c .seq).core c = ended (s.core c) h ∧ (∀ k, k ≠ c → (s.retire c .seq).core k = s.core k) ∧
      (s.retire c .seq) = { s with cores := (s.retire c .seq).cores, io := (s.retire c .seq).io } ∧
      (∀ a, ¬ runRegs c a → (s.retire c .seq).ioR a = s.ioR a) := by
  have hw : s.testWatch c = s.modCore c (fun x => { x with accs := [] }) := by
    unfold State.testWatch; unfold State.dbgOn State.rb at hd; simp [State.rb, hd]
  obtain ⟨u, hu⟩ : ∃ u, u = ((s.modCore c (fun x => { x with accs := [] })).countCore c 0x02).clearSkip c := ⟨_, rfl⟩
  have ho : OnlyRegs (runRegs c) (s.modCore c (fun x => { x with accs := [] })) u := by
    rw [hu]; exact (State.countCore_only _ _ _ _).trans (State.clearSkip_only _ _)
  have hdu : u.dbgOn c = false := by
    unfold State.dbgOn State.rb at hd ⊢
    rw [ho.regs]; · simpa using hd
    rintro (⟨j, hj, h | h⟩ | h) <;> simp [Reg.DBG_DBGCTL, Reg.DBG_CNTSEL, Reg.DBG_DBGSTAT] at h <;> omega
  have hs : u.stepArise c = u := by unfold State.stepArise; simp [hdu]
  obtain ⟨v, hv⟩ : ∃ v, v = u.clearHold c := ⟨_, rfl⟩
  have hvc : (∃ h, v.core c = { u.core c with hold := h }) ∧ (∀ k, k ≠ c → v.core k = u.core k) ∧ v = { u with cores := v.cores } := by
    rw [hv]; unfold State.clearHold
    split
    · exact ⟨⟨_, rfl⟩, fun _ _ => rfl, rfl⟩
    · split
      · exact ⟨⟨none, by simp⟩, fun k hk => State.core_modCore_ne _ _ _ _ hk, rfl⟩
      · exact ⟨⟨_, rfl⟩, fun _ _ => rfl, rfl⟩
  have hr : s.retire c .seq = v.modCore c (fun x => { x with breakAt := 0, walk := none, ip := { x.ip with idx := x.ip.idx + 1 } }) := by
    simp only [State.retire, State.completed, hw, ← hu, hs, ← hv]
  obtain ⟨⟨h, hh⟩, hk, hv2⟩ := hvc
  have huc : u.core c = { s.core c with accs := [] } := by rw [ho.core]; simp
  refine ⟨h, ?_, ?_, ?_, ?_⟩
  · rw [hr, State.core_modCore, hh, huc]; rfl
  · intro k hkc
    rw [hr, State.core_modCore_ne _ _ _ _ hkc, hk k hkc, ho.core, State.core_modCore_ne _ _ _ _ hkc]
  · rw [hr, State.modCore, State.setCore]
    rw [hv2, ho.rest]; rfl
  · intro a ha
    rw [hr, State.ioR_modCore]
    have : v.ioR a = u.ioR a := by rw [hv2]; rfl
    rw [this, ho.regs a ha]; rfl

end Sys2Proof.Machine
end

