-- ==== Sys2Proof/Laws/Regs.lean ====
section
/-!
SUPPORT. Register writes, flags and sticky bits: what each leaves alone, and that an instruction that commits only such writes keeps
everything else.
-/
namespace Sys2Proof.Machine

open Sys2Proof

theorem handKey_inj {h r q : Nat} (hh : h < 16) (h1 : 8 ≤ r) (h2 : r < 32) (h3 : 8 ≤ q) (h4 : q < 32)
    (e : handKey h r = handKey h q) : r = q := by
  unfold handKey at e
  have h5 : (h + 1) % 16 = h + 1 ∨ ((h + 1) % 16 = 0 ∧ h = 15) := by omega
  split_ifs at e <;> omega

theorem fld_lt (x : W64) (hi lo : Nat) : fld x hi lo < 2 ^ (hi + 1 - lo) := Nat.mod_lt _ (by positivity)

theorem State.chp_lt (s : State) (c : Nat) : s.chp c < 16 := fld_lt _ 3 0

theorem State.homeOf_inj (s : State) (c r q : Nat) (hr : r < 32) (hq : q < 32) (e : s.homeOf c r = s.homeOf c q) : r = q := by
  unfold State.homeOf at e
  have hc := s.chp_lt c
  split_ifs at e <;> simp only [Prod.mk.injEq, reduceCtorEq, Nat.reduceEqDiff, false_and, true_and, zero_ne_one] at e
  all_goals first
    | omega
    | exact handKey_inj hc (by omega) hr (by omega) hq e

theorem State.reg_eq (s : State) (c r : Nat) : s.reg c r = Tab.get (s.file c (s.homeOf c r).1) (s.homeOf c r).2 Word.void := by
  unfold State.reg State.homeOf
  dsimp only
  split_ifs <;> rfl

/-- What writes of registers and of status bits leave alone. -/
structure Wrote (s t : State) (c : Nat) (D : List Nat) (q : Bool) (groups : Nat) : Prop where
  files  : ∀ f k, (f, k) ∉ D.map (s.homeOf c) → Tab.get (t.file c f) k Word.void = Tab.get (s.file c f) k Word.void
  ctl    : ∀ k, k ≠ CRN.gds → ¬ (q = true ∧ s.snap c = false ∧ (k = CRN.asr ∨ k = CRN.fsr)) → t.crR c k = s.crR c k
  gds    : t.crR c CRN.gds = if s.snap c then s.crR c CRN.gds else s.crR c CRN.gds ||| n64 groups
  snapSt : ¬ (q = true ∧ s.snap c = true) → (t.core c).snapAsr = (s.core c).snapAsr ∧ (t.core c).snapFsr = (s.core c).snapFsr
  core   : t.core c = { s.core c with
    g := (t.core c).g, hands := (t.core c).hands, snapG := (t.core c).snapG, snapHand := (t.core c).snapHand, cr := (t.core c).cr,
    snapAsr := (t.core c).snapAsr, snapFsr := (t.core c).snapFsr }
  others : ∀ k, k ≠ c → t.core k = s.core k
  regs   : ∀ a, ¬ runRegs c a → t.ioR a = s.ioR a
  rest   : t = { s with cores := t.cores, io := t.io }

namespace Wrote

variable {s t u : State} {c : Nat} {D E : List Nat} {q r : Bool} {m n : Nat}

theorem cst (h : Wrote s t c D q m) : t.crR c CRN.cst = s.crR c CRN.cst := h.ctl _ (by decide) (by simp [CRN.asr, CRN.fsr])
theorem chp (h : Wrote s t c D q m) : t.chp c = s.chp c := by
  unfold State.chp State.crF; rw [h.ctl _ (by decide) (by simp [CRN.asr, CRN.fsr])]
theorem cl (h : Wrote s t c D q m) : t.cl c = s.cl c := by unfold State.cl State.crF; rw [h.cst]
theorem snap (h : Wrote s t c D q m) : t.snap c = s.snap c := by unfold State.snap; rw [h.cl]
theorem sup (h : Wrote s t c D q m) : t.sup c = s.sup c := by unfold State.sup; rw [h.cst]
theorem home (h : Wrote s t c D q m) (r : Nat) : t.homeOf c r = s.homeOf c r := by unfold State.homeOf; rw [h.snap, h.chp]

theorem reg (h : Wrote s t c D q m) (hD : ∀ d ∈ D, d < 32) (r : Nat) (hr : r < 32) (hn : r ∉ D) : t.reg c r = s.reg c r := by
  rw [State.reg_eq, State.reg_eq s, h.home]
  refine h.files _ _ (fun hm => ?_)
  obtain ⟨d, hd, he⟩ := List.mem_map.1 hm
  exact hn (State.homeOf_inj s c d r (hD d hd) hr he ▸ hd)

theorem refl (s : State) (c : Nat) : Wrote s s c [] false 0 :=
  ⟨fun _ _ _ => rfl, fun _ _ _ => rfl, by simp [n64], fun _ => ⟨rfl, rfl⟩, rfl, fun _ _ => rfl, fun _ _ => rfl, rfl⟩

theorem trans (h : Wrote s t c D q m) (k : Wrote t u c E r n) : Wrote s u c (D ++ E) (q || r) (m ||| n) where
  files f j hm := by
    rw [List.map_append, List.mem_append, not_or] at hm
    rw [k.files f j, h.files f j hm.1]
    rw [show E.map (t.homeOf c) = E.map (s.homeOf c) from List.map_congr_left (fun a _ => h.home a)]
    exact hm.2
  ctl j h1 h2 := by
    rw [k.ctl j h1 (by rw [h.snap]; cases q <;> simp_all), h.ctl j h1 (by cases q <;> simp_all)]
  gds := by
    rw [k.gds, h.gds, h.snap]
    split
    · rfl
    · rw [BitVec.or_assoc]; congr 1; unfold n64; rw [BitVec.ofNat_or]
  snapSt h2 := by
    have a := k.snapSt (by rw [h.snap]; cases q <;> simp_all)
    have b := h.snapSt (by cases q <;> simp_all)
    exact ⟨a.1.trans b.1, a.2.trans b.2⟩
  core := by rw [k.core, h.core]
  others j hj := (k.others j hj).trans (h.others j hj)
  regs a ha := (k.regs a ha).trans (h.regs a ha)
  rest := by rw [k.rest, h.rest]

theorem count (h : OnlyRegs (runRegs c) s t) : Wrote s t c [] false 0 where
  files f k _ := by unfold State.file; rw [h.core]
  ctl k _ _ := by unfold State.crR; rw [h.core]
  gds := by unfold State.crR; rw [h.core]; simp [n64]
  snapSt _ := by rw [h.core]; exact ⟨rfl, rfl⟩
  core := by rw [h.core]
  others k _ := h.core k
  regs := h.regs
  rest := by conv_lhs => rw [h.rest]
             rw [h.cores]

theorem dirty (s : State) (c m : Nat) : Wrote s (s.dirty c m) c [] false m := by
  unfold State.dirty
  split
  · rename_i hs
    have := refl s c
    exact ⟨this.files, this.ctl, by simp [hs], this.snapSt, rfl, this.others, this.regs, rfl⟩
  · rename_i hs
    refine ⟨fun f k _ => ?_, fun k hk _ => State.crR_crW_ne _ _ _ _ _ hk, ?_, fun _ => by simp, by simp, fun k hk => State.core_crW_ne _ _ _ _ _ hk,
      fun _ _ => rfl, rfl⟩
    · unfold State.file; simp
    · simp [hs]

end Wrote

@[simp] theorem State.reg_putReg (s : State) (c r : Nat) (w : Word) : (s.putReg c r w).reg c r = w := by
  unfold State.putReg State.reg
  by_cases h6 : s.snap c = true
  · have : (s.modCore c (fun x => if r < 8 then { x with snapG := Tab.set x.snapG r w Word.void }
      else { x with snapHand := Tab.set x.snapHand (r - 8) w Word.void })).snap c = true := by
      unfold State.snap State.cl State.crF at h6 ⊢
      rw [State.crR_modCore]; · exact h6
      split <;> rfl
    simp only [h6, if_true, this]
    split <;> simp_all
  · have h6 : s.snap c = false := by simpa using h6
    simp only [h6, Bool.false_eq_true, if_false]
    split
    · have : (s.modCore c (fun x => { x with g := Tab.set x.g r w Word.void })).snap c = false := by
        unfold State.snap State.cl State.crF at h6 ⊢; rw [State.crR_modCore] <;> first | exact h6 | rfl
      simp_all
    · have : (s.modCore c (fun x => { x with hands := Tab.set x.hands (handKey (s.chp c) r) w Word.void })).snap c = false := by
        unfold State.snap State.cl State.crF at h6 ⊢; rw [State.crR_modCore] <;> first | exact h6 | rfl
      have hc : (s.modCore c (fun x => { x with hands := Tab.set x.hands (handKey (s.chp c) r) w Word.void })).chp c = s.chp c := by
        unfold State.chp State.crF; rw [State.crR_modCore]; rfl
      simp_all

/-- A core that differs in its register files alone, said in the form of Wrote. -/
theorem core_like (x y : CoreSt) (h : y = { x with g := y.g, hands := y.hands, snapG := y.snapG, snapHand := y.snapHand }) (hc : y.cr = x.cr) :
    y = { x with g := y.g, hands := y.hands, snapG := y.snapG, snapHand := y.snapHand, cr := y.cr, snapAsr := y.snapAsr, snapFsr := y.snapFsr } := by
  have a : y.snapAsr = x.snapAsr := by rw [h]
  have b : y.snapFsr = x.snapFsr := by rw [h]
  rw [a, b, hc]; exact h

theorem Wrote.putReg (s : State) (c r : Nat) (w : Word) : Wrote s (s.putReg c r w) c [r] false 0 := by
  have key : ∃ f, s.putReg c r w = s.modCore c f ∧ (∀ x, (f x).cr = x.cr) ∧
      (f (s.core c) = { s.core c with g := (f (s.core c)).g, hands := (f (s.core c)).hands, snapG := (f (s.core c)).snapG, snapHand := (f (s.core c)).snapHand }) := by
    unfold State.putReg
    split
    · exact ⟨_, rfl, fun x => by split <;> rfl, by split <;> rfl⟩
    · split <;> exact ⟨_, rfl, fun x => rfl, rfl⟩
  have hf : ∀ f k, (f, k) ∉ [r].map (s.homeOf c) → Tab.get ((s.putReg c r w).file c f) k Word.void = Tab.get (s.file c f) k Word.void := by
    intro f k hm
    simp only [List.map_cons, List.map_nil, List.mem_singleton] at hm
    unfold State.putReg
    unfold State.homeOf at hm
    by_cases h6 : s.snap c = true <;> by_cases h8 : r < 8 <;> simp only [h6, h8, if_true, if_false, Bool.false_eq_true] at hm ⊢ <;>
      rcases f with _ | _ | _ | _ | f <;> simp only [State.file, State.core_modCore] <;>
      first
      | rfl
      | (refine Tab.get_set_ne _ _ _ _ _ _ (fun e => hm ?_); simp [e])
  obtain ⟨f, hp, hcr, hc⟩ := key
  rw [hp] at hf ⊢
  exact ⟨hf, fun k _ _ => State.crR_modCore _ _ _ _ (hcr _), by rw [State.crR_modCore _ _ _ _ (hcr _)]; simp [n64],
    fun _ => by rw [State.core_modCore, hc]; exact ⟨rfl, rfl⟩,
    by rw [State.core_modCore]; exact core_like _ _ hc (hcr _), fun k hk => State.core_modCore_ne _ _ _ _ hk, fun _ _ => rfl, rfl⟩

theorem Wrote.setReg (s : State) (c r : Nat) (w : Word) : Wrote s (s.setReg c r w) c [r] false (regGrp r) := by
  have h := (Wrote.putReg s c r w).trans (Wrote.dirty _ c (regGrp r))
  rw [Nat.zero_or] at h
  exact h

theorem State.reg_dirty (s : State) (c m r : Nat) : (s.dirty c m).reg c r = s.reg c r := by
  rw [State.reg_eq, State.reg_eq s, (Wrote.dirty s c m).home, (Wrote.dirty s c m).files _ _ (by simp)]

@[simp] theorem State.reg_setReg (s : State) (c r : Nat) (w : Word) : (s.setReg c r w).reg c r = w := by
  unfold State.setReg; rw [State.reg_dirty, State.reg_putReg]

theorem Wrote.asrW (s : State) (c : Nat) (v : W64) : Wrote s (s.asrW c v) c [] true 0 := by
  unfold State.asrW
  split
  · rename_i h
    refine ⟨fun f k _ => ?_, fun k _ _ => State.crR_modCore _ _ _ _ rfl, by rw [State.crR_modCore _ _ _ _ rfl]; simp [n64], fun h2 => absurd ⟨rfl, h⟩ h2,
      by simp, fun k hk => State.core_modCore_ne _ _ _ _ hk, fun _ _ => rfl, rfl⟩
    rcases f with _ | _ | _ | _ | f <;> simp [State.file]
  · rename_i h
    refine ⟨fun f k _ => ?_, fun k hk h2 => State.crR_crW_ne _ _ _ _ _ (fun e => h2 ⟨rfl, by simpa using h, Or.inl e⟩), ?_, fun _ => by simp, by simp,
      fun k hk => State.core_crW_ne _ _ _ _ _ hk, fun _ _ => rfl, rfl⟩
    · rcases f with _ | _ | _ | _ | f <;> simp [State.file]
    · rw [State.crR_crW_ne _ _ _ _ _ (by decide)]; simp [n64]

theorem Wrote.fsrW (s : State) (c : Nat) (v : W64) : Wrote s (s.fsrW c v) c [] true 0 := by
  unfold State.fsrW
  split
  · rename_i h
    refine ⟨fun f k _ => ?_, fun k _ _ => State.crR_modCore _ _ _ _ rfl, by rw [State.crR_modCore _ _ _ _ rfl]; simp [n64], fun h2 => absurd ⟨rfl, h⟩ h2,
      by simp, fun k hk => State.core_modCore_ne _ _ _ _ hk, fun _ _ => rfl, rfl⟩
    rcases f with _ | _ | _ | _ | f <;> simp [State.file]
  · rename_i h
    refine ⟨fun f k _ => ?_, fun k hk h2 => State.crR_crW_ne _ _ _ _ _ (fun e => h2 ⟨rfl, by simpa using h, Or.inr e⟩), ?_, fun _ => by simp, by simp,
      fun k hk => State.core_crW_ne _ _ _ _ _ hk, fun _ _ => rfl, rfl⟩
    · rcases f with _ | _ | _ | _ | f <;> simp [State.file]
    · rw [State.crR_crW_ne _ _ _ _ _ (by decide)]; simp [n64]

theorem State.asrR_asrW (s : State) (c : Nat) (v : W64) : (s.asrW c v).asrR c = v := by
  unfold State.asrR; rw [(Wrote.asrW s c v).snap]
  unfold State.asrW; split <;> simp
theorem State.fsrR_fsrW (s : State) (c : Nat) (v : W64) : (s.fsrW c v).fsrR c = v := by
  unfold State.fsrR; rw [(Wrote.fsrW s c v).snap]
  unfold State.fsrW; split <;> simp

theorem State.fsrR_asrW (s : State) (c : Nat) (v : W64) : (s.asrW c v).fsrR c = s.fsrR c := by
  unfold State.fsrR; rw [(Wrote.asrW s c v).snap]
  unfold State.asrW; split
  · simp
  · exact State.crR_crW_ne _ _ _ _ _ (by decide)
theorem State.asrR_fsrW (s : State) (c : Nat) (v : W64) : (s.fsrW c v).asrR c = s.asrR c := by
  unfold State.asrR; rw [(Wrote.fsrW s c v).snap]
  unfold State.fsrW; split
  · simp
  · exact State.crR_crW_ne _ _ _ _ _ (by decide)

/-- Writes that touch neither ASR nor FSR leave both. -/
theorem Wrote.asrR {s t : State} {c m : Nat} {D : List Nat} (h : Wrote s t c D false m) : t.asrR c = s.asrR c := by
  unfold State.asrR; rw [h.snap, h.ctl _ (by decide) (by simp), (h.snapSt (by simp)).1]
theorem Wrote.fsrR {s t : State} {c m : Nat} {D : List Nat} (h : Wrote s t c D false m) : t.fsrR c = s.fsrR c := by
  unfold State.fsrR; rw [h.snap, h.ctl _ (by decide) (by simp), (h.snapSt (by simp)).2]

/-- The flags of an instruction: what they leave, and ASR (R107). -/
theorem Wrote.putFlags (s : State) (c : Nat) (f : RawFlags) : Wrote s (s.putFlags c f) c [] true grpQ := by
  have h := (Wrote.asrW s c (asrWithFlags (s.asrR c) f)).trans (Wrote.dirty _ c grpQ)
  rw [Nat.zero_or] at h
  exact h
theorem State.asrR_putFlags (s : State) (c : Nat) (f : RawFlags) : (s.putFlags c f).asrR c = asrWithFlags (s.asrR c) f := by
  unfold State.putFlags; rw [(Wrote.dirty _ c grpQ).asrR, State.asrR_asrW]

@[simp] theorem State.putSticky_none (s : State) (c : Nat) : s.putSticky c 0#5 false false = s := rfl

/-! The ends of instructions. -/

/-- An instruction whose writes are such, and that ends at the next index, keeps everything else. -/
theorem Wrote.keeps {s t : State} {c m : Nat} {D : List Nat} {q : Bool} (h : Wrote s t c D q m) (hD : ∀ d ∈ D, d < 32)
    (hd : s.dbgOn c = false) : Keeps s (t.retire c .seq) c D q m ∧ (∀ r, (t.retire c .seq).reg c r = t.reg c r) ∧
      (t.retire c .seq).asrR c = t.asrR c ∧ (t.retire c .seq).fsrR c = t.fsrR c := by
  have hdt : t.dbgOn c = false := by
    unfold State.dbgOn State.rb at hd ⊢
    rw [h.regs]; · exact hd
    rintro (⟨j, hj, e | e⟩ | e) <;> simp [Reg.DBG_DBGCTL, Reg.DBG_CNTSEL, Reg.DBG_DBGSTAT] at e <;> omega
  obtain ⟨hold, h1, h2, h3, h4⟩ := t.retire_seq c hdt
  generalize t.retire c .seq = u at h1 h2 h3 h4
  have hcr : ∀ k, u.crR c k = t.crR c k := fun k => by unfold State.crR; rw [h1]; rfl
  have hsn : u.snap c = t.snap c := by unfold State.snap State.cl State.crF; rw [hcr]
  have hch : u.chp c = t.chp c := by unfold State.chp State.crF; rw [hcr]
  have hfile : ∀ f, u.file c f = t.file c f := fun f => by rcases f with _ | _ | _ | _ | f <;> simp [State.file, h1, ended]
  have hreg : ∀ r, u.reg c r = t.reg c r := fun r => by
    rw [State.reg_eq, State.reg_eq t, hfile]; unfold State.homeOf; rw [hsn, hch]
  refine ⟨⟨?_, ?_, ?_, ?_, ?_, ?_, ?_, ?_, ?_, ?_⟩, hreg, ?_, ?_⟩
  · intro f k hm; rw [hfile]; exact h.files f k hm
  · intro r hr hn; rw [hreg]; exact h.reg hD r hr hn
  · intro k hk hn; rw [hcr]; exact h.ctl k hk hn
  · rw [hcr]; exact h.gds
  · intro hn; rw [h1]; exact h.snapSt hn
  · rw [h1]; simp only [ended]; rw [h.core]
  · rw [h1]; simp only [ended]; rw [h.core]
  · intro k hk; rw [h2 k hk, h.others k hk]
  · intro a ha; rw [h4 a ha, h.regs a ha]
  · rw [h3, h.rest]
  · unfold State.asrR; rw [hsn, hcr, h1]; rfl
  · unfold State.fsrR; rw [hsn, hcr, h1]; rfl

end Sys2Proof.Machine
end

