-- ==== Sys2Proof/Laws/Run.lean ====
section
/-!
SUPPORT. What an instruction does when its core is at ease: it runs its body, and what the body commits decides its result.
-/
namespace Sys2Proof.Machine

open Sys2Proof

theorem bitAt_of_fld {x : W64} {hi lo : Nat} (h : fld x hi lo = 0) (i : Nat) (hl : lo ≤ i) (hi' : i ≤ hi) : bitAt x i = false := by
  unfold fld at h
  unfold bitAt
  rw [BitVec.getLsbD]
  have h2 : ((x.toNat >>> lo) % 2 ^ (hi + 1 - lo)).testBit (i - lo) = false := by rw [h]; simp
  rw [Nat.testBit_mod_two_pow, Nat.testBit_shiftRight] at h2
  have : i - lo < hi + 1 - lo := by omega
  simp only [this, decide_true, Bool.true_and] at h2
  rwa [show lo + (i - lo) = i by omega] at h2

theorem findGo_none (p : Nat → Bool) (n i : Nat) (h : ∀ j, i ≤ j → j < i + n → p j = false) : findGo p n i = none := by
  induction n generalizing i with
  | zero => rfl
  | succ n ih =>
    unfold findGo
    rw [h i (by omega) (by omega)]
    simpa using ih (i + 1) (fun j h1 h2 => h j (by omega) (by omega))

/-- No group is absent: no mask finds an absent one. -/
theorem AtEase.absentOf {s : State} {c : Nat} (h : AtEase s c) (m : Nat) : s.absentOf c m = none := by
  unfold State.absentOf
  rcases h.here with h1 | h1
  · simp [h1]
  · split
    · rfl
    · refine findGo_none _ _ _ (fun j _ h2 => ?_)
      have : s.absent c (8 + j) = false := bitAt_of_fld h1 (8 + j) (by omega) (by omega)
      simp [this]

/-- The decode checks pass (R99). -/
theorem AtEase.decodeChk {s : State} {c : Nat} (h : AtEase s c) {p : Pre} (h1 : p.illegal = false) (h2 : p.illegalB = false)
    (h3 : p.badPair = false) (h4 : p.sup = false ∨ s.sup c = true) : s.decodeChk c p = none := by
  unfold State.decodeChk
  have h4 : (p.sup && !s.sup c) = false := by rcases h4 with h4 | h4 <;> simp [h4]
  simp [h1, h2, h3, h4, h.rep, h.absentOf]

/-- At ease, an instruction that decodes is its body, then its retirement, its fault or its wait. -/
theorem AtEase.runCore {s : State} {c : Nat} (h : AtEase s c) {p : Pre} (body : MM Next) (h1 : p.illegal = false)
    (h2 : p.illegalB = false) (h3 : p.badPair = false) (h4 : p.sup = false ∨ s.sup c = true) :
    s.runCore c p body = match body.run s with
      | (.ok n, s') => s'.retire c n
      | (.error (.exn e), s') => s'.takeFault c e (s.xop c (p.opndsOf e) e.mtag)
      | (.error (.wait w), s') => s'.modCore c (fun x => { x with wait := w, accs := [] }) := by
  have hb : s.breakTest c (s.core c).ip.idx = (false, s) := by unfold State.breakTest; simp [h.debug]
  unfold State.runCore
  rw [if_pos h.ready]
  unfold State.fetchRun
  rw [hb]
  show s.runDecoded c p body = _
  unfold State.runDecoded
  rw [h.decodeChk h1 h2 h3 h4] <;> rfl

/-- An operation that commits one register, and no flag and no sticky bit. -/
theorem run_finish_one (s : State) (c d : Nat) (w : Word) (o : MM OpOut) (ho : o.run s = (.ok (Eff.one d w), s)) :
    (finishOp c o).run s = (.ok .seq, s.setReg c d w) := by
  unfold finishOp
  simp only [MM.run_bind, ho, Eff.one]
  simp [applyEff]

/-- An operation that commits one register and the four flags. -/
theorem run_finish_raw (s : State) (c d : Nat) (r : W64 × RawFlags) (o : MM OpOut) (ho : o.run s = (.ok (Eff.raw d r), s)) :
    (finishOp c o).run s = (.ok .seq, (s.setReg c d (fixW r.1)).putFlags c r.2) := by
  unfold finishOp
  simp only [MM.run_bind, ho, Eff.raw]
  simp [applyEff]

/-- A result without sticky bits is a register written. -/
theorem Eff.res_plain (d : Nat) (w : Word) : Eff.res d { word := w } = Eff.one d w := rfl

/-- The shape of the statements about register instructions: the command answers a next state in which register d holds w. -/
theorem gives_of_run {s : State} {c : CoreId} {d : RegN} {w : Word} {p : Pre} {body : MM Next} {i : Instr} (h : AtEase s c.val)
    (hi : exec i s = .next (s.runCore c.val p body)) (h1 : p.illegal = false) (h2 : p.illegalB = false) (h3 : p.badPair = false)
    (h4 : p.sup = false ∨ s.sup c.val = true) (hb : body.run s = (.ok .seq, s.setReg c.val d.val w)) : Gives s i c d w := by
  refine ⟨_, hi, ?_⟩
  rw [h.runCore body h1 h2 h3 h4, hb]
  have k := (Wrote.setReg s c.val d.val w).keeps (by simp [d.isLt]) h.debug
  exact ⟨by rw [k.2.1]; simp, k.1⟩

/-- The same for an instruction that replaces the flags. -/
theorem givesFlags_of_run {s : State} {c : CoreId} {d : RegN} {r : W64 × RawFlags} {p : Pre} {body : MM Next} {i : Instr}
    (h : AtEase s c.val) (hi : exec i s = .next (s.runCore c.val p body)) (h1 : p.illegal = false) (h2 : p.illegalB = false)
    (h3 : p.badPair = false) (h4 : p.sup = false ∨ s.sup c.val = true)
    (hb : body.run s = (.ok .seq, (s.setReg c.val d.val (fixW r.1)).putFlags c.val r.2)) :
    GivesFlags s i c d (fixW r.1) r.2.n r.2.z r.2.c r.2.v := by
  refine ⟨_, hi, ?_⟩
  rw [h.runCore body h1 h2 h3 h4, hb]
  have w := (Wrote.setReg s c.val d.val (fixW r.1)).trans (Wrote.putFlags _ c.val r.2)
  have k := w.keeps (by simp [d.isLt]) h.debug
  refine ⟨?_, ?_, ?_, by simpa using k.1⟩
  · rw [k.2.1]
    rw [State.reg_eq, (Wrote.putFlags _ c.val r.2).home, (Wrote.putFlags _ c.val r.2).files _ _ (by simp), ← State.reg_eq]
    simp
  · rw [k.2.2.1, State.asrR_putFlags, (Wrote.setReg s c.val d.val (fixW r.1)).asrR]; rfl
  · rw [k.2.2.2]
    unfold State.putFlags
    rw [(Wrote.dirty _ c.val grpQ).fsrR]
    rw [State.fsrR_asrW, (Wrote.setReg s c.val d.val (fixW r.1)).fsrR]

end Sys2Proof.Machine
end

