-- ==== Sys2Proof/Laws/Arith.lean ====
section
/-!
SUPPORT. Operations on register words: how the checks of a raw and of a generic operation run, and what they commit.
-/
namespace Sys2Proof.Machine

open Sys2Proof

theorem rawArg_run {s : State} {w : Word} {k : Nat} (h : rawTag w) : (rawArg w k).run s = (.ok (), s) := by
  unfold rawArg
  simp only [MM.run_need]
  rcases h with h | h <;> simp [h]

/-- A raw operation on two registers that writes flags. -/
theorem rawFl2_run {s : State} {c a b d : Nat} {f : W64 → W64 → W64 × RawFlags} (ha : rawTag (s.reg c a)) (hb : rawTag (s.reg c b)) :
    (finishOp c (regs2 c a b (fun x y => rawFl2 d x y f))).run s =
      (.ok .seq, (s.setReg c d (fixW (f (s.reg c a).pay (s.reg c b).pay).1)).putFlags c (f (s.reg c a).pay (s.reg c b).pay).2) := by
  apply run_finish_raw
  simp [regs2, rawFl2, rawArg_run ha, rawArg_run hb]

theorem rawFlImm_run {s : State} {c a d : Nat} {w : Word} {f : W64 → W64 → W64 × RawFlags} (ha : rawTag (s.reg c a)) (hb : rawTag w) :
    (finishOp c (regImm c a w (fun x y => rawFl2 d x y f))).run s =
      (.ok .seq, (s.setReg c d (fixW (f (s.reg c a).pay w.pay).1)).putFlags c (f (s.reg c a).pay w.pay).2) := by
  apply run_finish_raw
  simp [regImm, rawFl2, rawArg_run ha, rawArg_run hb]

/-- DIVW and MODW with a nonzero divisor. -/
theorem rawDiv_run {s : State} {c a b d : Nat} {f : W64 → W64 → W64 × RawFlags} (ha : rawTag (s.reg c a)) (hb : rawTag (s.reg c b))
    (h0 : (s.reg c b).pay ≠ 0#64) :
    (finishOp c (regs2 c a b (fun x y => rawDiv d x y f))).run s =
      (.ok .seq, (s.setReg c d (fixW (f (s.reg c a).pay (s.reg c b).pay).1)).putFlags c (f (s.reg c a).pay (s.reg c b).pay).2) := by
  apply run_finish_raw
  simp [regs2, rawDiv, rawArg_run ha, rawArg_run hb, h0]

/-- An operation that faults ends its instruction with that fault. -/
theorem run_finish_fault {s : State} {c : Nat} {o : MM OpOut} {e : Exn} {t : State} (ho : o.run s = (.error (.exn e), t)) :
    (finishOp c o).run s = (.error (.exn e), t) := by
  unfold finishOp
  simp only [MM.run_bind, ho]

/-- DIVW and MODW of a zero divisor. -/
theorem rawDiv_fault {s : State} {c a b d : Nat} {f : W64 → W64 → W64 × RawFlags} (ha : rawTag (s.reg c a)) (hb : rawTag (s.reg c b))
    (h0 : (s.reg c b).pay = 0#64) :
    (finishOp c (regs2 c a b (fun x y => rawDiv d x y f))).run s = (.error (.exn (.of .div0 2)), s) := by
  apply run_finish_fault
  simp [regs2, rawDiv, rawArg_run ha, rawArg_run hb, h0]

theorem rawOp2_run {s : State} {c a b d : Nat} {f : W64 → W64 → W64} (ha : rawTag (s.reg c a)) (hb : rawTag (s.reg c b)) :
    (finishOp c (regs2 c a b (fun x y => rawOp2 d x y f))).run s = (.ok .seq, s.setReg c d (fixW (f (s.reg c a).pay (s.reg c b).pay))) := by
  apply run_finish_one
  simp [regs2, rawOp2, rawArg_run ha, rawArg_run hb]

theorem rawOpImm_run {s : State} {c a d : Nat} {w : Word} {f : W64 → W64 → W64} (ha : rawTag (s.reg c a)) (hb : rawTag w) :
    (finishOp c (regImm c a w (fun x y => rawOp2 d x y f))).run s = (.ok .seq, s.setReg c d (fixW (f (s.reg c a).pay w.pay))) := by
  apply run_finish_one
  simp [regImm, rawOp2, rawArg_run ha, rawArg_run hb]

theorem rawOp1_run {s : State} {c a d : Nat} {f : W64 → W64} (ha : rawTag (s.reg c a)) :
    (finishOp c (rd c a >>= fun va => rawOp1 d va f)).run s = (.ok .seq, s.setReg c d (fixW (f (s.reg c a).pay))) := by
  apply run_finish_one
  simp [rawOp1, rawArg_run ha]

/-- An instruction whose body faults takes that fault. -/
theorem faults_of_run {s : State} {c : CoreId} {p : Pre} {body : MM Next} {i : Instr} {e : Exn} {o : Opnds} (h : AtEase s c.val)
    (hi : exec i s = .next (s.runCore c.val p body)) (h1 : p.illegal = false) (h2 : p.illegalB = false) (h3 : p.badPair = false)
    (h4 : p.sup = false ∨ s.sup c.val = true) (hb : body.run s = (.error (.exn e), s)) (ho : p.opndsOf e = o) : Faults s i c e o := by
  subst ho
  unfold Faults
  rw [hi, h.runCore body h1 h2 h3 h4, hb]

/-! Generic operations on FIX words. -/

/-- FIX selects no customer routine (R59, R60). -/
theorem microSlot_std (s : State) (w : Word) (h : w.tag.toNat < 0xC0) : s.microSlot w = none := by
  unfold State.microSlot State.ctag
  have : ¬ (0xC0 ≤ w.tag.toNat) := by omega
  simp [this]

theorem numOf_fix (x : Ctx) (s : State) (w : Word) (k : Nat) (h : w.tag = Tag.fix) : (x.numOf w k).run s = (.ok (.int w.pay.toInt), s) := by
  unfold Ctx.numOf
  simp [h]

theorem malformed_fix (s : State) (w : Word) (h : w.tag = Tag.fix ∨ w.tag = Tag.flo ∨ w.tag = Tag.qty) : s.malformed w = false := by
  have hc : s.ctag w.tag = {} := by
    unfold State.ctag
    rcases h with h | h | h <;> rw [h] <;> rfl
  unfold State.malformed State.isPtr builtinPtr
  rw [hc]
  rcases h with h | h | h <;> rw [h] <;> rfl

theorem numTag_ok (s : State) (w : Word) (chr : Bool) (k : Nat) (h : w.tag = Tag.fix ∨ w.tag = Tag.flo ∨ w.tag = Tag.qty) :
    (numTag w chr k).run s = (.ok (), s) := by
  unfold numTag
  simp only [MM.run_bind, MM.run_get, MM.run_need, malformed_fix s w h]
  rcases h with h | h | h <;> simp [numericTag, h]

theorem isFixI_iff (i : Int) : isFixI i = true ↔ ¬ outOf64 i := by
  unfold isFixI outOf64
  simp

/-- An integer result in the FIX range is a FIX word (R110). -/
theorem genWord_fix (x : Ctx) (s : State) (c : Nat) (i : Int) (ff : FFlags) (q : Bool) (h : ¬ outOf64 i) :
    (genWord x c false (.ok { val := .int i, ff := ff, qnx := q })).run s =
      (.ok { word := fixI i, ff := ff, qnx := q, prom := false }, s) := by
  have hf := (isFixI_iff i).2 h
  unfold genWord Ctx.numWord Ctx.intWord
  simp [hf, fixI, Tag.fix, Tag.big]

/-- Accepted FIX operands have no TAG fault. -/
theorem tagArgs_fix (x : Ctx) (s : State) (l m : List (Word × Nat × Bool)) (h : ∀ e ∈ m, e.1.tag = Tag.fix ∧ e.2.2 = true) :
    (tagArgs x l m).run s = (.ok (), s) := by
  induction m with
  | nil => rfl
  | cons e m ih =>
    obtain ⟨h1, h2⟩ := h e (by simp)
    have hb : (e.1.tag == Tag.big) = false := by rw [h1]; rfl
    unfold tagArgs
    simp only [MM.run_bind, MM.run_get, MM.run_need, malformed_fix s e.1 (Or.inl h1), h2, hb]
    simpa using ih (fun e he => h e (by simp [he]))

theorem num2_fix (x : Ctx) (s : State) (a b : Word) (acc : Tag → Bool) (ha : a.tag = Tag.fix) (hb : b.tag = Tag.fix) (hc : acc Tag.fix = true) :
    (num2 x a b acc).run s = (.ok (.int a.pay.toInt, .int b.pay.toInt), s) := by
  have hp : ((a.tag == Tag.chr) == (b.tag == Tag.chr)) = true := by rw [ha, hb]; rfl
  have ht := tagArgs_fix x s [(a, 1, acc a.tag), (b, 2, acc b.tag)] [(a, 1, acc a.tag), (b, 2, acc b.tag)] (by simp [ha, hb, hc])
  unfold num2
  simp only [MM.run_bind, ht, MM.run_need, hp, MM.run_pure]
  simp [numOf_fix x s a 1 ha, numOf_fix x s b 2 hb]

theorem opTags_fix (op : Arith.Op2) : opTags op Tag.fix = true := by cases op <;> rfl

theorem genArith_fix (x : Ctx) (s : State) (c : Nat) (op : Arith.Op2) (a b : Word) (r : Int) (ha : a.tag = Tag.fix) (hb : b.tag = Tag.fix)
    (hr : Arith.intOp op a.pay.toInt b.pay.toInt = .ok { val := .int r }) (h : ¬ outOf64 r) :
    (genArith x c op a b).run s = (.ok { word := fixI r }, s) := by
  unfold genArith
  simp only [MM.run_bind, num2_fix x s a b (opTags op) ha hb (opTags_fix op), MM.run_get]
  have hbig : (a.tag == Tag.big || b.tag == Tag.big) = false := by rw [ha, hb]; rfl
  rw [hbig, show Arith.op2 op (.int a.pay.toInt) (.int b.pay.toInt) (s.fsrRm c) (s.fsrTdz c) = Arith.intOp op a.pay.toInt b.pay.toInt from rfl,
    hr, genWord_fix x s c r 0#5 false h]

theorem genArith_fault (x : Ctx) (s : State) (c : Nat) (op : Arith.Op2) (a b : Word) (e : Exn) (ha : a.tag = Tag.fix) (hb : b.tag = Tag.fix)
    (hr : Arith.intOp op a.pay.toInt b.pay.toInt = .error e) : (genArith x c op a b).run s = (.error (.exn e), s) := by
  unfold genArith
  simp only [MM.run_bind, num2_fix x s a b (opTags op) ha hb (opTags_fix op), MM.run_get]
  rw [show Arith.op2 op (.int a.pay.toInt) (.int b.pay.toInt) (s.fsrRm c) (s.fsrTdz c) = Arith.intOp op a.pay.toInt b.pay.toInt from rfl, hr]
  rfl

/-- A generic operation whose result adds no sticky bit, on two registers and on a register and an immediate. -/
theorem genBin_run {s : State} {op c a b d : Nat} {g : MM GRes} {w : Word} (ha : (s.reg c a).tag = Tag.fix) (hb : (s.reg c b).tag = Tag.fix)
    (hg : genOp (s.coreCtx c) c op (s.reg c a) (s.reg c b) = some g) (hw : g.run s = (.ok { word := w }, s)) :
    (finishOp c (genBin op c d a b)).run s = (.ok .seq, s.setReg c d w) := by
  apply run_finish_one
  unfold genBin genericOp
  have h1 := microSlot_std s (s.reg c a) (by rw [ha]; decide)
  have h2 := microSlot_std s (s.reg c b) (by rw [hb]; decide)
  simp only [MM.run_bind, run_rd, MM.run_get, List.findSome?, h1, h2, hg, MM.run_map, hw, Eff.res_plain]

theorem genImm_run {s : State} {op base c a d : Nat} {v : Word} {g : MM GRes} {w : Word} (ha : (s.reg c a).tag = Tag.fix)
    (hg : genOp (s.coreCtx c) c base (s.reg c a) v = some g) (hw : g.run s = (.ok { word := w }, s)) :
    (finishOp c (genImm op base c d a v)).run s = (.ok .seq, s.setReg c d w) := by
  apply run_finish_one
  unfold genImm genericOp
  have h1 := microSlot_std s (s.reg c a) (by rw [ha]; decide)
  simp only [MM.run_bind, run_rd, MM.run_get, List.findSome?, h1, hg, MM.run_map, hw, Eff.res_plain]

theorem genUn_run {s : State} {op c a d : Nat} {f : Ctx → Nat → Word → MM GRes} {w : Word} (ha : (s.reg c a).tag = Tag.fix)
    (hw : (f (s.coreCtx c) c (s.reg c a)).run s = (.ok { word := w }, s)) :
    (finishOp c (genUn op c d a f)).run s = (.ok .seq, s.setReg c d w) := by
  apply run_finish_one
  unfold genUn genericOp
  have h1 := microSlot_std s (s.reg c a) (by rw [ha]; decide)
  simp only [MM.run_bind, run_rd, MM.run_get, List.findSome?, h1, MM.run_map, hw, Eff.res_plain]

theorem genBin_fault {s : State} {op c a b d : Nat} {g : MM GRes} {e : Exn} (ha : (s.reg c a).tag = Tag.fix) (hb : (s.reg c b).tag = Tag.fix)
    (hg : genOp (s.coreCtx c) c op (s.reg c a) (s.reg c b) = some g) (hw : g.run s = (.error (.exn e), s)) :
    (finishOp c (genBin op c d a b)).run s = (.error (.exn e), s) := by
  apply run_finish_fault
  unfold genBin genericOp
  have h1 := microSlot_std s (s.reg c a) (by rw [ha]; decide)
  have h2 := microSlot_std s (s.reg c b) (by rw [hb]; decide)
  simp only [MM.run_bind, run_rd, MM.run_get, List.findSome?, h1, h2, hg, MM.run_map, hw]

end Sys2Proof.Machine
end

