-- ==== Sys2Proof/Laws/Ecc.lean ====
section
/-!
SUPPORT. The check bits of a stored word: what is encoded decodes to itself with no error (R230, R231).
-/
namespace Sys2Proof.Machine

open Sys2Proof

namespace Ecc

theorem pos_lt (k : Nat) (h : k < 72) : pos k < 128 := by unfold pos; split_ifs <;> omega

theorem hamming_lt (k d : Nat) (h : k ≤ 72) : hamming k d < 128 := by
  induction k with
  | zero => simp [hamming]
  | succ k ih =>
    unfold hamming
    split
    · exact Nat.xor_lt_two_pow (n := 7) (ih (by omega)) (pos_lt k (by omega))
    · exact ih (by omega)

theorem popCount_succ (k n : Nat) : popCount (k + 1) n = n % 2 + popCount k (n / 2) := rfl

theorem popCount_add (j k a b : Nat) (h : a < 2 ^ j) : popCount (j + k) (a + b * 2 ^ j) = popCount j a + popCount k b := by
  induction j generalizing a with
  | zero => simp only [pow_zero] at h; have : a = 0 := by omega
            subst this; simp [popCount]
  | succ j ih =>
    rw [show j + 1 + k = (j + k) + 1 by omega, popCount_succ, popCount_succ]
    have h1 : (a + b * 2 ^ (j + 1)) % 2 = a % 2 := by
      rw [Nat.pow_succ, ← Nat.mul_assoc, Nat.add_mul_mod_self_right]
    have h2 : (a + b * 2 ^ (j + 1)) / 2 = a / 2 + b * 2 ^ j := by
      rw [Nat.pow_succ, ← Nat.mul_assoc, Nat.add_mul_div_right _ _ (by decide)]
    rw [h1, h2, ih _ (by rw [Nat.pow_succ] at h; omega)]
    omega

theorem dataOf_lt (w : Word) : dataOf w < 2 ^ 72 := by
  unfold dataOf
  have h1 := w.pay.isLt
  have h2 := w.tag.isLt
  omega

theorem check_lt (d : Nat) : check d < 256 := by
  unfold check
  have := hamming_lt 72 d (by omega)
  dsimp only
  omega

theorem wordOf_dataOf (w : Word) : wordOf (dataOf w) = w := by
  unfold wordOf dataOf
  have h1 := w.pay.isLt
  have h2 : (w.pay.toNat + w.tag.toNat * 2 ^ 64) / 2 ^ 64 = w.tag.toNat := by omega
  rw [h2]
  congr 1
  · simp
  · apply BitVec.eq_of_toNat_eq
    simp only [BitVec.toNat_ofNat]
    omega

theorem check_mod (d : Nat) : check d % 128 = hamming 72 d := by
  have hh := hamming_lt 72 d (by omega)
  unfold check
  generalize hamming 72 d = c at hh ⊢
  dsimp only
  omega

theorem parity_check (d : Nat) (hd : d < 2 ^ 72) : parity 80 (d + check d * 2 ^ 72) = 0 := by
  have hh := hamming_lt 72 d (by omega)
  have h8 : popCount 8 (check d) = popCount 7 (hamming 72 d) + (parity 72 d + parity 7 (hamming 72 d)) % 2 := by
    unfold check
    generalize hamming 72 d = c at hh ⊢
    dsimp only
    generalize parity 72 d + parity 7 c = q
    have := popCount_add 7 1 c (q % 2) hh
    simp only [Nat.reduceAdd, Nat.reducePow] at this
    rw [this, popCount_succ 0]
    simp [popCount]
  have h := popCount_add 72 8 d (check d) hd
  unfold parity at h8 ⊢
  generalize hamming 72 d = c at h8
  simp only [Nat.reduceAdd] at h
  rw [h, h8]
  generalize popCount 72 d = u
  generalize popCount 7 c = v
  omega

theorem stored_toNat (d c : Nat) (hd : d < 2 ^ 72) (hc : c < 256) : (BitVec.ofNat 80 (d + c * 2 ^ 72)).toNat = d + c * 2 ^ 72 := by
  rw [BitVec.toNat_ofNat, Nat.mod_eq_of_lt]; omega

theorem dataOf_zero (w : Word) (h : dataOf w = 0) : w = Word.void := by
  rw [← wordOf_dataOf w, h]; rfl

theorem syndrome_stored (d : Nat) (hd : d < 2 ^ 72) : syndrome (BitVec.ofNat 80 (d + check d * 2 ^ 72)) = (0, 0) := by
  have hm : (d + check d * 2 ^ 72) % 2 ^ 72 = d := by rw [Nat.add_mul_mod_self_right, Nat.mod_eq_of_lt hd]
  have hq : (d + check d * 2 ^ 72) / 2 ^ 72 = check d := by
    rw [Nat.add_mul_div_right _ _ (by positivity), Nat.div_eq_of_lt hd, Nat.zero_add]
  unfold syndrome
  rw [stored_toNat d _ hd (check_lt d)]
  dsimp only
  rw [hm, hq, check_mod, Nat.xor_self, parity_check d hd]

/-- A word encoded decodes to itself, with no error. -/
theorem decode_encode (w : Word) : decode (encode w) = (w, .ok) := by
  unfold encode
  split
  · rename_i h; subst h; simp [decode]
  · rename_i h
    have hd := dataOf_lt w
    have hz : BitVec.ofNat 80 (dataOf w + check (dataOf w) * 2 ^ 72) ≠ 0#80 := by
      intro e
      have e := congrArg BitVec.toNat e
      rw [stored_toNat _ _ hd (check_lt _)] at e
      have e2 : dataOf w + check (dataOf w) * 2 ^ 72 = 0 := e
      exact h (dataOf_zero w (by omega))
    have hs := syndrome_stored _ hd
    have hn := stored_toNat _ _ hd (check_lt (dataOf w))
    have hm : (dataOf w + check (dataOf w) * 2 ^ 72) % 2 ^ 72 = dataOf w := by rw [Nat.add_mul_mod_self_right, Nat.mod_eq_of_lt hd]
    generalize BitVec.ofNat 80 (dataOf w + check (dataOf w) * 2 ^ 72) = x at hz hs hn
    unfold decode
    rw [if_neg hz, hs, hn, hm]
    dsimp only
    rw [if_pos rfl, if_pos rfl, wordOf_dataOf]

/-- Flipping bits 0 and 7 keeps the parity of a byte. -/
theorem popCount_flip : ∀ c, c < 256 → popCount 8 (c ^^^ 0x81) % 2 = popCount 8 c % 2 := by decide +kernel

/-- A word poisoned decodes to itself, uncorrectable (R232). -/
theorem decode_poison (w : Word) : decode (poison w) = (w, .uncorr) := by
  have hd := dataOf_lt w
  have hc : check (dataOf w) ^^^ 0x81 < 256 := Nat.xor_lt_two_pow (n := 8) (check_lt _) (by decide)
  have hn := stored_toNat _ _ hd hc
  have hm : (dataOf w + (check (dataOf w) ^^^ 0x81) * 2 ^ 72) % 2 ^ 72 = dataOf w := by rw [Nat.add_mul_mod_self_right, Nat.mod_eq_of_lt hd]
  have hq : (dataOf w + (check (dataOf w) ^^^ 0x81) * 2 ^ 72) / 2 ^ 72 = check (dataOf w) ^^^ 0x81 := by
    rw [Nat.add_mul_div_right _ _ (by positivity), Nat.div_eq_of_lt hd, Nat.zero_add]
  have hs : (check (dataOf w) ^^^ 0x81) % 128 ^^^ hamming 72 (dataOf w) = 1 := by
    have h := Nat.xor_mod_two_pow (a := check (dataOf w)) (b := 0x81) (n := 7)
    rw [show (2 : Nat) ^ 7 = 128 from rfl, check_mod] at h
    rw [h, Nat.xor_comm (hamming 72 (dataOf w)), Nat.xor_assoc, Nat.xor_self]
    rfl
  have hp : parity 80 (dataOf w + (check (dataOf w) ^^^ 0x81) * 2 ^ 72) = 0 := by
    have h0 := parity_check _ hd
    have h1 := popCount_add 72 8 (dataOf w) (check (dataOf w)) hd
    have h2 := popCount_add 72 8 (dataOf w) (check (dataOf w) ^^^ 0x81) hd
    have h3 := popCount_flip _ (check_lt (dataOf w))
    unfold parity at h0 ⊢
    simp only [Nat.reduceAdd] at h1 h2
    rw [h1] at h0
    rw [h2]
    omega
  have hz : poison w ≠ 0#80 := by
    intro e
    have e := congrArg BitVec.toNat e
    unfold poison at e
    rw [hn] at e
    have e2 : dataOf w + (check (dataOf w) ^^^ 0x81) * 2 ^ 72 = 0 := e
    rw [show dataOf w = 0 by omega] at e2
    revert e2
    decide
  have hy : syndrome (poison w) = (1, 0) := by
    unfold syndrome poison
    rw [hn]
    dsimp only
    rw [hm, hq, hs, hp]
  unfold decode
  rw [if_neg hz, hy]
  unfold poison
  rw [hn, hm]
  simp [wordOf_dataOf]

end Ecc

end Sys2Proof.Machine
end

