-- ==== Sys2Proof/Laws/Cache.lean ====
section
/-!
SUPPORT. The caches move words and change none: filling, evicting, cleaning and writing back leave every word reading as it did, and keep
memory in its canonical form.
-/
namespace Sys2Proof.Machine

open Sys2Proof

/-- The placement of words has moved, and errors met on the way have been corrected or recorded; every word reads as it did. -/
structure Placed (s t : State) : Prop where
  word : ∀ pa, (t.peekWord pa).1 = (s.peekWord pa).1
  good : ∀ pa, (t.peekWord pa).2 = .uncorr ↔ (s.peekWord pa).2 = .uncorr
  core : ∀ c, t.core c = { s.core c with resv := (t.core c).resv }
  resv : ∀ c, (t.core c).resv = (s.core c).resv ∨ (t.core c).resv = none
  regs : ∀ a, ¬ cacheRegs a → t.ioR a = s.ioR a
  wf   : Memory.wf s.mem = true → Memory.wf t.mem = true
  rest : t = { s with mem := t.mem, l1d := t.l1d, l2 := t.l2, l3 := t.l3, l1i := t.l1i, tags := t.tags, vbuf := t.vbuf, shuf := t.shuf,
                      io := t.io, cores := t.cores, pulses := t.pulses, faultIn := t.faultIn, fills := t.fills }

namespace Placed

variable {s t u : State}

theorem refl (s : State) : Placed s s := ⟨fun _ => rfl, fun _ => Iff.rfl, fun _ => rfl, fun _ => Or.inl rfl, fun _ _ => rfl, id, rfl⟩

theorem trans (h : Placed s t) (k : Placed t u) : Placed s u where
  word pa := (k.word pa).trans (h.word pa)
  good pa := (k.good pa).trans (h.good pa)
  core c := by rw [k.core c, h.core c]
  resv c := by
    rcases k.resv c with e | e
    · rw [e]; exact h.resv c
    · exact Or.inr e
  regs a ha := (k.regs a ha).trans (h.regs a ha)
  wf hw := k.wf (h.wf hw)
  rest := by rw [k.rest, h.rest]

theorem ite (b : Bool) (h : Placed s t) (k : Placed s u) : Placed s (if b then t else u) := by cases b <;> simpa

theorem snd {α : Type} {p : Prop} [Decidable p] {x y : α × State} (h : p → Placed s x.2) (k : ¬ p → Placed s y.2) :
    Placed s (if p then x else y).2 := by
  split
  · exact h ‹_›
  · exact k ‹_›

theorem dite {p : Prop} [Decidable p] (h : p → Placed s t) (k : ¬ p → Placed s u) : Placed s (if p then t else u) := by
  split
  · exact h ‹_›
  · exact k ‹_›

theorem foldl {α : Type} (l : List α) (f : State → α → State) (h : ∀ s x, x ∈ l → Placed s (f s x)) (s : State) :
    Placed s (l.foldl f s) := by
  induction l generalizing s with
  | nil => exact refl s
  | cons x l ih => exact (h s x (by simp)).trans (ih (fun s y hy => h s y (by simp [hy])) (f s x))

theorem forN (n : Nat) (f : Nat → State → State) (h : ∀ s i, i < n → Placed s (f i s)) (s : State) : Placed s (forN n f s) :=
  foldl _ _ (fun s i hi => h s i (by simpa using hi)) s

/-- A change that no word's reading looks at. -/
theorem of_view (hv : ∀ pa, t.view pa = s.view pa) (hc : ∀ c, t.core c = { s.core c with resv := (t.core c).resv })
    (hq : ∀ c, (t.core c).resv = (s.core c).resv ∨ (t.core c).resv = none)
    (hr : ∀ a, ¬ cacheRegs a → t.ioR a = s.ioR a) (hw : Memory.wf s.mem = true → Memory.wf t.mem = true)
    (hs : t = { s with mem := t.mem, l1d := t.l1d, l2 := t.l2, l3 := t.l3, l1i := t.l1i, tags := t.tags, vbuf := t.vbuf, shuf := t.shuf,
                       io := t.io, cores := t.cores, pulses := t.pulses, faultIn := t.faultIn, fills := t.fills }) : Placed s t :=
  ⟨fun pa => by unfold State.peekWord; rw [hv], fun pa => by unfold State.peekWord; rw [hv], hc, hq, hr, hw, hs⟩

theorem tags (s : State) (x : Tab TagEnt) : Placed s { s with tags := x } := of_view (fun _ => rfl) (fun _ => rfl) (fun _ => Or.inl rfl) (fun _ _ => rfl) id rfl
theorem fills (s : State) (x : List (CoreId × Nat × Bool)) : Placed s { s with fills := x } :=
  of_view (fun _ => rfl) (fun _ => rfl) (fun _ => Or.inl rfl) (fun _ _ => rfl) id rfl
theorem vbuf (s : State) (x : List (Nat × Nat)) : Placed s { s with vbuf := x } :=
  of_view (fun _ => rfl) (fun _ => rfl) (fun _ => Or.inl rfl) (fun _ _ => rfl) id rfl
theorem shuf (s : State) (x : Tab (BitVec 16)) : Placed s { s with shuf := x } :=
  of_view (fun _ => rfl) (fun _ => rfl) (fun _ => Or.inl rfl) (fun _ _ => rfl) id rfl
theorem l1i (s : State) (x : Tab (Option Stored)) : Placed s { s with l1i := x } :=
  of_view (fun _ => rfl) (fun _ => rfl) (fun _ => Or.inl rfl) (fun _ _ => rfl) id rfl
theorem pulse (s : State) (n : Nat) : Placed s (s.pulse n) := of_view (fun _ => rfl) (fun _ => rfl) (fun _ => Or.inl rfl) (fun _ _ => rfl) id rfl
theorem raiseFault (s : State) (i p c : Nat) : Placed s (s.raiseFault i p c) := by
  unfold State.raiseFault
  split
  · exact refl s
  · exact of_view (fun _ => rfl) (fun _ => rfl) (fun _ => Or.inl rfl) (fun _ _ => rfl) id rfl

theorem unresv (s : State) (c : Nat) : Placed s (s.modCore c (fun x => { x with resv := none })) :=
  of_view (fun _ => rfl) (fun k => by
    by_cases h : k = c
    · subst h; simp
    · rw [State.core_modCore_ne _ _ _ _ h]) (fun k => by
    by_cases h : k = c
    · subst h; simp
    · rw [State.core_modCore_ne _ _ _ _ h]; exact Or.inl rfl) (fun _ _ => rfl) id rfl

theorem of_only {P : Nat → Prop} (h : OnlyRegs P s t) (hp : ∀ a, P a → cacheRegs a) : Placed s t := by
  have hr := h.rest
  refine of_view (fun pa => ?_) (fun c => ?_) (fun c => Or.inl (by rw [h.core])) (fun a ha => h.regs a (fun p => ha (hp a p))) ?_ ?_
  · unfold State.view; rw [hr]
  · rw [h.core]
  · rw [hr]; exact id
  · rw [hr]

end Placed

theorem State.countCore_place (s : State) (c ev n : Nat) (hc : c < 64) : Placed s (s.countCore c ev n) := by
  unfold State.countCore
  refine Placed.forN _ _ (fun t j hj => ?_) s
  dsimp only
  refine Placed.ite _ (Placed.of_only (P := cacheRegs) (OnlyRegs.countAt t _ _ ?_ ?_) (fun _ h => h)) (Placed.refl _)
  · exact Or.inl (Exists.intro c (Exists.intro j (And.intro hc (And.intro hj (Or.inl rfl)))))
  · exact Or.inl (Exists.intro c (Exists.intro j (And.intro hc (And.intro hj (Or.inr rfl)))))

theorem State.countCl_place (s : State) (k ev i n : Nat) (hk : k < 8) : Placed s (s.countCl k ev i n) := by
  unfold State.countCl
  refine Placed.forN _ _ (fun t j hj => ?_) s
  dsimp only
  refine Placed.ite _ (Placed.of_only (P := cacheRegs) (OnlyRegs.countAt t _ _ ?_ ?_) (fun _ h => h)) (Placed.refl _)
  · exact Or.inr (Or.inl (Exists.intro k (Exists.intro j (And.intro hk (And.intro hj (Or.inl rfl))))))
  · exact Or.inr (Or.inl (Exists.intro k (Exists.intro j (And.intro hk (And.intro hj (Or.inr rfl))))))

theorem State.countUn_place (s : State) (ev i n : Nat) : Placed s (s.countUn ev i n) := by
  unfold State.countUn
  refine Placed.forN _ _ (fun t j hj => ?_) s
  dsimp only
  refine Placed.ite _ (Placed.of_only (P := cacheRegs) (OnlyRegs.countAt t _ _ ?_ ?_) (fun _ h => h)) (Placed.refl _)
  · exact Or.inr (Or.inr (Or.inl (Exists.intro j (And.intro hj (Or.inl rfl)))))
  · exact Or.inr (Or.inr (Or.inl (Exists.intro j (And.intro hj (Or.inr rfl)))))

theorem State.setTag_place (s : State) (id set way : Nat) (e : TagEnt) : Placed s (s.setTag id set way e) := Placed.tags s _

theorem State.modTag_place (s : State) (id line : Nat) (f : TagEnt → TagEnt) : Placed s (s.modTag id line f) := by
  unfold State.modTag
  split
  · exact s.setTag_place ..
  · exact Placed.refl s

/-- A dirty word that moves one level down still reads the same. -/
theorem State.dropWord_place (s : State) (lvl pa : Nat) : Placed s (s.dropWord lvl pa) := by
  unfold State.dropWord
  split
  · split
    · rename_i x hx
      refine Placed.of_view (fun q => ?_) (fun _ => rfl) (fun _ => Or.inl rfl) (fun _ _ => rfl) (fun h => h) rfl
      unfold State.view
      dsimp only
      by_cases h : q = pa
      · subst h; simp [hx]
      · rw [Tab.get_set_ne _ _ _ _ _ _ h, Tab.get_set_ne _ _ _ _ _ _ h]
    · exact Placed.refl s
  · split
    · rename_i x hx
      refine Placed.of_view (fun q => ?_) (fun _ => rfl) (fun _ => Or.inl rfl) (fun _ _ => rfl) (fun h => h) rfl
      unfold State.view
      dsimp only
      by_cases h : q = pa
      · subst h; simp [hx]
      · rw [Tab.get_set_ne _ _ _ _ _ _ h, Tab.get_set_ne _ _ _ _ _ _ h]
    · exact Placed.refl s
  · split
    · rename_i x hx
      refine Placed.of_view (fun q => ?_) (fun _ => rfl) (fun _ => Or.inl rfl) (fun _ _ => rfl) (fun h => Tab.wf_set _ _ _ _ h) rfl
      unfold State.view
      dsimp only
      by_cases h : q = pa
      · subst h; simp [hx]
      · rw [Tab.get_set_ne _ _ _ _ _ _ h, Tab.get_set_ne _ _ _ _ _ _ h]
    · exact Placed.refl s

/-- A word of DRAM stored in another form that decodes to the same word, errors corrected, reads the same. -/
theorem Placed.restore (s : State) (pa : Nat) (x : Stored) (h1 : (Ecc.decode x).1 = (Ecc.decode (Tab.get s.mem pa 0#80)).1)
    (h2 : (Ecc.decode x).2 = .uncorr ↔ (Ecc.decode (Tab.get s.mem pa 0#80)).2 = .uncorr) :
    Placed s { s with mem := Tab.set s.mem pa x 0#80 } := by
  have key : ∀ q, ((({ s with mem := Tab.set s.mem pa x 0#80 } : State).peekWord q) = s.peekWord q) ∨
      ((({ s with mem := Tab.set s.mem pa x 0#80 } : State).peekWord q) = Ecc.decode x ∧ s.peekWord q = Ecc.decode (Tab.get s.mem pa 0#80)) := by
    intro q
    unfold State.peekWord State.view
    dsimp only
    by_cases hq : q = pa
    · subst hq
      split
      · exact Or.inl rfl
      · split
        · exact Or.inl rfl
        · split
          · exact Or.inl rfl
          · rw [Tab.get_set]; exact Or.inr ⟨rfl, rfl⟩
    · rw [Tab.get_set_ne _ _ _ _ _ _ hq]; exact Or.inl rfl
  refine ⟨fun q => ?_, fun q => ?_, fun _ => rfl, fun _ => Or.inl rfl, fun _ _ => rfl, fun hw => Tab.wf_set _ _ _ _ hw, rfl⟩
  · rcases key q with e | ⟨e, f⟩
    · rw [e]
    · rw [e, f, h1]
  · rcases key q with e | ⟨e, f⟩
    · rw [e]
    · rw [e, f, h2]

/-- What DRAM holds, corrected in place, reads the same. -/
theorem Placed.heal (s : State) (pa : Nat) (w : Word) (h : Ecc.decode (Tab.get s.mem pa 0#80) = (w, .corrected)) :
    Placed s { s with mem := Tab.set s.mem pa (Ecc.encode w) 0#80 } :=
  Placed.restore s pa _ (by rw [h, Ecc.decode_encode]) (by rw [h, Ecc.decode_encode]; simp)

/-- A line written back clean with its delivered poison reads the same (R232). -/
theorem State.poisonClean_place (s : State) (line : Nat) : Placed s (s.poisonClean line) := by
  unfold State.poisonClean
  refine Placed.forN _ _ (fun t i _ => ?_) s
  dsimp only
  refine Placed.dite (fun h => ?_) (fun _ => Placed.refl _)
  simp only [Bool.and_eq_true, beq_iff_eq] at h
  have hp := Ecc.decode_poison (Ecc.decode (Tab.get t.mem (8 * line + i) 0#80)).1
  exact Placed.restore t _ _ (by rw [hp]) (by rw [hp]; simp [h.1])

theorem State.dropLine_place (s : State) (lvl line : Nat) : Placed s (s.dropLine lvl line) := by
  unfold State.dropLine
  exact (Placed.ite _ ((s.poisonClean_place line).trans (State.countUn_place ..)) (Placed.refl _)).trans (Placed.forN _ _ (fun t i _ => t.dropWord_place ..) _)

theorem State.settle_place (s : State) (line : Nat) : Placed s (s.settle line) := by
  unfold State.settle
  have h1 : Placed s (if s.dirtyAt 2 line then
      (match s.l2Holders line with
       | k :: _ => s.modTag (cL2 k) line (fun e => { e with dirty := true })
       | [] => if s.vbuf.any (fun v => levelOf v.1 == 2 && v.2 == line) then s else s.dropLine 2 line)
    else s) := by
    refine Placed.ite _ ?_ (Placed.refl _)
    split
    · exact s.modTag_place ..
    · exact Placed.ite _ (Placed.refl _) (s.dropLine_place ..)
  refine h1.trans ?_
  generalize (if s.dirtyAt 2 line then _ else s) = t
  refine Placed.ite _ ?_ (Placed.refl _)
  exact Placed.ite _ (t.modTag_place ..) (Placed.ite _ (Placed.refl _) (t.dropLine_place ..))

theorem State.dropL1I_place (s : State) (c line : Nat) : Placed s (s.dropL1I c line) := by
  unfold State.dropL1I
  exact (s.modTag_place ..).trans (Placed.forN _ _ (fun t i _ => Placed.l1i t _) _)

theorem State.clearResvCore_place (s : State) (c line : Nat) : Placed s (s.clearResvCore c line) := by
  unfold State.clearResvCore
  exact Placed.ite _ (Placed.unresv ..) (Placed.refl _)

theorem State.clearResv_place (s : State) (line : Nat) : Placed s (s.clearResv line) :=
  Placed.foldl _ _ (fun t _ _ => t.clearResvCore_place ..) s

theorem State.cleanL1D_place (s : State) (c line : Nat) (hc : c < 64) : Placed s (s.cleanL1D c line) := by
  unfold State.cleanL1D
  exact Placed.ite _ ((((s.countCore_place c _ _ hc).trans (State.dropLine_place ..)).trans (State.modTag_place ..)).trans
    (State.settle_place ..)) (Placed.refl _)

theorem State.evictL1D_place (s : State) (c line : Nat) (hc : c < 64) : Placed s (s.evictL1D c line) := by
  unfold State.evictL1D
  exact Placed.ite _ (((s.cleanL1D_place c line hc).trans (State.modTag_place ..)).trans (State.clearResvCore_place ..)) (Placed.refl _)

theorem State.evictL1s_place (s : State) (k line : Nat) (hk : k < 8) : Placed s (s.evictL1s k line) := by
  refine Placed.foldl _ _ (fun t j hj => ?_) s
  have hj : j < 8 := by simpa using hj
  exact (t.evictL1D_place _ line (by omega)).trans (Placed.ite _ (State.dropL1I_place ..) (Placed.refl _))

theorem State.cleanL2_place (s : State) (k line : Nat) (hk : k < 8) : Placed s (s.cleanL2 k line) := by
  unfold State.cleanL2
  have h1 : Placed s ((List.range 8).foldl (fun s j => s.cleanL1D (8 * k + j) line) s) :=
    Placed.foldl _ _ (fun t j hj => t.cleanL1D_place _ line (by rw [List.mem_range] at hj; omega)) s
  dsimp only
  refine h1.trans ?_
  generalize (List.range 8).foldl (fun s j => s.cleanL1D (8 * k + j) line) s = t
  have h2 : Placed t (if t.dirtyAt 2 line then t.countCl k 4 0 else t) := Placed.ite _ (t.countCl_place k _ _ _ hk) (Placed.refl _)
  refine h2.trans ?_
  exact ((State.dropLine_place ..).trans (State.modTag_place ..)).trans (State.settle_place ..)

theorem State.evictL2_place (s : State) (k line : Nat) (hk : k < 8) : Placed s (s.evictL2 k line) := by
  unfold State.evictL2
  exact Placed.ite _ (((s.evictL1s_place k line hk).trans (State.cleanL2_place _ k line hk)).trans (State.modTag_place ..)) (Placed.refl _)

theorem State.evictL3_place (s : State) (line : Nat) : Placed s (s.evictL3 line) := by
  unfold State.evictL3
  have h1 : Placed s ((List.range 8).foldl (fun s k => s.evictL2 k line) s) :=
    Placed.foldl _ _ (fun t k hk => t.evictL2_place k line (by simpa using hk)) s
  dsimp only
  refine h1.trans ?_
  exact Placed.ite _ ((State.dropLine_place ..).trans (State.modTag_place ..)) (Placed.refl _)

theorem State.vbufAck_place (s : State) (id line : Nat) : Placed s (s.vbufAck id line) := by
  unfold State.vbufAck
  exact ((Placed.vbuf s _).trans (State.dropLine_place ..)).trans (State.settle_place ..)

theorem State.victimize_place (s : State) (id set way : Nat) : Placed s (s.victimize id set way) := by
  unfold State.victimize
  dsimp only
  refine Placed.ite _ (Placed.refl _) ?_
  split
  · exact s.dropL1I_place ..
  · rename_i lvl h0
    generalize (s.tagAt id set way).line = line
    have hid : levelOf id = 0 ∧ id < 64 ∨ levelOf id = 1 ∧ 64 ≤ id ∧ id < 128 ∨ levelOf id = 2 ∧ 128 ≤ id ∧ id < 136 ∨ levelOf id = 3 ∧ 136 ≤ id := by
      unfold levelOf; split_ifs <;> omega
    have h1 : Placed s (if levelOf id = 2 then s.evictL1s (id - 128) line
        else if levelOf id = 3 then (List.range 8).foldl (fun s k => s.evictL2 k line) s
        else s.clearResvCore (id - 64) line) := by
      split_ifs with h2 h3
      · exact s.evictL1s_place _ _ (by omega)
      · exact Placed.foldl _ _ (fun t k hk => t.evictL2_place k line (by simpa using hk)) s
      · exact s.clearResvCore_place ..
    refine h1.trans ?_
    generalize (if levelOf id = 2 then s.evictL1s (id - 128) line
        else if levelOf id = 3 then (List.range 8).foldl (fun s k => s.evictL2 k line) s
        else s.clearResvCore (id - 64) line) = t
    have h2 := t.setTag_place id set way {}
    refine Placed.ite _ ?_ h2
    refine h2.trans ?_
    generalize t.setTag id set way {} = v
    have h3 : Placed v (if levelOf id = 1 then v.countCore (id - 64) 0x07 else if levelOf id = 2 then v.countCl (id - 128) 0x04 0 else v) := by
      split_ifs with h2 h3
      · exact v.countCore_place _ _ _ (by omega)
      · exact v.countCl_place _ _ _ _ (by omega)
      · exact Placed.refl v
    refine h3.trans ?_
    generalize (if levelOf id = 1 then v.countCore (id - 64) 0x07 else if levelOf id = 2 then v.countCl (id - 128) 0x04 0 else v) = w
    refine Placed.trans ?_ (Placed.vbuf _ _)
    refine Placed.dite (fun _ => ?_) (fun _ => Placed.refl _)
    split
    · exact w.vbufAck_place ..
    · exact Placed.refl w

theorem State.chooseWay_place (s : State) (id set : Nat) (l : List Nat) : Placed s (s.chooseWay id set l).2 := by
  unfold State.chooseWay
  split
  · exact Placed.refl s
  · split
    · exact Placed.refl s
    · exact Placed.shuf s _

theorem State.allocate_place (s : State) (id line : Nat) (l : List Nat) (b : Bool) : Placed s (s.allocate id line l b) := by
  unfold State.allocate
  dsimp only
  have h := s.chooseWay_place id (setOf id line) l
  split <;> rename_i u h2 <;> rw [h2] at h
  · exact (h.trans (State.victimize_place ..)).trans (State.setTag_place ..)
  · exact h

theorem State.channelOf_lt (s : State) (pa : Nat) : s.channelOf pa < 8 := by
  unfold State.channelOf
  dsimp only
  have h : s.rf (Reg.MEMC_MCFG 0) 9 8 < 4 := Nat.mod_lt _ (by decide)
  generalize s.rf (Reg.MEMC_MCFG 0) 9 8 = k at h
  have h2 : ((pa >>> 3) ^^^ (pa >>> 14)) % 2 ^ (1 + k) < 2 ^ (1 + k) := Nat.mod_lt _ (by positivity)
  have h3 : 2 ^ (1 + k) ≤ 2 ^ 4 := Nat.pow_le_pow_right (by decide) (by omega)
  omega

theorem merr_cache (ch : Nat) (h : ch < 8) : cacheRegs (Reg.MEMC_MERR ch) := Or.inr (Or.inr (Or.inr (Exists.intro ch (And.intro h (Or.inl rfl)))))
theorem mue_cache (ch : Nat) (h : ch < 8) : cacheRegs (Reg.MEMC_MUEADDR ch) := Or.inr (Or.inr (Or.inr (Exists.intro ch (And.intro h (Or.inr rfl)))))

theorem Placed.ioW (s : State) (a : Nat) (v : W64) (h : cacheRegs a) : Placed s (s.ioW a v) :=
  Placed.of_only (P := cacheRegs) (OnlyRegs.ioW s a v h) (fun _ h => h)

theorem State.dramReadWord_place (s : State) (pa : Nat) : Placed s (s.dramReadWord pa) := by
  unfold State.dramReadWord
  have hc := s.channelOf_lt pa
  dsimp only
  split
  · exact Placed.refl s
  · rename_i w hw
    have h1 : Placed s ((s.satAdd (Reg.MEMC_MERR (s.channelOf pa)) 63 48 1).countUn 0x06 (s.channelOf pa)) :=
      (Placed.ioW s _ _ (merr_cache _ hc)).trans (State.countUn_place ..)
    have hm1 : ((s.satAdd (Reg.MEMC_MERR (s.channelOf pa)) 63 48 1).countUn 0x06 (s.channelOf pa)).mem = s.mem := by
      unfold State.countUn forN
      have : ∀ (l : List Nat) (f : State → Nat → State) (u : State), (∀ u j, (f u j).mem = u.mem) → (l.foldl f u).mem = u.mem := by
        intro l f u hf
        induction l generalizing u with
        | nil => rfl
        | cons x l ih => rw [List.foldl_cons, ih, hf]
      rw [this]
      · rfl
      · intro u j
        dsimp only
        split
        · unfold State.countAt; dsimp only; split <;> rfl
        · rfl
    generalize (s.satAdd (Reg.MEMC_MERR (s.channelOf pa)) 63 48 1).countUn 0x06 (s.channelOf pa) = t at h1 hm1
    have h2 : Placed t (if s.rf (Reg.MEMC_MERR (s.channelOf pa)) 63 48 = 0xFFFE then t.pulse (352 + s.channelOf pa) else t) :=
      Placed.dite (fun _ => Placed.pulse ..) (fun _ => Placed.refl _)
    have hm2 : (if s.rf (Reg.MEMC_MERR (s.channelOf pa)) 63 48 = 0xFFFE then t.pulse (352 + s.channelOf pa) else t).mem = t.mem := by
      split <;> rfl
    generalize (if s.rf (Reg.MEMC_MERR (s.channelOf pa)) 63 48 = 0xFFFE then t.pulse (352 + s.channelOf pa) else t) = u at h2 hm2
    exact (h1.trans h2).trans (Placed.heal u pa w (by rw [hm2, hm1]; exact hw))
  · have h1 : Placed s (s.satAdd (Reg.MEMC_MERR (s.channelOf pa)) 31 16 1) := Placed.ioW s _ _ (merr_cache _ hc)
    refine Placed.trans (h1.trans ?_) (Placed.raiseFault ..)
    refine Placed.ite _ (Placed.refl _) ?_
    exact (Placed.ioW _ _ _ (mue_cache _ hc)).trans ((Placed.ioW _ _ _ (merr_cache _ hc)).trans (Placed.ioW _ _ _ (merr_cache _ hc)))

theorem State.dramReadLine_place (s : State) (line : Nat) : Placed s (s.dramReadLine line) := by
  unfold State.dramReadLine
  exact (s.countUn_place ..).trans (Placed.forN _ _ (fun t i _ => t.dramReadWord_place _) _)

theorem State.fillL3_place (s : State) (r line : Nat) : Placed s (s.fillL3 r line) := by
  unfold State.fillL3
  dsimp only
  refine Placed.ite _ (s.countUn_place ..) ?_
  refine ((s.countUn_place 0x03 (sliceOf (8 * line)) 1).trans ?_)
  generalize s.countUn 0x03 (sliceOf (8 * line)) = t
  refine (Placed.ite (t.vbuf.contains (cL3 (sliceOf (8 * line)), line)) (t.vbufAck_place (cL3 (sliceOf (8 * line))) line) (Placed.refl _)).trans ?_
  generalize (if t.vbuf.contains (cL3 (sliceOf (8 * line)), line) then t.vbufAck (cL3 (sliceOf (8 * line))) line else t) = u
  exact (u.dramReadLine_place line).trans (State.allocate_place ..)

theorem mem_l1dHolders {s : State} {line c : Nat} (h : c ∈ s.l1dHolders line) : c < 64 := by
  unfold State.l1dHolders at h; simp at h; exact h.1
theorem mem_l2Holders {s : State} {line k : Nat} (h : k ∈ s.l2Holders line) : k < 8 := by
  unfold State.l2Holders at h; simp at h; exact h.1

theorem State.recallLine_place (s : State) (line : Nat) (w : Bool) (k c : Option Nat) : Placed s (s.recallLine line w k c) := by
  unfold State.recallLine
  have h1 : Placed s ((s.l1dHolders line).foldl (fun s j => if c == some j then s else if w then s.evictL1D j line else s.cleanL1D j line) s) :=
    Placed.foldl _ _ (fun t j hj => Placed.ite _ (Placed.refl _)
      (Placed.ite _ (t.evictL1D_place _ _ (mem_l1dHolders hj)) (t.cleanL1D_place _ _ (mem_l1dHolders hj)))) s
  refine h1.trans ?_
  generalize ((s.l1dHolders line).foldl (fun s j => if c == some j then s else if w then s.evictL1D j line else s.cleanL1D j line) s) = t
  refine Placed.foldl _ _ (fun t j hj => Placed.ite _ (Placed.refl _) ?_) t
  refine (t.countCl_place j 0x05 0 1 (mem_l2Holders hj)).trans ?_
  exact Placed.ite _ (State.evictL2_place _ _ _ (mem_l2Holders hj)) ((State.cleanL2_place _ _ _ (mem_l2Holders hj)).trans (State.modTag_place ..))

theorem State.ackLine_place (s : State) (line : Nat) : Placed s (s.ackLine line) :=
  Placed.foldl _ _ (fun t _ _ => t.vbufAck_place ..) s

theorem spadOf_lt {pa k w : Nat} (h : spadOf pa = some (k, w)) : k < 8 := by
  unfold spadOf at h
  by_cases hr : 0xF000000000 ≤ pa ∧ pa < 0xF000800000
  · rw [if_pos hr] at h
    have hk : (pa - 0xF000000000) / 0x100000 = k := congrArg Prod.fst (Option.some.inj h)
    omega
  · rw [if_neg hr] at h
    cases h

theorem State.countSpad_place (s : State) (pa : Nat) : Placed s (s.countSpad pa) := by
  unfold State.countSpad
  split
  · rename_i k w h
    exact s.countCl_place _ _ _ _ (spadOf_lt h)
  · exact Placed.refl s

/-- The line that an access brings in: no word changes. -/
theorem State.portFill_place (s : State) (own : Bool) (c pa : Nat) (w u : Bool) (hc : c < 64) : Placed s (s.portFill own c pa w u).2 := by
  unfold State.portFill
  refine Placed.snd (fun _ => s.countSpad_place pa) (fun _ => ?_)
  refine Placed.snd (fun _ => ?_) (fun _ => ?_)
  · have h := (s.ackLine_place (pa / 8)).trans (State.recallLine_place (s.ackLine (pa / 8)) (pa / 8) w none none)
    dsimp only
    generalize (s.ackLine (pa / 8)).recallLine (pa / 8) w none none = t at h ⊢
    have k := h.trans (t.dramReadLine_place (pa / 8))
    generalize t.dramReadLine (pa / 8) = v at k ⊢
    exact Placed.snd (fun _ => h) (fun _ => k)
  · generalize (own && s.holds (cL1D c) (pa / 8)) = hit
    have h1 : Placed s (if own && !hit then s.countCore c 0x06 else s) := Placed.ite _ (s.countCore_place _ _ _ hc) (Placed.refl _)
    dsimp only
    generalize (if own && !hit then s.countCore c 0x06 else s) = t at h1 ⊢
    have h2 : Placed t (if t.l2On (c / 8) && !hit then t.countCl (c / 8) (if t.holds (cL2 (c / 8)) (pa / 8) then 0x02 else 0x03) (c % 8) else t) :=
      Placed.ite _ (t.countCl_place _ _ _ _ (by omega)) (Placed.refl _)
    generalize (if t.l2On (c / 8) && !hit then t.countCl (c / 8) (if t.holds (cL2 (c / 8)) (pa / 8) then 0x02 else 0x03) (c % 8) else t) = u at h2 ⊢
    generalize (if u.l2On (c / 8) then some (c / 8) else none) = kk
    generalize (if own then some c else none) = cc
    have h3 := ((u.ackLine_place (pa / 8)).trans (State.recallLine_place (u.ackLine (pa / 8)) (pa / 8) w kk cc)).trans
      (State.fillL3_place _ 5 (pa / 8))
    generalize (((u.ackLine (pa / 8)).recallLine (pa / 8) w kk cc).fillL3 5 (pa / 8)) = v at h3 ⊢
    have h4 := (h1.trans h2).trans h3
    refine Placed.snd (fun _ => h4) (fun _ => ?_)
    have h5 : Placed v (if v.holds (cL2 (c / 8)) (pa / 8) then (if w then v.modTag (cL2 (c / 8)) (pa / 8) (fun e => { e with excl := true }) else v)
          else v.allocate (cL2 (c / 8)) (pa / 8) (v.l2Ways (c / 8)) w) :=
      Placed.ite _ (Placed.ite _ (v.modTag_place ..) (Placed.refl _)) (v.allocate_place ..)
    generalize (if v.holds (cL2 (c / 8)) (pa / 8) then (if w then v.modTag (cL2 (c / 8)) (pa / 8) (fun e => { e with excl := true }) else v)
          else v.allocate (cL2 (c / 8)) (pa / 8) (v.l2Ways (c / 8)) w) = x at h5 ⊢
    refine Placed.snd (fun _ => h4.trans h5) (fun _ => ?_)
    exact (h4.trans h5).trans (Placed.ite _ (Placed.refl _) (x.allocate_place ..))

theorem State.endFills_place (s : State) (due : List (CoreId × Nat × Bool)) : Placed s (s.endFills due) := by
  unfold State.endFills
  exact (Placed.fills s _).trans (Placed.foldl _ _ (fun t e _ => t.portFill_place _ _ _ _ _ e.1.isLt) _)

theorem State.coreFill_place (s : State) (c pa : Nat) (w u : Bool) (hc : c < 64) : Placed s (s.coreFill c pa w u).2 := by
  unfold State.coreFill State.awaitFills
  exact (s.endFills_place _).trans (State.portFill_place _ _ c pa w u hc)

theorem State.logScrub_place (s : State) (pa : Nat) : Placed s (s.logScrub pa) := by
  unfold State.logScrub
  split
  · split
    · rename_i w h
      refine ⟨fun q => ?_, fun q => ?_, fun _ => rfl, fun _ => Or.inl rfl, fun _ _ => rfl, fun hw => Tab.wf_set _ _ _ _ hw, rfl⟩ <;>
      · by_cases hq : q = pa
        · subst hq
          rw [h]
          unfold State.peekWord State.view at h ⊢
          dsimp only at h ⊢
          split at h
          · simp_all
          · split at h
            · simp_all
            · split at h
              · simp_all
              · simp_all [Ecc.decode_encode]
        · have : (({ s with mem := Tab.set s.mem pa (Ecc.encode w) 0#80 } : State).peekWord q) = s.peekWord q := by
            unfold State.peekWord State.view
            dsimp only
            rw [Tab.get_set_ne _ _ _ _ _ _ hq]
          rw [this]
    · exact Placed.refl s
  · exact Placed.refl s

/-- A core's read answers the word that stands there, and changes no word. -/
theorem State.coreRead_spec (s : State) (c pa : Nat) (u : Bool) (hc : c < 64) :
    (s.coreRead c pa u).1 = (s.peekWord pa).1 ∧ ((s.coreRead c pa u).2.1 = decide ((s.peekWord pa).2 = .uncorr)) ∧
      Placed s (s.coreRead c pa u).2.2 := by
  have h := s.coreFill_place c pa false u hc
  unfold State.coreRead
  generalize (s.coreFill c pa false u).2 = t at h
  refine ⟨h.word pa, ?_, h.trans (t.logScrub_place pa)⟩
  have g := h.good pa
  dsimp only
  by_cases hu : (s.peekWord pa).2 = .uncorr
  · simp [hu, g.2 hu]
  · have hn : (t.peekWord pa).2 ≠ .uncorr := fun e => hu (g.1 e)
    simp [hu, hn]

theorem State.engFill_place (s : State) (r pa : Nat) (w : Bool) : Placed s (s.engFill r pa w).2 := by
  unfold State.engFill
  split
  · exact s.countSpad_place pa
  · exact (((s.endFills_place _).trans (State.ackLine_place ..)).trans (State.recallLine_place ..)).trans (State.fillL3_place ..)

/-- An engine's read answers the word that stands there, and changes no word. -/
theorem State.engRead_spec (s : State) (r pa : Nat) :
    (s.engRead r pa).1 = (s.peekWord pa).1 ∧ ((s.engRead r pa).2.1 = decide ((s.peekWord pa).2 = .uncorr)) ∧ Placed s (s.engRead r pa).2.2 := by
  have h := s.engFill_place r pa false
  unfold State.engRead
  generalize (s.engFill r pa false).2 = t at h
  refine ⟨h.word pa, ?_, h.trans (t.logScrub_place pa)⟩
  have g := h.good pa
  dsimp only
  by_cases hu : (s.peekWord pa).2 = .uncorr
  · simp [hu, g.2 hu]
  · have hn : (t.peekWord pa).2 ≠ .uncorr := fun e => hu (g.1 e)
    simp [hu, hn]

end Sys2Proof.Machine
end

