-- ==== Sys2Proof/Laws/Mem.lean ====
section
/-!
SUPPORT. Loads and stores of a core whose memory is settled: the word a load delivers, what a store writes, and what both leave alone.
-/
namespace Sys2Proof.Machine

open Sys2Proof

/-- Accesses of core c have moved words among the caches, brought descriptors in and been noted; the words of `stored` may have changed. -/
structure Moved (s t : State) (c : Nat) (stored : Nat → Prop) : Prop where
  word  : ∀ pa, ¬ stored pa → (t.peekWord pa).1 = (s.peekWord pa).1
  good  : ∀ pa, ¬ stored pa → ((t.peekWord pa).2 = .uncorr ↔ (s.peekWord pa).2 = .uncorr)
  core  : t.core c = { s.core c with resv := (t.core c).resv, dcache := (t.core c).dcache, accs := (t.core c).accs }
  other : ∀ k, k ≠ c → t.core k = { s.core k with resv := (t.core k).resv }
  resv  : ∀ k, (t.core k).resv = (s.core k).resv ∨ (t.core k).resv = none
  regs  : ∀ a, ¬ cacheRegs a → t.ioR a = s.ioR a
  wf    : Memory.wf s.mem = true → Memory.wf t.mem = true
  rest  : t = { s with mem := t.mem, l1d := t.l1d, l2 := t.l2, l3 := t.l3, l1i := t.l1i, tags := t.tags, vbuf := t.vbuf, shuf := t.shuf,
                       io := t.io, cores := t.cores, pulses := t.pulses, faultIn := t.faultIn, fills := t.fills }

namespace Moved

variable {s t u : State} {c : Nat} {P Q : Nat → Prop}

theorem refl (s : State) (c : Nat) (P : Nat → Prop) : Moved s s c P :=
  ⟨fun _ _ => rfl, fun _ _ => Iff.rfl, rfl, fun _ _ => rfl, fun _ => Or.inl rfl, fun _ _ => rfl, id, rfl⟩

theorem trans (h : Moved s t c P) (k : Moved t u c P) : Moved s u c P where
  word pa hp := (k.word pa hp).trans (h.word pa hp)
  good pa hp := (k.good pa hp).trans (h.good pa hp)
  core := by rw [k.core, h.core]
  other j hj := by rw [k.other j hj, h.other j hj]
  resv j := by
    rcases k.resv j with e | e
    · rw [e]; exact h.resv j
    · exact Or.inr e
  regs a ha := (k.regs a ha).trans (h.regs a ha)
  wf hw := k.wf (h.wf hw)
  rest := by rw [k.rest, h.rest]

theorem mono (h : Moved s t c P) (i : ∀ a, P a → Q a) : Moved s t c Q :=
  ⟨fun pa hp => h.word pa (fun p => hp (i pa p)), fun pa hp => h.good pa (fun p => hp (i pa p)), h.core, h.other, h.resv, h.regs, h.wf, h.rest⟩

theorem of_placed (h : Placed s t) : Moved s t c P :=
  ⟨fun pa _ => h.word pa, fun pa _ => h.good pa, by rw [h.core c], fun k _ => h.core k, h.resv, h.regs, h.wf, h.rest⟩

theorem crR (h : Moved s t c P) (k : Nat) : t.crR c k = s.crR c k := by unfold State.crR; rw [h.core]
theorem cl (h : Moved s t c P) : t.cl c = s.cl c := by unfold State.cl State.crF; rw [h.crR]
theorem snap (h : Moved s t c P) : t.snap c = s.snap c := by unfold State.snap; rw [h.cl]
theorem sup (h : Moved s t c P) : t.sup c = s.sup c := by unfold State.sup; rw [h.crR]
theorem file (h : Moved s t c P) (f : Nat) : t.file c f = s.file c f := by
  rcases f with _ | _ | _ | _ | f <;> simp only [State.file] <;> rw [h.core]
theorem home (h : Moved s t c P) (r : Nat) : t.homeOf c r = s.homeOf c r := by
  unfold State.homeOf State.chp State.crF; rw [h.snap, h.crR]
theorem reg (h : Moved s t c P) (r : Nat) : t.reg c r = s.reg c r := by rw [State.reg_eq, State.reg_eq s, h.home, h.file]
theorem ip (h : Moved s t c P) : (t.core c).ip = (s.core c).ip := by rw [h.core]

/-- Addresses of I/O registers that no access moves. -/
theorem io (h : Moved s t c P) (a : Nat) (ha : ¬ cacheRegs a) : t.ioR a = s.ioR a := h.regs a ha

end Moved

/-- A register in a block that holds no counter and no error record. -/
theorem not_cache (a : Nat) (h1 : a < 0xFF00F00000) (h2 : ¬ (0xFF00400000 ≤ a ∧ a < 0xFF00480000)) : ¬ cacheRegs a := by
  rintro (⟨c, j, hc, hj, h | h⟩ | ⟨k, j, hk, hj, h | h⟩ | ⟨j, hj, h | h⟩ | ⟨ch, hch, h | h⟩) <;>
    simp only [Reg.DBG_CNTSEL, Reg.CNTC_CNTSEL, Reg.CNTU_CNTSEL, Reg.MEMC_MERR, Reg.MEMC_MUEADDR] at h <;> omega

theorem mcfg_not_cache : ¬ cacheRegs (Reg.MEMC_MCFG 0) := by
  rintro (⟨c, j, hc, hj, h | h⟩ | ⟨k, j, hk, hj, h | h⟩ | ⟨j, hj, h | h⟩ | ⟨ch, hch, h | h⟩) <;>
    simp only [Reg.DBG_CNTSEL, Reg.CNTC_CNTSEL, Reg.CNTU_CNTSEL, Reg.MEMC_MERR, Reg.MEMC_MUEADDR, Reg.MEMC_MCFG] at h <;> omega

namespace Moved

variable {s t : State} {c : Nat} {P : Nat → Prop}

theorem parts (h : Moved s t c P) (p : Nat) : t.part p = s.part p := by unfold State.part; rw [h.rest]
theorem ctag (h : Moved s t c P) (x : Tag) : t.ctag x = s.ctag x := by unfold State.ctag; rw [h.rest]
theorem isPtr (h : Moved s t c P) (x : Tag) : t.isPtr x = s.isPtr x := by unfold State.isPtr; rw [h.ctag]
theorem isReserved (h : Moved s t c P) (x : Tag) : t.isReserved x = s.isReserved x := by unfold State.isReserved; rw [h.ctag]
theorem malformed (h : Moved s t c P) (w : Word) : t.malformed w = s.malformed w := by unfold State.malformed; rw [h.isPtr]
theorem corePart (h : Moved s t c P) (hc : c < 64) : t.corePart c = s.corePart c := by
  unfold State.corePart State.rf
  rw [h.regs _ (not_cache _ (by unfold Reg.CORE_CINFO; omega) (by unfold Reg.CORE_CINFO; omega))]
theorem hgeom (h : Moved s t c P) (k : Nat) (hk : k < 16) : t.ioR (Reg.SWP_HGEOM k) = s.ioR (Reg.SWP_HGEOM k) :=
  h.regs _ (not_cache _ (by unfold Reg.SWP_HGEOM; omega) (by unfold Reg.SWP_HGEOM; omega))
theorem heap (h : Moved s t c P) (k : Nat) : t.heap k = s.heap k := by unfold State.heap; rw [h.rest]

theorem implemented (h : Moved s t c P) (pa : Nat) : t.implemented pa = s.implemented pa := by
  have hd : t.dramWords = s.dramWords := by unfold State.dramWords; rw [h.regs _ mcfg_not_cache]
  have hm : t.modeTo = s.modeTo := by rw [h.rest]
  have hs : ∀ k, k < 8 → t.spadPairs k = s.spadPairs k := fun k hk => by
    have hl : t.ioR (Reg.L2C_L2CTL k) = s.ioR (Reg.L2C_L2CTL k) :=
      h.regs _ (not_cache _ (by unfold Reg.L2C_L2CTL; omega) (by unfold Reg.L2C_L2CTL; omega))
    unfold State.spadPairs State.rf; rw [hm, hl]
  unfold State.implemented
  rw [hd]
  split_ifs
  · rfl
  · rfl
  · rfl
  · split
    · rename_i k w e
      rw [hs k (spadOf_lt e)]
    · rfl

theorem peek_eq (h : Moved s t c (fun _ => False)) (pa : Nat) : (t.peekWord pa).1 = (s.peekWord pa).1 := h.word pa id
theorem tableDesc (h : Moved s t c (fun _ => False)) (p sel : Nat) : t.tableDesc p sel = s.tableDesc p sel := by
  unfold State.tableDesc; rw [h.parts]; simp only [h.peek_eq]

theorem checkDesc (h : Moved s t c P) (p sel : Nat) (d : Desc) (off : Nat) (a : Acc) (sup : Bool) :
    t.checkDesc p sel d off a sup = s.checkDesc p sel d off a sup := by
  unfold State.checkDesc; rw [h.parts]; simp only [h.implemented]

theorem heapAt (h : Moved s t c P) (pa : Nat) : t.heapAt pa = s.heapAt pa := by
  unfold State.heapAt findN
  have : ∀ n i, i + n ≤ 16 → findGo (fun k => let g := t.ioR (Reg.SWP_HGEOM k)
      bitAt g 47 && decide (fld g 22 0 * 131072 ≤ pa) && decide (pa < (fld g 22 0 + fld g 46 29) * 131072)) n i =
      findGo (fun k => let g := s.ioR (Reg.SWP_HGEOM k)
      bitAt g 47 && decide (fld g 22 0 * 131072 ≤ pa) && decide (pa < (fld g 22 0 + fld g 46 29) * 131072)) n i := by
    intro n
    induction n with
    | zero => intro i _; rfl
    | succ n ih =>
      intro i hi
      unfold findGo
      simp only [h.hgeom i (by omega)]
      rw [ih (i + 1) (by omega)]
  exact this 16 0 (by omega)

end Moved

theorem findN_lt {n k : Nat} {p : Nat → Bool} (h : findN n p = some k) : k < n := by
  have : ∀ m i, findGo p m i = some k → k < i + m := by
    intro m
    induction m with
    | zero => intro i h; cases h
    | succ m ih =>
      intro i h
      unfold findGo at h
      split at h
      · cases h; omega
      · have := ih (i + 1) h; omega
  simpa using this n 0 h

theorem State.heapAt_lt {s : State} {pa k : Nat} (h : s.heapAt pa = some k) : k < 16 := findN_lt h

namespace Moved

variable {s t : State} {c : Nat} {P : Nat → Prop}

theorem transitAt (h : Moved s t c P) (pa : Nat) : t.transitAt pa = s.transitAt pa := by
  unfold State.transitAt
  rw [h.heapAt]
  split
  · rfl
  · rename_i k hk
    have : t.heapBase k = s.heapBase k := by unfold State.heapBase State.rf; rw [h.hgeom k (State.heapAt_lt hk)]
    rw [this, h.heap]

end Moved

/-- What a write of a table adds to it. -/
theorem Tab.mem_set {α : Type} [DecidableEq α] {t : Tab α} {k : Nat} {v d : α} {e : Nat × α} (h : e ∈ Tab.set t k v d) : e ∈ t ∨ e = (k, v) := by
  induction t with
  | nil => unfold Tab.set at h; split at h <;> simp_all
  | cons x t ih =>
    obtain ⟨k', v'⟩ := x
    unfold Tab.set at h
    split_ifs at h
    · exact Or.inl h
    · rcases List.mem_cons.1 h with h | h
      · exact Or.inr h
      · exact Or.inl h
    · refine Or.inl (List.mem_cons_of_mem _ ?_)
      have : ∀ (l : Tab α), e ∈ Tab.dropTo l k → e ∈ l := by
        intro l
        induction l with
        | nil => exact id
        | cons y l ih2 =>
          obtain ⟨ky, vy⟩ := y
          unfold Tab.dropTo
          split
          · exact fun h => List.mem_cons_of_mem _ (ih2 h)
          · exact id
      exact this t h
    · rcases List.mem_cons.1 h with h | h
      · exact Or.inr h
      · exact Or.inl (List.mem_cons_of_mem _ h)
    · rcases List.mem_cons.1 h with h | h
      · exact Or.inl (h ▸ List.mem_cons_self ..)
      · rcases ih h with h | h
        · exact Or.inl (List.mem_cons_of_mem _ h)
        · exact Or.inr h

theorem Settled.coreDesc {s : State} {c : Nat} (h : Settled s c) (sel : Nat) : s.coreDesc c sel = s.tableDesc (s.corePart c) sel := by
  unfold State.coreDesc
  split
  · rename_i i se a b hf
    have hm := List.mem_of_find?_eq_some hf
    have hp := List.find?_some hf
    have hp : se = sel := by simpa using hp
    rw [← hp]; exact h.fresh _ hm
  · rfl

/-- Bringing a descriptor in moves nothing else. -/
theorem State.touchDesc_moved (s : State) (c sel : Nat) (hc : c < 64) : Moved s (s.touchDesc c sel) c (fun _ => False) := by
  have key : ∀ (t : State) (i : Nat) (v d : Nat × W64 × W64),
      Moved t (t.modCore c (fun x => { x with dcache := Tab.set x.dcache i v d })) c (fun _ => False) := fun t i v d =>
    ⟨fun _ _ => rfl, fun _ _ => Iff.rfl, by simp, fun k hk => by rw [State.core_modCore_ne _ _ _ _ hk], fun k => by
      by_cases e : k = c
      · subst e; simp
      · rw [State.core_modCore_ne _ _ _ _ e]; exact Or.inl rfl, fun _ _ => rfl, id, rfl⟩
  unfold State.touchDesc
  dsimp only
  split
  · exact Moved.refl ..
  · have h1 : Moved s (s.countCore c 0x08) c (fun _ => False) := Moved.of_placed (s.countCore_place c _ _ hc)
    split
    · exact h1.trans (key _ _ _ _)
    · exact (h1.trans (Moved.of_placed (Placed.shuf _ _))).trans (key _ _ _ _)

theorem Settled.cycleHeap {s : State} {c : Nat} (h : Settled s c) : s.cycleHeap (s.corePart c) = none := by
  unfold State.cycleHeap
  split
  · rename_i k hk
    rw [if_neg (h.cycle k hk).2]
  · rfl

/-- Settled memory stays settled through moves that store nothing, where the descriptor cache holds no stale copy afterwards. -/
theorem Settled.moved {s t : State} {c : Nat} (hc : c < 64) (h : Settled s c) (m : Moved s t c (fun _ => False))
    (hf : ∀ e ∈ (t.core c).dcache, (⟨e.2.2.1, e.2.2.2⟩ : Desc) = t.tableDesc (t.corePart c) e.2.1) : Settled t c where
  fresh := hf
  cycle k hk := by
    have e : t.sweep = s.sweep := by rw [m.rest]
    rw [e] at hk
    obtain ⟨h1, h2⟩ := h.cycle k hk
    refine ⟨h1, ?_⟩
    have : t.heapPart k = s.heapPart k := by unfold State.heapPart State.rf; rw [m.hgeom k h1]
    rw [this, m.corePart hc]; exact h2
  transit pa := by rw [m.transitAt]; exact h.transit pa

theorem Settled.placed {s t : State} {c : Nat} (hc : c < 64) (h : Settled s c) (m : Placed s t) : Settled t c := by
  have mv : Moved s t c (fun _ => False) := Moved.of_placed m
  refine h.moved hc mv (fun e he => ?_)
  rw [mv.corePart hc, mv.tableDesc]
  rw [m.core c] at he
  exact h.fresh e he

theorem State.touchDesc_mem (s : State) (c sel : Nat) (hc : c < 64) (e : Nat × Nat × W64 × W64) (h : e ∈ ((s.touchDesc c sel).core c).dcache) :
    e ∈ (s.core c).dcache ∨ (e.2.1 = sel ∧ (⟨e.2.2.1, e.2.2.2⟩ : Desc) = s.tableDesc (s.corePart c) sel) := by
  have hp : ((s.countCore c 0x08).core c).dcache = (s.core c).dcache := by rw [(s.countCore_place c 0x08 1 hc).core c]
  have ht : (s.countCore c 0x08).tableDesc ((s.countCore c 0x08).corePart c) sel = s.tableDesc (s.corePart c) sel := by
    have h1 : Moved s (s.countCore c 0x08) c (fun _ => False) := Moved.of_placed (s.countCore_place c _ _ hc)
    rw [h1.corePart hc, h1.tableDesc]
  unfold State.touchDesc at h
  dsimp only at h
  split at h
  · exact Or.inl h
  · split at h
    · rw [State.core_modCore] at h
      dsimp only at h
      rcases Tab.mem_set h with h | h
      · rw [hp] at h; exact Or.inl h
      · refine Or.inr ?_
        rw [h]; exact ⟨rfl, ht⟩
    · rw [State.core_modCore] at h
      rcases Tab.mem_set h with h | h
      · change e ∈ ((s.countCore c 0x08).core c).dcache at h
        rw [hp] at h; exact Or.inl h
      · refine Or.inr ?_
        rw [h]; exact ⟨rfl, ht⟩

theorem Settled.touch {s : State} {c : Nat} (hc : c < 64) (h : Settled s c) (sel : Nat) : Settled (s.touchDesc c sel) c := by
  have m := s.touchDesc_moved c sel hc
  refine h.moved hc m (fun e he => ?_)
  rw [m.corePart hc, m.tableDesc]
  rcases s.touchDesc_mem c sel hc e he with he | ⟨h1, h2⟩
  · exact h.fresh e he
  · rw [h1]; exact h2

/-! The steps of an access. -/

/-- A computation that answers a value, storing nothing. -/
def Answers {α : Type} (m : MM α) (s : State) (c : Nat) (a : α) : Prop :=
  ∃ t, m.run s = (.ok a, t) ∧ Moved s t c (fun _ => False) ∧ Settled t c

theorem Moved.coreCtx {s t : State} {c : Nat} {P : Nat → Prop} (h : Moved s t c P) (hc : c < 64) : t.coreCtx c = s.coreCtx c := by
  unfold State.coreCtx
  rw [h.corePart hc, h.sup, h.cl]
  have : t.ioR (Reg.DBG_DBGCTL c) = s.ioR (Reg.DBG_DBGCTL c) := by
    refine h.regs _ ?_
    rintro (⟨k, j, hk, hj, e | e⟩ | ⟨k, j, hk, hj, e | e⟩ | ⟨j, hj, e | e⟩ | ⟨ch, hch, e | e⟩) <;>
      simp only [Reg.DBG_CNTSEL, Reg.CNTC_CNTSEL, Reg.CNTU_CNTSEL, Reg.MEMC_MERR, Reg.MEMC_MUEADDR, Reg.DBG_DBGCTL] at e <;> omega
  unfold State.rb; rw [this]

/-- R76: a granted access resolves. -/
theorem resolve_answers {s : State} {c sel off pa : Nat} {a : Acc} (hc : c < 64) (h : Settled s c) (r : Reaches s c sel off a pa) :
    Answers ((s.coreCtx c).resolve sel off a) s c ⟨sel, off, pa, s.tableDesc (s.corePart c) sel⟩ := by
  have ht := h.touch hc sel
  have hm := s.touchDesc_moved c sel hc
  have key : ∀ u, Moved s u c (fun _ => False) → Settled u c →
      u.checkDesc (s.coreCtx c).part sel ((s.coreCtx c).desc u sel) off a (s.coreCtx c).sup = .ok pa ∧
        (s.coreCtx c).desc u sel = s.tableDesc (s.corePart c) sel := by
    intro u mu su
    have hd : (s.coreCtx c).desc u sel = s.tableDesc (s.corePart c) sel := by
      unfold Ctx.desc State.coreCtx
      dsimp only
      rw [su.coreDesc, mu.corePart hc, mu.tableDesc]
    refine ⟨?_, hd⟩
    rw [hd, mu.checkDesc]
    have := r.check
    rw [h.coreDesc] at this
    exact this
  have htouch : ∃ u, (s.coreCtx c).touch s sel = u ∧ Moved s u c (fun _ => False) ∧ Settled u c := by
    refine ⟨_, rfl, ?_⟩
    unfold Ctx.touch State.coreCtx
    dsimp only
    split
    · exact ⟨hm, ht⟩
    · exact ⟨Moved.refl .., h⟩
  obtain ⟨u, hu, mu, su⟩ := htouch
  obtain ⟨hk, hd⟩ := key u mu su
  rw [hd] at hk
  refine ⟨u, ?_, mu, su⟩
  unfold Ctx.resolve
  simp only [MM.run_bind, MM.run_upd, hu, MM.run_get, hk, hd]
  rfl

/-- Two answers in a row. -/
theorem Answers.bind {α β : Type} {m : MM α} {f : α → MM β} {s : State} {c : Nat} {a : α} {b : β} (h : Answers m s c a)
    (k : ∀ t, Moved s t c (fun _ => False) → Settled t c → Answers (f a) t c b) : Answers (m >>= f) s c b := by
  obtain ⟨t, h1, h2, h3⟩ := h
  obtain ⟨u, k1, k2, k3⟩ := k t h2 h3
  refine ⟨u, ?_, h2.trans k2, k3⟩
  simp only [MM.run_bind, h1, k1]

theorem Answers.pure {α : Type} {s : State} {c : Nat} (a : α) (h : Settled s c) : Answers (pure a) s c a :=
  ⟨s, rfl, Moved.refl .., h⟩

theorem Answers.need {s : State} {c : Nat} {b : Bool} {e : Exn} (hb : b = true) (h : Settled s c) : Answers (need b e) s c () :=
  ⟨s, by simp [hb], Moved.refl .., h⟩

theorem Moved.reaches {s t : State} {c sel off pa : Nat} {a : Acc} (m : Moved s t c (fun _ => False)) (hc : c < 64) (hs : Settled s c)
    (ht : Settled t c) (r : Reaches s c sel off a pa) : Reaches t c sel off a pa := by
  refine ⟨?_, r.mem⟩
  rw [m.corePart hc, m.sup, m.checkDesc, ht.coreDesc, m.corePart hc, m.tableDesc, ← hs.coreDesc]
  exact r.check

theorem Moved.holds {s t : State} {c sel off pa : Nat} {a : Acc} {w : Word} (m : Moved s t c (fun _ => False)) (hc : c < 64) (hs : Settled s c)
    (ht : Settled t c) (r : Holds s c sel off a pa w) : Holds t c sel off a pa w :=
  ⟨m.reaches hc hs ht r.at_, (m.word pa id).trans r.word, fun e => r.good ((m.good pa id).1 e)⟩

/-- The word of memory at a location, read (R132 step 6). -/
theorem readRaw_answers {s : State} {c : Nat} {l : Loc} {w : Word} (hc : c < 64) (h : Settled s c) (hi : isIo l.pa = false)
    (hw : (s.peekWord l.pa).1 = w) (hg : (s.peekWord l.pa).2 ≠ .uncorr) : Answers ((s.coreCtx c).readRaw l) s c w := by
  have hs := h.transit l.pa
  have hset : s.settleTransit l.pa = some s := by unfold State.settleTransit; rw [hs]
  obtain ⟨r1, r2, r3⟩ := s.coreRead_spec c l.pa l.desc.uncached hc
  refine ⟨(s.coreRead c l.pa l.desc.uncached).2.2, ?_, Moved.of_placed r3, h.placed hc r3⟩
  unfold Ctx.readRaw Ctx.settle
  simp only [hi, Bool.false_eq_true, if_false, MM.run_bind, MM.run_get, hset]
  have hset2 : (set s : MM PUnit).run s = (.ok (), s) := rfl
  simp only [hset2]
  simp only [MM.run_ask, State.whoRead]
  have hwho : (s.coreCtx c).who = .core c := rfl
  simp only [hwho]
  have r2' : (s.coreRead c l.pa l.desc.uncached).2.1 = false := by rw [r2]; simp [hg]
  simp only [r2', Bool.false_eq_true, if_false, MM.run_pure, r1, hw]

/-- The load barrier delivers the word as it stands while no cycle runs (R256, R263). -/
theorem deliver_answers {s : State} {c : Nat} (h : Settled s c) (w : Word) (pa : Option Nat) (o k : Bool) :
    Answers ((s.coreCtx c).deliver w pa o k) s c w := by
  refine ⟨s, ?_, Moved.refl .., h⟩
  have hl : s.loadBarrier (s.coreCtx c).who (s.coreCtx c).part w pa o k = (.word w, s) := by
    unfold State.loadBarrier
    have : s.cycleHeap (s.coreCtx c).part = none := h.cycleHeap
    rw [this]
  unfold Ctx.deliver
  simp only [MM.run_bind, MM.run_ask, hl, MM.run_pure]

theorem note_answers {s : State} {c : Nat} (hc : c < 64) (h : Settled s c) (b : Bool) (l : Loc) (w : Word) :
    Answers ((s.coreCtx c).note b l w) s c () := by
  have m : Moved s (s.modCore c (fun k => { k with accs := k.accs ++ [⟨b, l.sel, l.off, l.pa, w⟩] })) c (fun _ => False) :=
    ⟨fun _ _ => rfl, fun _ _ => Iff.rfl, by simp, fun k hk => by rw [State.core_modCore_ne _ _ _ _ hk], fun k => by
      by_cases e : k = c
      · subst e; simp
      · rw [State.core_modCore_ne _ _ _ _ e]; exact Or.inl rfl, fun _ _ => rfl, id, rfl⟩
  refine ⟨_, rfl, m, h.moved hc m (fun e he => ?_)⟩
  rw [m.corePart hc, m.tableDesc]
  rw [State.core_modCore] at he
  exact h.fresh e he

/-- A load of a word of memory. -/
theorem load_answers {s : State} {c : Nat} {l : Loc} {w : Word} (hc : c < 64) (h : Settled s c) (hi : isIo l.pa = false)
    (hw : (s.peekWord l.pa).1 = w) (hg : (s.peekWord l.pa).2 ≠ .uncorr) (o k : Bool) : Answers ((s.coreCtx c).load l o k) s c w := by
  unfold Ctx.load
  refine (readRaw_answers hc h hi hw hg).bind (fun t mt st => ?_)
  simp only [hi, Bool.false_eq_true, if_false]
  rw [← mt.coreCtx hc]
  refine (deliver_answers st w _ o k).bind (fun u mu su => ?_)
  rw [← mu.coreCtx hc]
  exact (note_answers hc su _ _ _).bind (fun v mv sv => Answers.pure w sv)

/-- Access and load of a granted word: what LDS and its like rest on. -/
theorem access_load {s : State} {c sel off pa : Nat} {a : Acc} {w : Word} (hc : c < 64) (h : Settled s c) (r : Holds s c sel off a pa w)
    (o k : Bool) : Answers ((s.coreCtx c).resolve sel off a >>= fun l => (s.coreCtx c).load l o k) s c w := by
  refine (resolve_answers hc h r.at_).bind (fun t mt st => ?_)
  have r2 := mt.holds hc h st r
  rw [← mt.coreCtx hc]
  exact load_answers hc st r.at_.mem r2.word r2.good o k

/-- No cycle: an object lies where its pointer says (R54). -/
theorem follow_answers {s : State} {c : Nat} (h : Settled s c) (sel off : Nat) : Answers ((s.coreCtx c).follow sel off) s c off := by
  refine ⟨s, ?_, Moved.refl .., h⟩
  unfold Ctx.follow
  have : s.cycleHeap (s.coreCtx c).part = none := h.cycleHeap
  simp only [MM.run_bind, MM.run_get, this, MM.run_pure]

/-- A word of a CONS cell is found where both words of the cell are granted (R132 step 4). -/
theorem cellLoc_answers {s : State} {c p0 p1 i : Nat} {a : Acc} {p : Word} (hc : c < 64) (h : Settled s c)
    (r0 : Reaches s c (ptrSel p.pay) (ptrOff p.pay) a p0) (r1 : Reaches s c (ptrSel p.pay) (ptrOff p.pay + 1) a p1) :
    Answers ((s.coreCtx c).cellLoc p i a) s c
      (if i = 0 then ⟨ptrSel p.pay, ptrOff p.pay, p0, s.tableDesc (s.corePart c) (ptrSel p.pay)⟩
       else ⟨ptrSel p.pay, ptrOff p.pay + 1, p1, s.tableDesc (s.corePart c) (ptrSel p.pay)⟩) := by
  unfold Ctx.cellLoc
  refine (resolve_answers hc h r0).bind (fun t mt st => ?_)
  rw [← mt.coreCtx hc]
  refine (follow_answers st _ _).bind (fun u mu su => ?_)
  simp only [if_true]
  refine (Answers.pure _ su).bind (fun u2 mu2 su2 => ?_)
  have mm := (mt.trans mu).trans mu2
  rw [mt.coreCtx hc, ← mm.coreCtx hc]
  refine (resolve_answers hc su2 (mm.reaches hc h su2 r1)).bind (fun v mv sv => ?_)
  rw [mm.corePart hc, mm.tableDesc]
  exact Answers.pure _ sv

/-- The header of an object is read and names its kind (R54). -/
theorem header_answers {s : State} {c pa : Nat} {a : Acc} {p w : Word} {opnd : Nat} (hc : c < 64) (h : Settled s c)
    (r : Holds s c (ptrSel p.pay) (ptrOff p.pay) a pa w) (ht : w.tag = Tag.hdr) (hk : fld w.pay 63 56 = p.tag.toNat) :
    Answers ((s.coreCtx c).header p opnd a) s c (ptrOff p.pay, w.pay) := by
  unfold Ctx.header
  refine (resolve_answers hc h r.at_).bind (fun t mt st => ?_)
  rw [← mt.coreCtx hc]
  refine (follow_answers st _ _).bind (fun u mu su => ?_)
  simp only [if_true]
  refine (Answers.pure _ su).bind (fun u2 mu2 su2 => ?_)
  have mm := (mt.trans mu).trans mu2
  have r2 := mm.holds hc h su2 r
  unfold Ctx.readOver
  rw [mt.coreCtx hc, ← mm.coreCtx hc]
  refine (readRaw_answers hc su2 r.at_.mem r2.word r2.good).bind (fun v mv sv => ?_)
  refine (Answers.need (by simp [ht, hk]) sv).bind (fun x mx sx => ?_)
  exact Answers.pure _ sx

end Sys2Proof.Machine
end

