-- ==== Sys2Proof/Laws/Store.lean ====
section
/-!
SUPPORT. Stores of a core, and the ends of instructions that access memory: what they keep.
-/
namespace Sys2Proof.Machine

open Sys2Proof

/-! Writing a word. -/

theorem State.putAt_view (s : State) (lvl pa : Nat) (x : Stored) : (s.putAt lvl pa x).view pa = x := by
  rcases lvl with _ | _ | _ | _ | lvl <;> simp [State.putAt, State.view]

theorem State.putAt_view_ne (s : State) (lvl pa q : Nat) (x : Stored) (h : q ≠ pa) : (s.putAt lvl pa x).view q = s.view q := by
  rcases lvl with _ | _ | _ | _ | lvl <;> simp only [State.putAt, State.view, Tab.get_set_ne _ _ _ _ _ _ h]

/-- Writing a word changes that word alone. -/
theorem State.putAt_moved (s : State) (c lvl pa : Nat) (x : Stored) : Moved s (s.putAt lvl pa x) c (· = pa) := by
  refine ⟨fun q hq => ?_, fun q hq => ?_, ?_, fun k _ => ?_, fun k => Or.inl ?_, fun a _ => ?_, fun hw => ?_, ?_⟩
  · unfold State.peekWord; rw [State.putAt_view_ne _ _ _ _ _ hq]
  · unfold State.peekWord; rw [State.putAt_view_ne _ _ _ _ _ hq]
  · unfold State.putAt; split <;> rfl
  · unfold State.putAt; split <;> rfl
  · unfold State.putAt; split <;> rfl
  · unfold State.putAt; split <;> rfl
  · unfold State.putAt; split
    · exact hw
    · exact hw
    · exact hw
    · exact Tab.wf_set _ _ _ _ hw
  · unfold State.putAt; split <;> rfl

theorem State.markDirty_place (s : State) (lvl c line : Nat) : Placed s (s.markDirty lvl c line) := by
  unfold State.markDirty
  split
  · exact s.modTag_place ..
  · exact s.modTag_place ..
  · exact s.modTag_place ..
  · exact Placed.refl s

/-- A core's write: the word written reads back, and no other word changes. -/
theorem State.coreWrite_spec (s : State) (c pa : Nat) (u : Bool) (w : Word) (hc : c < 64) :
    (s.coreWrite c pa u w).peekWord pa = (w, .ok) ∧ Moved s (s.coreWrite c pa u w) c (· = pa) := by
  have h0 := s.coreFill_place c pa true u hc
  unfold State.coreWrite
  generalize s.coreFill c pa true u = r at h0
  obtain ⟨lvl, t0⟩ := r
  dsimp only at h0 ⊢
  have h : Placed s (if lvl = 0 && isDram pa then t0.countUn 0x05 (t0.channelOf pa) else t0) :=
    h0.trans (Placed.ite _ (t0.countUn_place ..) (Placed.refl _))
  generalize (if lvl = 0 && isDram pa then t0.countUn 0x05 (t0.channelOf pa) else t0) = t at h
  have hp := (State.markDirty_place (t.putAt lvl pa (Ecc.encode w)) lvl c (pa / 8)).trans (State.clearResv_place _ (pa / 8))
  have hv : (t.putAt lvl pa (Ecc.encode w)).peekWord pa = (w, .ok) := by
    unfold State.peekWord; rw [State.putAt_view, Ecc.decode_encode]
  have hm := t.putAt_moved c lvl pa (Ecc.encode w)
  generalize t.putAt lvl pa (Ecc.encode w) = v at hp hv hm
  refine ⟨?_, ((Moved.of_placed h).trans hm).trans (Moved.of_placed hp)⟩
  have key : ∀ (a : State), a.peekWord pa = (w, .ok) → ∀ b, Placed a b → b.view pa = a.view pa → b.peekWord pa = (w, .ok) := by
    intro a ha b _ hb
    unfold State.peekWord at ha ⊢
    rw [hb]; exact ha
  refine key _ hv _ hp ?_
  have h1 : ∀ (a : State), (a.markDirty lvl c (pa / 8)).view pa = a.view pa := by
    intro a
    unfold State.markDirty State.modTag
    split <;> first
      | rfl
      | (split <;> rfl)
  have h2 : ∀ (l : List Nat) (a : State), (l.foldl (fun s k => s.clearResvCore k (pa / 8)) a).view pa = a.view pa := by
    intro l
    induction l with
    | nil => intro a; rfl
    | cons k l ih =>
      intro a
      rw [List.foldl_cons, ih]
      unfold State.clearResvCore
      split <;> rfl
  unfold State.clearResv
  rw [h2, h1]

/-! The steps of a store. -/

/-- A computation that answers a value and has stored one word. -/
def Puts {α : Type} (m : MM α) (s : State) (c : Nat) (a : α) (pa : Nat) (w : Word) : Prop :=
  ∃ t, m.run s = (.ok a, t) ∧ t.peekWord pa = (w, .ok) ∧ Moved s t c (· = pa)

/-- The checks of a store to memory pass (R132 steps 6 and 7, R246). -/
theorem storeChk_answers {s : State} {c : Nat} {l : Loc} {w old : Word} {k : Nat} (hc : c < 64) (h : Settled s c) (hi : isIo l.pa = false)
    (hr : Ctx.ring l.pa = false) (hw : (s.peekWord l.pa).1 = old) (hg : (s.peekWord l.pa).2 ≠ .uncorr)
    (ho : s.sup c = true ∨ isStructural old.tag = false) (hs : ∀ t, Moved s t c (fun _ => False) → t.storeOk (s.corePart c) w l.sel l.desc l.pa = true) :
    Answers ((s.coreCtx c).storeChk l w k) s c () := by
  unfold Ctx.storeChk
  simp only [hi, hr, Bool.false_eq_true, if_false]
  refine (readRaw_answers hc h hi hw hg).bind (fun t mt st => ?_)
  have ho2 : ((s.coreCtx c).sup || !isStructural old.tag) = true := by
    have : (s.coreCtx c).sup = s.sup c := rfl
    rw [this]; rcases ho with ho | ho <;> simp [ho]
  refine (Answers.need ho2 st).bind (fun u mu su => ?_)
  have hget : ∀ f : State → MM Unit, Answers (f u) u c () → Answers (do let s ← get; f s) u c () := by
    rintro f ⟨v, h1, h2, h3⟩
    exact ⟨v, by simp only [MM.run_bind, MM.run_get, h1], h2, h3⟩
  exact hget _ (Answers.need (hs u (mt.trans mu)) su)

/-- The write of a store that has passed its checks, no cycle running on the partition's heap and no REM word overwritten while another's runs. -/
theorem storeDo_puts {s : State} {c : Nat} {l : Loc} {w : Word} (hc : c < 64) (h : Settled s c) (hi : isIo l.pa = false)
    (hr : Ctx.ring l.pa = false) (hm : s.sweep.heap = none ∨ (s.peekWord l.pa).1.tag ≠ Tag.rem) :
    Puts ((s.coreCtx c).storeDo l w) s c () l.pa w := by
  have hl : s.storeLog (s.coreCtx c).who (s.coreCtx c).part (s.peekWord l.pa).1 l.pa = s := by
    unfold State.storeLog
    split
    · rfl
    · rename_i g hg
      have h1 : (s.heapPart g == (s.coreCtx c).part) = false := beq_false_of_ne (h.cycle g hg).2
      have h2 : ((s.peekWord l.pa).1.tag == Tag.rem) = false := by
        rcases hm with hm | hm
        · rw [hm] at hg; cases hg
        · simpa using hm
      simp [h1, h2]
  obtain ⟨h1, h2⟩ := s.coreWrite_spec c l.pa l.desc.uncached w hc
  have hrun : ((s.coreCtx c).storeDo l w).run s =
      (.ok (), (s.coreWrite c l.pa l.desc.uncached w).modCore c (fun k => { k with accs := k.accs ++ [⟨true, l.sel, l.off, l.pa, w⟩] })) := by
    unfold Ctx.storeDo Ctx.note
    simp only [hi, hr, Bool.false_eq_true, if_false, MM.run_bind, MM.run_upd, hl]
    rfl
  refine ⟨_, hrun, ?_, ?_⟩
  · generalize s.coreWrite c l.pa l.desc.uncached w = v at h1
    exact h1
  · generalize s.coreWrite c l.pa l.desc.uncached w = v at h2
    exact h2.trans ⟨fun _ _ => rfl, fun _ _ => Iff.rfl, by simp, fun k hk => by rw [State.core_modCore_ne _ _ _ _ hk], fun k => by
      by_cases e : k = c
      · subst e; simp
      · rw [State.core_modCore_ne _ _ _ _ e]; exact Or.inl rfl, fun _ _ => rfl, id, rfl⟩

/-! The ends of instructions that access memory. -/

theorem Moved.dbgOn {s t : State} {c : Nat} {P : Nat → Prop} (h : Moved s t c P) (hc : c < 64) : t.dbgOn c = s.dbgOn c := by
  unfold State.dbgOn State.rb
  rw [h.regs]
  rintro (⟨k, j, hk, hj, e | e⟩ | ⟨k, j, hk, hj, e | e⟩ | ⟨j, hj, e | e⟩ | ⟨ch, hch, e | e⟩) <;>
    simp only [Reg.DBG_CNTSEL, Reg.CNTC_CNTSEL, Reg.CNTU_CNTSEL, Reg.MEMC_MERR, Reg.MEMC_MUEADDR, Reg.DBG_DBGCTL] at e <;> omega

/-- Accesses, then register writes, then the end of the instruction. -/
theorem Moved.keepsMem {s t u : State} {c : Nat} {P : Nat → Prop} {D : List Nat} {q : Bool} {m : Nat} (hc : c < 64) (h : Moved s t c P)
    (w : Wrote t u c D q m) (hD : ∀ d ∈ D, d < 32) (hd : s.dbgOn c = false) :
    KeepsMem s (u.retire c .seq) c D q m P (s.nextIp c) ∧ (∀ r, (u.retire c .seq).reg c r = u.reg c r) ∧
      (u.retire c .seq).asrR c = u.asrR c ∧ (u.retire c .seq).fsrR c = u.fsrR c ∧
      (∀ pa, (u.retire c .seq).peekWord pa = t.peekWord pa) ∧ ((u.retire c .seq).core c).resv = (t.core c).resv := by
  have k := w.keeps hD (by rw [h.dbgOn hc]; exact hd)
  obtain ⟨k, kr, ka, kf⟩ := k
  generalize u.retire c .seq = v at k kr ka kf
  have hpeek : ∀ pa, v.peekWord pa = t.peekWord pa := fun pa => by unfold State.peekWord State.view; rw [k.rest]
  have hhome : D.map (t.homeOf c) = D.map (s.homeOf c) := List.map_congr_left (fun a _ => h.home a)
  refine ⟨⟨?_, ?_, ?_, ?_, ?_, ?_, ?_, ?_, ?_, ?_, ?_, ?_, ?_⟩, kr, ka, kf, hpeek, by rw [k.core]⟩
  · intro pa hp; rw [hpeek]; exact h.word pa hp
  · intro f j hm; rw [k.files f j (by rw [hhome]; exact hm), h.file]
  · intro r hr hn; rw [k.names r hr hn, h.reg]
  · intro j hj hn; rw [k.ctl j hj (by rw [h.snap]; exact hn), h.crR]
  · rw [k.gds, h.snap, h.crR]
  · intro hn
    have a := k.snapSt (by rw [h.snap]; exact hn)
    rw [a.1, a.2, h.core]
    exact ⟨rfl, rfl⟩
  · rw [k.next, h.ip]; rfl
  · rw [k.core, h.core]
  · intro j hj; rw [k.others j hj]; exact h.other j hj
  · intro j hj; rw [k.others j hj]; exact h.resv j
  · intro a h1 h2 _; rw [k.regs a h2]; exact h.regs a h1
  · intro hw; have : v.mem = t.mem := by rw [k.rest]
    rw [this]; exact h.wf hw
  · rw [k.rest, h.rest]

/-- A load into a register: the command answers, the register holds the word, and the frame. -/
theorem loads_of_answers {s : State} {c : CoreId} {d : RegN} {w : Word} {p : Pre} {o : MM OpOut} {i : Instr} (h : AtEase s c.val)
    (hi : exec i s = .next (s.runCore c.val p (finishOp c.val o))) (h1 : p.illegal = false) (h2 : p.illegalB = false)
    (h3 : p.badPair = false) (h4 : p.sup = false ∨ s.sup c.val = true) (ho : Answers o s c.val (Eff.one d.val w)) : Loads s i c d w := by
  obtain ⟨t, hr, hm, _⟩ := ho
  have hb : (finishOp c.val o).run s = (.ok .seq, t.setReg c.val d.val w) := by
    unfold finishOp
    simp only [MM.run_bind, hr, Eff.one]
    simp [applyEff]
  refine ⟨_, hi, ?_⟩
  rw [h.runCore _ h1 h2 h3 h4, hb]
  have k := hm.keepsMem c.isLt (Wrote.setReg t c.val d.val w) (by simp [d.isLt]) h.debug
  exact ⟨by rw [k.2.1]; simp, k.1⟩

/-- The same for a body that ends in a register write. -/
theorem loads_of_body {s : State} {c : CoreId} {d : RegN} {w : Word} {p : Pre} {m : MM Word} {i : Instr} (h : AtEase s c.val)
    (hi : exec i s = .next (s.runCore c.val p (do let w ← m; wr c.val d.val w; pure .seq))) (h1 : p.illegal = false) (h2 : p.illegalB = false)
    (h3 : p.badPair = false) (h4 : p.sup = false ∨ s.sup c.val = true) (ho : Answers m s c.val w) : Loads s i c d w := by
  obtain ⟨t, hr, hm, _⟩ := ho
  have hb : (do let w ← m; wr c.val d.val w; pure .seq : MM Next).run s = (.ok .seq, t.setReg c.val d.val w) := by
    simp only [MM.run_bind, hr, run_wr, MM.run_pure]
  refine ⟨_, hi, ?_⟩
  rw [h.runCore _ h1 h2 h3 h4, hb]
  have k := hm.keepsMem c.isLt (Wrote.setReg t c.val d.val w) (by simp [d.isLt]) h.debug
  exact ⟨by rw [k.2.1]; simp, k.1⟩

/-- A store: the command answers, the word stands in memory, and the frame. -/
theorem storesAt_of_run {s t : State} {c : CoreId} {w : Word} {pa : Nat} {p : Pre} {body : MM Next} {i : Instr} (h : AtEase s c.val)
    (hi : exec i s = .next (s.runCore c.val p body)) (h1 : p.illegal = false) (h2 : p.illegalB = false)
    (h3 : p.badPair = false) (h4 : p.sup = false ∨ s.sup c.val = true) (hb : body.run s = (.ok .seq, t)) (hw : t.peekWord pa = (w, .ok))
    (hm : Moved s t c.val (· = pa)) : StoresAt s i c pa w := by
  refine ⟨_, hi, ?_⟩
  rw [h.runCore _ h1 h2 h3 h4, hb]
  have k := hm.keepsMem c.isLt (Wrote.refl t c.val) (by simp) h.debug
  exact ⟨by rw [k.2.2.2.2.1]; exact hw, k.1⟩

end Sys2Proof.Machine
end

