-- ==== Sys2Proof/WellFormed.lean ====
section
/-!
DEFINITION. Which commands a sender can form. The operand types already keep register numbers, instance numbers and immediates inside their
fields; what they do not keep is checked here: the levels of LEVEL_EVENT_ENTRY and CLAIM (spec 07), the registers that the requests of
spec 09 name, the lengths of frames (spec 13, spec 15, spec 19) and of what a carrier brings.
-/
namespace Sys2Proof

/-- The address is that of an L2CTL (spec 09, offset 0 of an L2C instance). -/
def isL2ctl (pa : Nat) : Bool := decide (0xFF00210000 ≤ pa) && decide (pa < 0xFF00218000) && pa % 0x1000 == 0
/-- The address is that of an L3CTL (spec 09, offset 0 of an L3C instance). -/
def isL3ctl (pa : Nat) : Bool := decide (0xFF00300000 ≤ pa) && decide (pa < 0xFF00320000) && pa % 0x1000 == 0
/-- The address lies in I/O space (Table 1-6). -/
def inIoSpace (pa : Nat) : Bool := decide (0xFF00000000 ≤ pa)

/-- A level that an asynchronous event enters on the main bank (R174): 2 to 5, and 7; level 6 has a row of its own. -/
def mainLevel (l : Nat) : Bool := (decide (2 ≤ l) && decide (l ≤ 5)) || l == 7

/-- The command is one that a sender can form. -/
def Instr.wellFormed : Instr → Bool
  | .levelEventEntry _ lvl => mainLevel lvl.val
  | .claimRead _ _ lvl _ => decide (2 ≤ lvl.val)
  | .registerWrite _ pa _ => inIoSpace pa.toNat
  | .scratchpadRequest _ pa _ => isL2ctl pa.toNat
  | .wayPowerRequest _ pa _ => isL2ctl pa.toNat || isL3ctl pa.toNat
  | .dataFrameReceive _ _ _ _ msgs => decide (1 ≤ msgs.length) && decide ((msgs.map (fun m => 16 + 9 * m.body.length)).sum ≤ 256)
  | .jtagSamplePreload cells => (cells.map (·.1)).Pairwise (· < ·)
  | _ => true

end Sys2Proof
end

