-- ==== Sys2Proof/Tests/Slice0.lean ====
section
/-!
SUPPORT. Tests: the terms that WellFormed refuses, single steps on a small machine, and, for every statement with hypotheses, states and operands
that meet them.
-/
namespace Sys2Proof.Machine

set_option Elab.async false

open Sys2Proof

/-! A small machine: partition 1 owns core 0, whose segment table has a DATA, a CODE, a STACK and a BANK segment. -/

/-- Memory that holds the words listed, by rising address. -/
def memOf (l : List (Nat × Word)) : Tab Stored := l.map (fun e => (e.1, Ecc.encode e.2))

/-- A descriptor of a segment of 4096 words at base, with every right in both modes. -/
def descOf (at_ typ base : Nat) : List (Nat × Word) :=
  [(at_, fixW (putFld 63 63 1 ||| putFld 62 60 typ ||| putFld 59 54 63 ||| putFld 39 0 base)), (at_ + 1, fixN 4096)]

/-- The segment table, at 0x1000: 1 is DATA at 0x2000, 2 CODE at 0x3000, 3 STACK at 0x4000, 4 BANK at 0x5000. -/
def table : List (Nat × Word) := descOf 0x1002 0 0x2000 ++ descOf 0x1004 1 0x3000 ++ descOf 0x1006 3 0x4000 ++ descOf 0x1008 4 0x5000

/-- Core 0 runs in partition 1, executing the CODE object at offset 0 of segment 2, with the hand registers h (hand 0: local k is at k and in k at
8 + k; out k is at 24 + k), the memory words m beyond the table, and the I/O registers io. -/
def rigOf (sup : Bool) (h : Tab Word) (m : List (Nat × Word)) (io : List (Nat × W64) := []) (f : CoreSt → CoreSt := id) : State :=
  let core : CoreSt := f { run := .run, ip := { sel := 2, off := 0, idx := 0 }, hands := h, sg := [(1, 1)], cr := [(CRN.cst, putFld 7 7 sup.toNat)] }
  let regs : List (Nat × W64) := [(Reg.CORE_CINFO 0, putFld 15 12 1 ||| putFld 11 11 1), (Reg.MEMC_MCFG 0, 1#64)] ++ io
  { State.reset with hs := { dev := .run }, cores := [(0, core)], parts := [(1, { defined := true, tsize := 16, segBase := 0x1000 })],
                     mem := memOf (table ++ m), io := regs.foldl (fun t e => Tab.set t e.1 e.2 (regReset e.1)) [] }

/-- Three facts that one evaluation decides, before the rest of a conjunction. -/
theorem three {p q r t : Prop} (h : p ∧ q ∧ r) (k : t) : p ∧ q ∧ r ∧ t := ⟨h.1, h.2.1, h.2.2, k⟩

/-- Local k and in k of hand 0 as places of the hand registers; registers 16 + k and 24 + k name them. -/
theorem test_names : (List.range 16).map (fun k => handKey 0 (16 + k)) = List.range 16 := by decide +kernel

/-! The premises of the statements, from what evaluates. -/

theorem atEase_of {s : State} {c : Nat} (h : (s.ready c && !s.dbgOn c && !s.repAct c && (s.snap c || s.crF c CRN.gds 12 8 == 0)) = true) :
    AtEase s c := by
  simp only [Bool.and_eq_true, Bool.or_eq_true, Bool.not_eq_true', beq_iff_eq] at h
  exact ⟨h.1.1.1, h.1.1.2, h.1.2, h.2⟩

theorem settled_rig (sup : Bool) (h : Tab Word) (m : List (Nat × Word)) (io : List (Nat × W64)) (f : CoreSt → CoreSt)
    (hd : ((rigOf sup h m io f).core 0).dcache = []) : Settled (rigOf sup h m io f) 0 := by
  refine ⟨fun e he => ?_, fun h k => (nomatch (show none = some h from k)), fun pa => ?_⟩
  · rw [hd] at he; cases he
  · unfold State.transitAt
    split
    · rfl
    · rfl

theorem reaches_of {s : State} {c sel off : Nat} {a : Acc} {pa : Nat}
    (h : s.checkDesc (s.corePart c) sel (s.coreDesc c sel) off a (s.sup c) = .ok pa ∧ isIo pa = false) : Reaches s c sel off a pa := ⟨h.1, h.2⟩

theorem holds_of {s : State} {c sel off : Nat} {a : Acc} {pa : Nat} {w : Word}
    (h : s.checkDesc (s.corePart c) sel (s.coreDesc c sel) off a (s.sup c) = .ok pa ∧ isIo pa = false ∧ s.peekWord pa = (w, .ok)) :
    Holds s c sel off a pa w := ⟨⟨h.1, h.2.1⟩, by rw [h.2.2], by rw [h.2.2]; exact fun e => nomatch e⟩

theorem storable_of {s : State} {c sel off pa : Nat} {w : Word}
    (h : s.checkDesc (s.corePart c) sel (s.coreDesc c sel) off .write (s.sup c) = .ok pa ∧ isIo pa = false ∧ Ctx.ring pa = false ∧
      (s.peekWord pa).2 ≠ .uncorr ∧ (s.sup c = true ∨ isStructural (s.peekWord pa).1.tag = false ∧ isStructural w.tag = false) ∧
      s.sweep.heap = none ∧ s.storeOk (s.corePart c) w sel (s.coreDesc c sel) pa = true) : Storable s c sel off pa w :=
  ⟨⟨h.1, h.2.1⟩, h.2.2.1, h.2.2.2.1, h.2.2.2.2.1.imp id (·.1), .inl h.2.2.2.2.2.1, h.2.2.2.2.1.imp id (·.2), h.2.2.2.2.2.2⟩

theorem storableBy_of {s : State} {c sel off pa : Nat} {a : Acc} {w : Word}
    (h : s.checkDesc (s.corePart c) sel (s.coreDesc c sel) off a (s.sup c) = .ok pa ∧ isIo pa = false ∧ Ctx.ring pa = false ∧
      (s.peekWord pa).2 ≠ .uncorr ∧ s.sup c = true ∧ s.sweep.heap = none ∧ s.storeOk (s.corePart c) w sel (s.coreDesc c sel) pa = true) : StorableBy s c a sel off pa w :=
  ⟨⟨h.1, h.2.1⟩, h.2.2.1, h.2.2.2.1, .inl h.2.2.2.2.1, .inl h.2.2.2.2.2.1, h.2.2.2.2.2.2⟩

theorem object_of {s : State} {c : Nat} {p : Word} {pa : Nat} {hdr : W64}
    (h : s.isPtr p.tag = true ∧ s.malformed p = false ∧ p.tag ≠ Tag.cons ∧ fld hdr 63 56 = p.tag.toNat) (k : Holds s c (ptrSel p.pay) (ptrOff p.pay) .read pa ⟨Tag.hdr, hdr⟩) :
    Object s c p pa hdr := ⟨h.1, h.2.1, h.2.2.1, k, h.2.2.2⟩

/-! Register instructions. -/

/-- Raw operands in l0 and l1, zero in l2. -/
def raws : State := rigOf false [(0, fixN 7), (1, ⟨Tag.raww, -1#64⟩), (2, fixN 0)] []
theorem raws_atEase : AtEase raws 0 := atEase_of (by decide +kernel)

theorem witness_RawArithmetic : AtEase raws 0 ∧ rawTag (raws.reg 0 16) ∧ rawTag (raws.reg 0 17) ∧ (raws.reg 0 17).pay ≠ 0#64 ∧ rawTag (raws.reg 0 18) ∧
    (raws.reg 0 18).pay = 0#64 :=
  ⟨raws_atEase, .inl (by decide +kernel), .inr (by decide +kernel), by decide +kernel, .inl (by decide +kernel), by decide +kernel⟩

/-- FIX operands: the largest, 3, 0, and the most negative plus one. -/
def fixes : State := rigOf true [(0, fixI (2 ^ 63 - 1)), (1, fixN 3), (2, fixN 0), (3, fixI (1 - 2 ^ 63)), (4, ⟨Tag.raww, 9#64⟩), (5, fixN 0xFF), (6, fixN 0x1B)] []
theorem fixes_atEase : AtEase fixes 0 := atEase_of (by decide +kernel)

theorem witness_FixArithmetic : AtEase fixes 0 ∧ (fixes.reg 0 16).tag = Tag.fix ∧ (fixes.reg 0 17).tag = Tag.fix ∧ (fixes.reg 0 18).tag = Tag.fix ∧
    (let x := (fixes.reg 0 16).pay.toInt
     let y := (fixes.reg 0 17).pay.toInt
     let z := (fixes.reg 0 18).pay.toInt
     ¬ outOf64 (x + z) ∧ ¬ outOf64 (x - y) ∧ ¬ outOf64 (y * y) ∧ y ≠ 0 ∧ ¬ outOf64 (x.fdiv y) ∧ ¬ outOf64 (x.tdiv y) ∧ 0 ≤ y ∧ ¬ outOf64 (y * 2 ^ y.toNat) ∧
     z = 0 ∧ ¬ outOf64 (-x) ∧ ¬ outOf64 |(fixes.reg 0 19).pay.toInt| ∧ ¬ outOf64 (x + (0#13).toInt) ∧ ¬ outOf64 (x - (1#13).toInt) ∧ ¬ outOf64 (x * (1#13).toInt)) :=
  ⟨fixes_atEase, by decide +kernel, by decide +kernel, by decide +kernel, by decide +kernel⟩

theorem witness_OrderAndIdentity : AtEase fixes 0 ∧ (fixes.reg 0 16).tag = Tag.fix ∧ (fixes.reg 0 19).tag = Tag.fix :=
  ⟨fixes_atEase, by decide +kernel, by decide +kernel⟩

/-- A user core with a CONS word in l0, a FLO one and infinity in l1 and l2, quantities in l3, and the ends of a dimension's and a value's range. -/
def mixed : State := rigOf false [(0, ⟨Tag.cons, ptrPay 1 0⟩), (1, ⟨Tag.flo, 0x3FF0000000000000#64⟩), (2, ⟨Tag.flo, 0x7FF0000000000000#64⟩),
  (3, ⟨Tag.qty, putFld 33 18 1⟩), (4, fixI (-(2 ^ 29))), (5, fixN (2 ^ 18 - 1)), (6, fixI (2 ^ 29 - 1)), (7, fixN 0)] []
theorem mixed_atEase : AtEase mixed 0 := atEase_of (by decide +kernel)

theorem witness_MovesAndTags : (AtEase fixes 0 ∧ fixes.sup 0 = true ∧ rawTag (fixes.reg 0 20) ∧ (fixes.reg 0 22).tag = Tag.fix ∧
      (fixes.reg 0 22).pay.toNat < 256 ∧ fixes.isReserved ((fixes.reg 0 22).pay.setWidth 8) = false ∧ (fixes.reg 0 22).pay.setWidth 8 ≠ Tag.fwd) ∧
    (AtEase mixed 0 ∧ mixed.sup 0 = false ∧ (mixed.reg 0 16).tag = Tag.cons ∧ mixed.isReserved (mixed.reg 0 16).tag = false ∧
      mixed.malformed (mixed.reg 0 16) = false ∧ mixed.reg 0 16 ≠ unboundW ∧ (mixed.reg 0 19).tag = Tag.qty) ∧
    (4#18).toNat ≤ 4 ∧ ¬ (0xD800 ≤ (0xD7FF#18).toNat ∧ (0xD7FF#18).toNat ≤ 0xDFFF) ∧ ¬ (0xD800 ≤ (0xE000#18).toNat ∧ (0xE000#18).toNat ≤ 0xDFFF) :=
  ⟨⟨fixes_atEase, by decide +kernel, .inr (by decide +kernel), by decide +kernel, by decide +kernel, by decide +kernel, by decide +kernel⟩,
   ⟨mixed_atEase, by decide +kernel, by decide +kernel, by decide +kernel, by decide +kernel, by decide +kernel, by decide +kernel⟩, by decide⟩

theorem witness_Conversions : AtEase mixed 0 ∧ (mixed.reg 0 17).tag = Tag.flo ∧ Flo.isFin (mixed.reg 0 17).pay = true ∧
    ¬ outOf64 (Flo.toInt (mixed.reg 0 17).pay (mixed.fsrRm 0)).1 ∧ (mixed.reg 0 18).tag = Tag.flo ∧ Flo.isFin (mixed.reg 0 18).pay = false ∧
    (mixed.reg 0 19).tag = Tag.qty ∧ (mixed.reg 0 20).tag = Tag.fix ∧ -(2 ^ 29) ≤ (mixed.reg 0 20).pay.toInt ∧ (mixed.reg 0 22).pay.toInt < 2 ^ 29 ∧
    (mixed.reg 0 21).tag = Tag.fix ∧ (mixed.reg 0 21).pay.toNat < 2 ^ 18 :=
  ⟨mixed_atEase, by decide +kernel⟩

theorem witness_PairOfMoves : AtEase mixed 0 ∧ (16 : RegN) ≠ 17 ∧ (16 : RegN) ≠ 18 := ⟨mixed_atEase, by decide⟩

/-! Memory instructions. -/

/-- A user core with objects in segment 1: a list of two cells at 0 and 2, whose second car is a cell at 4 with the key 9; a VEC of three words at 8; a
BYT of 15 octets at 0x10. l0 to l7 hold the list, the second cell, the key, NIL, FIX 1, the VEC, the BYT and FIX 14; i0 to i7 FIX 8, 10, 5, 7, 0 and words to
compare. -/
def objects (sup : Bool) (f : CoreSt → CoreSt := id) : State :=
  rigOf sup [(0, ⟨Tag.cons, ptrPay 1 0⟩), (1, ⟨Tag.cons, ptrPay 1 2⟩), (2, fixN 9), (3, nilW), (4, fixN 1), (5, ⟨Tag.vec, ptrPay 1 8⟩), (6, ⟨Tag.byt, ptrPay 1 16⟩),
      (7, fixN 14), (8, fixN 8), (9, fixN 10), (10, fixN 2), (11, fixN 0)]
    [(0x2000, fixN 1), (0x2001, ⟨Tag.cons, ptrPay 1 2⟩), (0x2002, ⟨Tag.cons, ptrPay 1 4⟩), (0x2003, nilW), (0x2004, fixN 9), (0x2005, nilW),
     (0x2008, ⟨Tag.hdr, putFld 63 56 9 ||| putFld 39 0 3⟩), (0x2009, fixN 2), (0x200A, fixN 1), (0x200B, fixN 0),
     (0x2010, ⟨Tag.hdr, putFld 63 56 11 ||| putFld 47 40 1 ||| putFld 39 0 2⟩), (0x2011, ⟨Tag.raww, 0x0807060504030201#64⟩), (0x2012, ⟨Tag.raww, 0#64⟩)] [] f

theorem objects_atEase (sup : Bool) : AtEase (objects sup) 0 := atEase_of (by cases sup <;> decide +kernel)
theorem objects_settled (sup : Bool) (f : CoreSt → CoreSt) (h : ((objects sup f).core 0).dcache = []) : Settled (objects sup f) 0 := settled_rig _ _ _ _ _ h
theorem objects_settled' : Settled (objects false) 0 := objects_settled false id rfl

theorem first_cell : Cell (objects false) 0 ((objects false).reg 0 16) 0x2000 0x2001 (fixN 1) ⟨Tag.cons, ptrPay 1 2⟩ :=
  ⟨by decide +kernel, by decide +kernel, holds_of (by decide +kernel), holds_of (by decide +kernel)⟩
theorem second_cell : Cell (objects false) 0 ((objects false).reg 0 17) 0x2002 0x2003 ⟨Tag.cons, ptrPay 1 4⟩ nilW :=
  ⟨by decide +kernel, by decide +kernel, holds_of (by decide +kernel), holds_of (by decide +kernel)⟩
theorem key_cell : Cell (objects false) 0 ⟨Tag.cons, ptrPay 1 4⟩ 0x2004 0x2005 (fixN 9) nilW :=
  ⟨by decide +kernel, by decide +kernel, holds_of (by decide +kernel), holds_of (by decide +kernel)⟩

theorem witness_ListReads : AtEase (objects false) 0 ∧ Settled (objects false) 0 ∧ (objects false).reg 0 19 = nilW ∧
    Cell (objects false) 0 ((objects false).reg 0 16) 0x2000 0x2001 (fixN 1) ⟨Tag.cons, ptrPay 1 2⟩ :=
  ⟨objects_atEase _, objects_settled', by decide +kernel, first_cell⟩

theorem witness_ListStores : AtEase (objects false) 0 ∧ Settled (objects false) 0 ∧ ((objects false).reg 0 16).tag = Tag.cons ∧
    (objects false).malformed ((objects false).reg 0 16) = false ∧ Reaches (objects false) 0 1 0 .write 0x2000 ∧ Reaches (objects false) 0 1 1 .write 0x2001 ∧
    Storable (objects false) 0 1 0 0x2000 ((objects false).reg 0 19) ∧ Storable (objects false) 0 1 1 0x2001 ((objects false).reg 0 19) :=
  ⟨objects_atEase _, objects_settled', by decide +kernel, by decide +kernel, reaches_of (by decide +kernel), reaches_of (by decide +kernel),
   storable_of (by decide +kernel), storable_of (by decide +kernel)⟩

/-- LEN (d i2, a l0, b l3 or l4), NTHCDR (b l4), MEMQ and LAST on both cells, ASSQ of the key in the second, REVX; and a walk at its yield point. -/
theorem witness_ListWalks : AtEase (objects false) 0 ∧ Settled (objects false) 0 ∧
    Cell (objects false) 0 ((objects false).reg 0 16) 0x2000 0x2001 (fixN 1) ⟨Tag.cons, ptrPay 1 2⟩ ∧
    Cell (objects false) 0 ((objects false).reg 0 17) 0x2002 0x2003 ⟨Tag.cons, ptrPay 1 4⟩ nilW ∧
    Cell (objects false) 0 ⟨Tag.cons, ptrPay 1 4⟩ 0x2004 0x2005 (fixN 9) nilW ∧ (objects false).reg 0 18 = fixN 9 ∧
    (objects false).reg 0 19 = nilW ∧ (objects false).reg 0 20 = fixN 1 ∧ (objects false).reg 0 26 = fixN 2 ∧ (objects false).reg 0 27 = fixN 0 ∧
    Reaches (objects false) 0 1 0 .write 0x2000 ∧ Storable (objects false) 0 1 1 0x2001 ((objects false).reg 0 19) ∧
    (let w : Instr := .memq 0 20 18 19
     let s := objects false (fun x => { x with walk := some w })
     AtEase s 0 ∧ Settled s 0 ∧ stepOf s (.walkStep 0) w 0 ∧ (s.core 0).walk = some (.memq 0 20 18 19) ∧ s.reg 0 19 = nilW) :=
  ⟨objects_atEase _, objects_settled', first_cell, second_cell, key_cell, by decide +kernel, by decide +kernel, by decide +kernel, by decide +kernel,
   by decide +kernel, reaches_of (by decide +kernel), storable_of (by decide +kernel), atEase_of (by decide +kernel), objects_settled _ _ rfl,
   .inr ⟨rfl, by decide +kernel⟩, by decide +kernel, by decide +kernel⟩

theorem witness_SegmentAccess : AtEase (objects false) 0 ∧ Settled (objects false) 0 ∧ ((objects false).reg 0 24).tag = Tag.fix ∧
    ((objects false).reg 0 24).pay.toInt + (1#9).toInt = (9 : Nat) ∧ (objects false).regionOk 0x2009 = true ∧
    Holds (objects false) 0 ((objects false).sgR 0 1) 9 .read 0x2009 (fixN 2) ∧ ((objects false).reg 0 20).tag = Tag.fix ∧
    ¬ outOf64 (((objects false).reg 0 20).pay.toInt + (fixN 2).pay.toInt) ∧ Storable (objects false) 0 ((objects false).sgR 0 1) 9 0x2009 ((objects false).reg 0 20) ∧
    ((objects false).reg 0 25).pay.toInt = (10 : Nat) ∧ ((objects false).reg 0 24).pay.toInt = (8 : Nat) ∧
    Storable (objects false) 0 ((objects false).sgR 0 1) 10 0x200A (fixN 2) :=
  ⟨objects_atEase _, objects_settled', by decide +kernel, by decide +kernel, by decide +kernel, holds_of (by decide +kernel), by decide +kernel, by decide +kernel,
   storable_of (by decide +kernel), by decide +kernel, by decide +kernel, storable_of (by decide +kernel)⟩

theorem vec_object : Object (objects false) 0 ((objects false).reg 0 21) 0x2008 (putFld 63 56 9 ||| putFld 39 0 3) :=
  object_of (by decide +kernel) (holds_of (by decide +kernel))
theorem byt_object : Object (objects false) 0 ((objects false).reg 0 22) 0x2010 (putFld 63 56 11 ||| putFld 47 40 1 ||| putFld 39 0 2) :=
  object_of (by decide +kernel) (holds_of (by decide +kernel))

/-- The last element of the VEC, the last octet of the BYT, and both words of a cell. -/
theorem witness_ObjectAccess : AtEase (objects false) 0 ∧ Settled (objects false) 0 ∧
    Object (objects false) 0 ((objects false).reg 0 21) 0x2008 (putFld 63 56 9 ||| putFld 39 0 3) ∧ Holds (objects false) 0 1 11 .read 0x200B (fixN 0) ∧
    Storable (objects false) 0 1 11 0x200B ((objects false).reg 0 19) ∧ ((2#9).toInt = (2 : Nat) ∧ (objects false).reg 0 26 = fixN 2) ∧
    Object (objects false) 0 ((objects false).reg 0 22) 0x2010 (putFld 63 56 11 ||| putFld 47 40 1 ||| putFld 39 0 2) ∧ (objects false).reg 0 23 = fixN 14 ∧
    Holds (objects false) 0 1 18 .read 0x2012 ⟨Tag.raww, 0#64⟩ ∧
    Storable (objects false) 0 1 18 0x2012 ⟨Tag.raww, setFld ((objects false).peekWord 0x2012).1.pay 55 48 9⟩ ∧
    Cell (objects false) 0 ((objects false).reg 0 16) 0x2000 0x2001 (fixN 1) ⟨Tag.cons, ptrPay 1 2⟩ ∧ (objects false).reg 0 20 = fixN 1 :=
  ⟨objects_atEase _, objects_settled', vec_object, holds_of (by decide +kernel), storable_of (by decide +kernel), by decide +kernel, byt_object, by decide +kernel,
   holds_of (by decide +kernel), storable_of (by decide +kernel), first_cell, by decide +kernel⟩

/-- The CODE object that core 0 executes: header, body word 0 with ICOUNT 4, the constants vector, the name, and the instruction words given. -/
def codeAt (k : Word) (w : List W64) : List (Nat × Word) :=
  [(0x3000, ⟨Tag.hdr, putFld 63 56 0x0E ||| putFld 39 0 6⟩), (0x3001, fixN 4), (0x3002, k), (0x3003, nilW)] ++
  (w.mapIdx fun i x => (0x3004 + i, ⟨Tag.raww, x⟩))
def running (sup : Bool) (h : Tab Word) (m : List (Nat × Word)) (w : List W64 := [0#64, 0#64]) (io : List (Nat × W64) := []) (f : CoreSt → CoreSt := id) : State :=
  rigOf sup h (m ++ codeAt ⟨Tag.vec, ptrPay 1 8⟩ w) io f

def consts : State := running false [] [(0x2008, ⟨Tag.hdr, putFld 63 56 9 ||| putFld 39 0 2⟩), (0x2009, fixN 2), (0x200A, fixN 1)]

theorem witness_Constants : AtEase consts 0 ∧ Settled consts 0 ∧
    Holds consts 0 (consts.core 0).ip.sel ((consts.core 0).ip.off + 2) .exec 0x3002 ⟨Tag.vec, ptrPay 1 8⟩ ∧
    Object consts 0 ⟨Tag.vec, ptrPay 1 8⟩ 0x2008 (putFld 63 56 9 ||| putFld 39 0 2) ∧ (1#18).toNat < fld (putFld 63 56 9 ||| putFld 39 0 2) 39 0 ∧
    Holds consts 0 1 10 .read 0x200A (fixN 1) :=
  ⟨atEase_of (by decide +kernel), settled_rig _ _ _ _ _ rfl, holds_of (by decide +kernel), object_of (by decide +kernel) (holds_of (by decide +kernel)),
   by decide +kernel, holds_of (by decide +kernel)⟩

/-- Element 1 of the VEC, and the word at offset 8 + 2 of segment register 1. -/
theorem witness_Reservations : AtEase (objects false) 0 ∧ Settled (objects false) 0 ∧
    Names (objects false) 0 ((objects false).reg 0 21) ((objects false).reg 0 20) 0#5 .write 1 10 0x200A (fixN 1) ∧
    Names (objects false) 0 ((objects false).reg 0 24) ((objects false).reg 0 26) 3#5 .read ((objects false).sgR 0 1) 10 0x200A (fixN 1) ∧
    Storable (objects false) 0 1 10 0x200A ((objects false).reg 0 19) ∧
    (let s := objects false (fun x => { x with resv := some (0x200A / 8) })
     AtEase s 0 ∧ Settled s 0 ∧ (s.core 0).resv = some (0x200A / 8) ∧ ((objects false).core 0).resv ≠ some (0x200A / 8)) :=
  ⟨objects_atEase _, objects_settled',
   ⟨holds_of (by decide +kernel), by decide +kernel, .inl ⟨rfl, by decide +kernel, by decide +kernel, by decide +kernel, _, _, vec_object, by decide +kernel, fun _ => by decide +kernel⟩⟩,
   ⟨holds_of (by decide +kernel), by decide +kernel, .inr (.inr ⟨by decide +kernel, by decide +kernel, by decide +kernel, by decide +kernel, by decide +kernel⟩)⟩,
   storable_of (by decide +kernel), atEase_of (by decide +kernel), objects_settled _ _ rfl, by decide +kernel, by decide +kernel⟩

/-- The two words of the cell at 4 hold what i0 and i1 hold, or not; quantities for FADD. -/
def swaps : State := rigOf false [(0, ⟨Tag.vec, ptrPay 1 7⟩), (1, fixN 0), (4, fixN 9), (5, nilW), (6, fixN 1), (7, fixN 2), (8, ⟨Tag.qty, putFld 33 18 1⟩), (9, fixN 1), (10, fixN 2)]
  [(0x2007, ⟨Tag.hdr, putFld 63 56 9 ||| putFld 39 0 3⟩), (0x2008, fixN 9), (0x2009, nilW), (0x200A, ⟨Tag.qty, putFld 33 18 5⟩)]
theorem swaps_vec : Object swaps 0 (swaps.reg 0 16) 0x2007 (putFld 63 56 9 ||| putFld 39 0 3) :=
  object_of (by decide +kernel) (holds_of (by decide +kernel))
theorem swaps_names (b off pa : Nat) (w : Word) (h : swaps.checkDesc (swaps.corePart 0) 1 (swaps.coreDesc 0 1) off .read (swaps.sup 0) = .ok pa ∧ isIo pa = false ∧
      swaps.peekWord pa = (w, .ok)) (k : ((off : Int) = 7 + 1 + (b : Int) ∧ (0 : Int) ≤ b ∧ b < 3) ∧ (fixN b).pay.toInt = b) :
    Names swaps 0 (swaps.reg 0 16) (fixN b) 0#5 .write 1 off pa w :=
  ⟨holds_of h, rfl, .inl ⟨rfl, by decide +kernel, by rw [k.2]; exact k.1.1, by rw [k.2]; exact k.1.2.1, _, _, swaps_vec,
    by rw [k.2]; have := k.1.2.2; show (b : Int) < ((3 : Nat) : Int); omega, fun _ => by decide +kernel⟩⟩

theorem witness_AtomicExchanges : AtEase swaps 0 ∧ Settled swaps 0 ∧
    Names swaps 0 (swaps.reg 0 16) (fixN 0) 0#5 .write 1 8 0x2008 (fixN 9) ∧ Names swaps 0 (swaps.reg 0 16) (fixN 1) 0#5 .write 1 9 0x2009 nilW ∧
    Names swaps 0 (swaps.reg 0 16) (fixN 2) 0#5 .write 1 10 0x200A ⟨Tag.qty, putFld 33 18 5⟩ ∧
    swaps.reg 0 17 = fixN 0 ∧ swaps.reg 0 25 = fixN 1 ∧ swaps.reg 0 26 = fixN 2 ∧ (⟨(swaps.reg 0 17).tag, (swaps.reg 0 17).pay + 1#64⟩ : Word) = fixN 1 ∧
    Storable swaps 0 1 8 0x2008 (swaps.reg 0 22) ∧ Storable swaps 0 1 9 0x2009 (swaps.reg 0 23) ∧
    Storable swaps 0 1 10 0x200A (swaps.reg 0 24) ∧ swaps.reg 0 20 = fixN 9 ∧ swaps.reg 0 21 = nilW ∧
    (let p := putFld 33 18 5
     let r := (swaps.reg 0 24).pay
     (swaps.reg 0 24).tag = Tag.qty ∧ fld p 17 0 = fld r 17 0 ∧ -(2 ^ 45) ≤ sfld p 63 18 + sfld r 63 18 ∧ sfld p 63 18 + sfld r 63 18 < 2 ^ 45) :=
  ⟨atEase_of (by decide +kernel), settled_rig _ _ _ _ _ rfl, swaps_names 0 8 _ _ (by decide +kernel) (by decide +kernel),
   swaps_names 1 9 _ _ (by decide +kernel) (by decide +kernel), swaps_names 2 10 _ _ (by decide +kernel) (by decide +kernel), by decide +kernel, by decide +kernel,
   by decide +kernel, by decide +kernel, storable_of (by decide +kernel), storable_of (by decide +kernel), storable_of (by decide +kernel), by decide +kernel,
   by decide +kernel, by decide +kernel⟩

/-! Allocation. Heap segment 0 of partition 1 is segment 5, one region at 0x20000, and core 0 has its area there with 131068 words used. -/

def areas : State :=
  rigOf false [(0, fixN 1), (1, fixN 9), (2, fixN 3), (3, fixN 17), (4, ⟨Tag.code, ptrPay 2 0⟩), (5, fixN 2)]
    [(0x100A, fixW (putFld 63 63 1 ||| putFld 62 60 2 ||| putFld 59 54 63 ||| putFld 39 0 0x20000)), (0x100B, fixN 131072)]
    [(Reg.SWP_HGEOM 0, putFld 63 52 5 ||| putFld 51 48 1 ||| putFld 47 47 1 ||| putFld 46 29 1 ||| putFld 22 0 1),
     (Reg.SWP_AREA 0, putFld 63 63 1 ||| putFld 60 60 1 ||| putFld 34 17 131068)]

theorem areas_room (n : Nat) (h : n ≤ 4) : Room areas 0 n 0 0 131068 :=
  ⟨by decide +kernel, by decide +kernel, by decide +kernel, by decide +kernel, by decide +kernel, by omega, by omega⟩

theorem witness_Allocation : AtEase areas 0 ∧ Settled areas 0 ∧ Room areas 0 2 0 0 131068 ∧ Room areas 0 4 0 0 131068 ∧ Fits areas 0 0 (areas.reg 0 16) ∧
    (areas.reg 0 17 = fixN 9 ∧ areas.allocKind 9 = true ∧ areas.reg 0 18 = fixN 3 ∧ allocSize 9 3 = true ∧ 4 = 2 * ((3 + 2) / 2)) ∧
    (areas.reg 0 19 = fixN 17 ∧ 4 = 2 * (((17 + 7) / 8 + 2) / 2)) ∧
    ((areas.reg 0 20).tag = Tag.code ∧ areas.malformed (areas.reg 0 20) = false ∧ areas.reg 0 21 = fixN 2 ∧ 4 = 2 * ((2 + 3) / 2) ∧
      Fits areas 0 0 (areas.reg 0 20) ∧ ∀ i, i < 2 → Fits areas 0 0 (areas.reg 0 (16 + i))) :=
  ⟨atEase_of (by decide +kernel), settled_rig _ _ _ _ _ rfl, areas_room 2 (by omega), areas_room 4 (by omega), ⟨.inr (by decide +kernel), by decide +kernel⟩,
   by decide +kernel, by decide +kernel, by decide +kernel, three (by decide +kernel) ⟨⟨.inr (by decide +kernel), by decide +kernel⟩,
   fun i hi => by
     have : i = 0 ∨ i = 1 := by omega
     rcases this with rfl | rfl <;> exact ⟨.inr (by decide +kernel), by decide +kernel⟩⟩⟩

/-! Queues and timers: partition 1 has queues 8 to 11 and 16 timers; queue 8 is live and empty, 9 has an item of class 1, 10 one of class 0 behind it, 11
is free. -/

def noItem : Item := { w0 := Word.void, w1 := Word.void, w2 := Word.void, w3 := Word.void }

def queued (sup : Bool) (x : CoreSt → CoreSt := id) : State :=
  { rigOf sup [(0, queWord 8 1 true true), (1, queWord 9 1 true true), (2, fixN 11), (3, fixN 0x400), (4, fixN 3), (5, ⟨Tag.qty, putFld 33 18 1 ||| 0x200#64⟩), (6, nilW),
        (8, fixN 0x100007), (9, fixN 7)] []
      [(Reg.DLR_QRANGE 1, putFld 63 63 1 ||| putFld 62 42 16 ||| putFld 32 16 4 ||| 8#64), (Reg.DLR_QPOOL 1, 64#64)] x with
    queues := [(8, { phase := .live, gen := 1, cfg := 0x200 }),
               (9, { phase := .live, gen := 1, cfg := 0x200, held := [(none, 1, noItem), (some 0, 0, noItem), (none, 0, noItem)] })],
    timers := [(7, { armed := true, part := 1, queue := 8, qgen := 1 })] }

theorem queued_atEase (sup : Bool) : AtEase (queued sup) 0 := atEase_of (by cases sup <;> decide +kernel)
theorem first_handle (sup push : Bool) : Handle (queued sup) 0 ((queued sup).reg 0 16) 8 push :=
  ⟨by cases sup <;> decide +kernel, by cases sup <;> decide +kernel, by cases sup <;> decide +kernel, by cases sup <;> decide +kernel,
   by cases sup <;> decide +kernel, .inl (by cases sup <;> decide +kernel), by cases sup <;> cases push <;> decide +kernel⟩

/-- QPOP of queue 9 takes the second item, of class 0; core 0 waits at 9 with an item dealt; QNEW takes 11 by its number and by NIL. -/
theorem witness_Queues : AtEase (queued false) 0 ∧ Handle (queued false) 0 ((queued false).reg 0 16) 8 true ∧ Handle (queued false) 0 ((queued false).reg 0 16) 8 false ∧
    ((queued false).queue 8).count < cfgCap ((queued false).queue 8).cfg ∧ ((queued false).reg 0 20).tag = Tag.fix ∧ ((queued false).reg 0 20).pay.toNat ≤ 3 ∧
    (queued false).queueOwner 8 = some 1 ∧ (queued false).cycleHeap 1 = none ∧ ((queued false).queue 8).items = [] ∧
    (Handle (queued false) 0 ((queued false).reg 0 17) 9 false ∧ (queued false).queueOwner 9 = some 1 ∧
      ((queued false).queue 9).held = [(none, 1, noItem), (some 0, 0, noItem)] ++ (none, 0, noItem) :: [] ∧ (queued false).sweep.heap = none ∧
      (∀ y ∈ [((none : Option Nat), (1 : Nat), noItem), (some 0, 0, noItem)], y.1 = none → 0 < y.2.1)) ∧
    (let s := queued false (fun x => { x with wait := .qwait 9 16 0#64 })
     (s.core 0).wait = .qwait 9 16 0#64 ∧ s.running 0 = true ∧ s.dbgOn 0 = false ∧ s.repAct 0 = false ∧
      (s.queue 9).held = [(none, 1, noItem)] ++ (some 0, 0, noItem) :: [(none, 0, noItem)]) ∧
    (let s := queued true
     let r := s.ioR (Reg.DLR_QRANGE 1)
     AtEase s 0 ∧ s.sup 0 = true ∧ (s.reg 0 19).tag = Tag.fix ∧ s.dealerOff = false ∧ bitAt r 63 = true ∧ cfgOk 0x400 = true ∧ cfgCap 0x400 ≤ s.poolFree 1 ∧
     s.reg 0 18 = fixN 11 ∧ fld r 15 0 ≤ 11 ∧ 11 < fld r 15 0 + fld r 32 16 ∧ (s.queue 11).phase = .free ∧ s.reg 0 22 = nilW ∧ s.freeNumber 1 = some 10 ∧
     Handle s 0 (s.reg 0 16) 8 false ∧ (s.queue 8).held = [] ∧ (s.queue 8).waiters = [] ∧ Tab.wf s.timers {} = true) :=
  ⟨queued_atEase _, first_handle _ _, first_handle _ _, by decide +kernel, by decide +kernel, by decide +kernel, three (by decide +kernel) ⟨⟨⟨by decide +kernel, by decide +kernel, by decide +kernel, by decide +kernel, by decide +kernel, .inl (by decide +kernel), by decide +kernel⟩, by decide +kernel,
    by decide +kernel, by decide +kernel⟩,
   by decide +kernel, queued_atEase _, by decide +kernel, by decide +kernel, by decide +kernel, three (by decide +kernel) ⟨by decide +kernel,
   by decide +kernel, by decide +kernel, three (by decide +kernel) ⟨first_handle _ _, by decide +kernel⟩⟩⟩⟩

/-- Arming takes timer 0, say; cancelling names timer 7, armed by this partition for queue 8 (i0), or another generation of it (i1). -/
theorem witness_Timers : AtEase (queued false) 0 ∧ Handle (queued false) 0 ((queued false).reg 0 16) 8 true ∧ ((queued false).reg 0 21).tag = Tag.qty ∧
    fld ((queued false).reg 0 21).pay 17 0 = 0x200 ∧
    (queued false).rf (Reg.DLR_TUSE 1) 20 0 < (queued false).rf (Reg.DLR_QRANGE 1) 62 42 ∧ ((queued false).timer 0).armed = false ∧
    (queued false).inAsh .timer 0 = false ∧ (queued false).reg 0 22 = nilW ∧ ((queued false).reg 0 24).tag = Tag.fix ∧
    (let k := fld ((queued false).reg 0 24).pay 19 0
     let x := (queued false).timer k
     k = 7 ∧ x.armed = true ∧ x.gen = fld ((queued false).reg 0 24).pay 35 20 ∧ x.part = 1 ∧ x.queue = 8 ∧ x.qgen = 1) ∧
    ((queued false).timer 7).gen ≠ fld ((queued false).reg 0 25).pay 35 20 :=
  ⟨queued_atEase _, first_handle _ _, by decide +kernel⟩

/-- Unit windows: partition 1 owns doorbell source 20 and UART 2; their DEV words are in l0 and l1. -/
def units : State :=
  { rigOf false [(0, ⟨Tag.dev, putFld 63 56 0x0D ||| putFld 55 52 1 ||| putFld 42 40 7 ||| 20#64⟩), (1, fixN 3), (2, ⟨Tag.dev, putFld 63 56 0x0A ||| putFld 55 52 1 ||| putFld 42 40 7 ||| 2#64⟩),
      (3, fixN 0xFFF), (4, fixN 0)] [] with owners := [(State.Res.uart.code * 65536 + 2, 2), (State.Res.source.code * 65536 + 20, 2)] }

theorem witness_UnitWindows : AtEase units 0 ∧ units.reg 0 17 = fixN 3 ∧ units.reg 0 19 = fixN 0xFFF ∧ units.reg 0 20 = fixN 0 ∧
    (let w := (units.reg 0 16).pay
     (units.reg 0 16).tag = Tag.dev ∧ units.malformed (units.reg 0 16) = false ∧ fld w 55 52 = units.corePart 0 ∧ units.devOwned 1 0x0D 20 = true ∧
     3 < devSize 0x0D ∧ bitAt w 41 = true ∧ fld w 63 56 = 0x0D ∧ fld w 15 0 = 20 ∧ bitAt w 40 = true ∧
     (units.devReg 0x0D 20 0).isSome = true) ∧
    (let w := (units.reg 0 18).pay
     (units.reg 0 18).tag = Tag.dev ∧ units.malformed (units.reg 0 18) = false ∧ fld w 55 52 = units.corePart 0 ∧ units.devOwned 1 0x0A 2 = true ∧
     0xFFF < devSize 0x0A ∧ bitAt w 40 = true ∧ fld w 63 56 = 0x0A ∧ fld w 15 0 = 2) :=
  ⟨atEase_of (by decide +kernel), by decide +kernel⟩

/-! Control flow. -/

/-- A core with truth values and zero in l0 to l2; a CODE word in l3 and an FN word in l4; a RET word in i7 of hand 1; COUNT 2 in l5. -/
def flow (cr : Tab W64) (w : List W64 := [0#64, 0#64]) : State :=
  running false [(0, nilW), (1, trueW), (2, fixN 0), (3, ⟨Tag.code, ptrPay 2 0⟩), (4, ⟨Tag.fn, ptrPay 1 8⟩), (5, fixN 2), (6, fixN 8), (7, fixN 9), (31, ⟨Tag.ret, retPay ⟨2, 0, 3⟩⟩)]
    [(0x2008, ⟨Tag.hdr, putFld 63 56 13 ||| putFld 39 0 1⟩), (0x2009, ⟨Tag.code, ptrPay 2 0⟩)] w [] (fun x => { x with cr := cr })

theorem flow_settled (cr : Tab W64) (w : List W64) : Settled (flow cr w) 0 := by
  unfold flow running
  exact settled_rig _ _ _ _ _ rfl

theorem flow_executes (cr : Tab W64) (w : List W64) (h : (flow cr w).checkDesc ((flow cr w).corePart 0) 2 ((flow cr w).coreDesc 0 2) 1 .exec ((flow cr w).sup 0) = .ok 0x3001 ∧
      isIo 0x3001 = false ∧ (flow cr w).peekWord 0x3001 = (fixN 4, .ok)) : Executes (flow cr w) 0 4 :=
  ⟨flow_settled _ _, fun _ _ _ e => (nomatch (show (none : Option Stored) = some _ from e)), 0x3001, fixN 4, holds_of h, rfl, by decide +kernel, by decide +kernel⟩

theorem witness_Branches : AtEase (flow []) 0 ∧ Executes (flow []) 0 4 ∧ (flow []).reg 0 16 = nilW ∧ (flow []).reg 0 17 = trueW ∧
    (trueW.tag ≠ Tag.void ∧ (flow []).isReserved trueW.tag = false ∧ (flow []).malformed trueW = false ∧ trueW ≠ unboundW) ∧ rawTag ((flow []).reg 0 18) ∧
    0 ≤ ((flow []).core 0).ip.idx + (7#18).toInt ∧ ((flow []).core 0).ip.idx + (7#23).toInt < 2 * (4 : Nat) :=
  ⟨atEase_of (by decide +kernel), flow_executes _ _ (by decide +kernel), by decide +kernel, by decide +kernel, by decide +kernel, .inl (by decide +kernel), by decide +kernel⟩

theorem flow_callable (cr : Tab W64) (h : (flow cr).malformed ⟨Tag.code, ptrPay 2 0⟩ = false ∧ ∀ o, o < 2 →
      (flow cr).checkDesc ((flow cr).corePart 0) 2 ((flow cr).coreDesc 0 2) o .exec ((flow cr).sup 0) = .ok (0x3000 + o) ∧
      (flow cr).peekWord (0x3000 + o) = (if o = 0 then ⟨Tag.hdr, putFld 63 56 0x0E ||| putFld 39 0 6⟩ else fixN 4, .ok)) :
    Callable (flow cr) 0 ⟨Tag.code, ptrPay 2 0⟩ (fixN 4) ⟨2, 0, 0⟩ :=
  ⟨rfl, h.1, by decide +kernel, by decide +kernel,
   ⟨0x3000, ⟨Tag.hdr, putFld 63 56 0x0E ||| putFld 39 0 6⟩, holds_of ⟨(h.2 0 (by omega)).1, by decide +kernel, (h.2 0 (by omega)).2⟩, by decide +kernel, by decide +kernel⟩,
   ⟨0x3001, holds_of ⟨(h.2 1 (by omega)).1, by decide +kernel, (h.2 1 (by omega)).2⟩⟩, by decide +kernel⟩

theorem witness_Calls : (AtEase (flow []) 0 ∧ Settled (flow []) 0 ∧ Callee (flow []) 0 ((flow []).reg 0 19) ⟨Tag.code, ptrPay 2 0⟩ nilW ∧
      Callee (flow []) 0 ((flow []).reg 0 20) ⟨Tag.code, ptrPay 2 0⟩ ((flow []).reg 0 20) ∧ Callable (flow []) 0 ⟨Tag.code, ptrPay 2 0⟩ (fixN 4) ⟨2, 0, 0⟩ ∧
      Accepts (fixN 4) 0 ∧ (flow []).snap 0 = false ∧ (flow []).handN 0 < 15) ∧
    (let s := flow [(CRN.chp, 1#64)]
     AtEase s 0 ∧ Settled s 0 ∧ s.reg 0 31 = ⟨Tag.ret, retPay ⟨2, 0, 3⟩⟩ ∧ s.handN 0 ≠ 1 ∧ Callable s 0 ⟨Tag.code, ptrPay 2 0⟩ (fixN 4) ⟨2, 0, 0⟩ ∧
     fld (fixN 4).pay 31 0 = 4 ∧ retIdx (retPay ⟨2, 0, 3⟩) < 2 * 4 ∧ Holds s 0 2 (0 + 4 + 3 / 2) .exec 0x3005 ⟨Tag.raww, 0#64⟩) :=
  ⟨⟨atEase_of (by decide +kernel), flow_settled _ _, .inl (by decide +kernel),
    .inr ⟨by decide +kernel, rfl, _, _, _, object_of (by decide +kernel) (holds_of (pa := 0x2008) (w := ⟨Tag.hdr, putFld 63 56 13 ||| putFld 39 0 1⟩) (by decide +kernel)),
      by decide +kernel, holds_of (pa := 0x2009) (by decide +kernel)⟩,
    flow_callable _ (by decide +kernel), by unfold Accepts; decide +kernel, by decide +kernel, by decide +kernel⟩,
   ⟨atEase_of (by decide +kernel), flow_settled _ _, by decide +kernel, by decide +kernel, flow_callable _ (by decide +kernel), by decide +kernel, by decide +kernel,
    holds_of (by decide +kernel)⟩⟩
/-- STS l7, l6, sg1, 0 stands at index 1; a repeat of count 1 or 2 may be active. -/
def sts : W64 := BitVec.ofNat 64 ((0x59 * 2 ^ 23 + 23 * 2 ^ 18 + 22 * 2 ^ 13 + 1 * 2 ^ 9) * 2 ^ 32)
theorem witness_Repeats : (let s := flow [] [sts, 0#64]
      AtEase s 0 ∧ Executes s 0 4 ∧ CodeAt s 0 4 1 (BitVec.ofNat 32 (0x59 * 2 ^ 23 + 23 * 2 ^ 18 + 22 * 2 ^ 13 + 1 * 2 ^ 9)) ∧ s.reg 0 21 = fixN 2 ∧
      s.reg 0 18 = fixN 0 ∧ (63#23).toNat = 63 ∧ 2 ≤ (s.part (s.corePart 0)).repLim) ∧
    ∀ n : Nat, n < 2 →
     (let s := flow [(CRN.rpt, putFld 32 32 1 ||| putFld 31 0 (n + 1))] [sts, 0#64]
      Executes s 0 4 ∧ s.ready 0 = true ∧ s.dbgOn 0 = false ∧ s.crF 0 CRN.gds 12 8 = 0 ∧ s.repAct 0 = true ∧ fld (s.rptR 0) 31 0 = n + 1 ∧
      (s.reg 0 22).tag = Tag.fix ∧ (s.reg 0 22).pay.toInt + (0#9).toNat = (8 : Nat) ∧ s.regionOk 0x2008 = true ∧
      Storable s 0 (s.sgR 0 1) 8 0x2008 (s.reg 0 23)) :=
  ⟨⟨atEase_of (by decide +kernel), flow_executes _ _ (by decide +kernel), ⟨by decide, 0x3004, ⟨Tag.raww, sts⟩, holds_of (by decide +kernel), by decide +kernel, by decide +kernel⟩,
    by decide +kernel⟩,
   fun n hn => by
     have : n = 0 ∨ n = 1 := by omega
     rcases this with rfl | rfl <;>
       exact ⟨flow_executes _ _ (by decide +kernel), by decide +kernel, by decide +kernel, by decide +kernel, three (by decide +kernel) ⟨by decide +kernel, by decide +kernel, storable_of (by decide +kernel)⟩⟩⟩

/-- Slot 3 of cluster 0 is valid, for user mode, with its routine at 0x2000: one microword that moves source A to the destination and ends. -/
def custom (f : CoreSt → CoreSt := id) : State :=
  { rigOf false [(0, fixN 7)] [] [(Reg.MCS_DEC 0 0xD3, putFld 31 31 1 ||| 0x2000#64)] f with
    wcs := [(0x2000, BitVec.ofNat 128 (4 * 2 ^ 103 + 1 * 2 ^ 86 + 1 * 2 ^ 80))] }
def standing (act : Nat) (x : CoreSt) : CoreSt := { x with micro := some { act := act, opd := some (fixN 7), d := 17 } }

/-- An offer of source 20, at a level, to core 0. -/
def offering (lvl : Nat) (s : State) : State :=
  ({ s with offers := [(20, 1)], owners := [(State.Res.source.code * 65536 + 20, 2)] }.ioW (Reg.INTC_SCFG 20) (putFld 63 63 1 ||| putFld 60 58 lvl)).ioW (Reg.INTC_SSTAT 20) (putFld 9 9 1)

theorem witness_CustomPage : (let e := custom.decEntry 0 (0xD0 + 3)
      let w : BitVec 128 := BitVec.ofNat 128 (4 * 2 ^ 103 + 1 * 2 ^ 86 + 1 * 2 ^ 80)
      AtEase custom 0 ∧ bitAt e 31 = true ∧ bitAt e 29 = false ∧ 0x2000 ≤ fld e 13 0 ∧ Tab.get custom.wcs (fld e 13 0) 0#128 = w ∧
      Tab.get custom.ucBad (0 / 8 * 2 ^ 14 + fld e 13 0) false = false ∧ Image.mField w 67 65 = 0 ∧ Image.mField w 91 86 = 1 ∧ Image.mField w 85 80 = 1 ∧
      Image.mField w 73 68 = 0 ∧ Image.mField w 105 103 = 4 ∧ Image.mField w 127 125 = 0) ∧
    (let s := custom (standing 4)
     (s.core 0).micro = some { act := 4, opd := some (fixN 7), d := 17 } ∧ s.running 0 = true ∧ s.dbgOn 0 = false ∧ s.repAct 0 = false) ∧
    (let s := offering 5 (custom (standing 3))
     (s.core 0).micro = some { act := 3, opd := some (fixN 7), d := 17 } ∧ s.running 0 = true ∧ s.dbgOn 0 = false ∧ s.eventPending 0 true = true) :=
  ⟨⟨atEase_of (by decide +kernel), by decide +kernel⟩, by decide +kernel, by decide +kernel⟩

/-! Exceptions. The vector table of core 0 stands at 0x2100; every vector of it names the CODE object at offset 0 of segment 2. -/

def vectored (cst : W64) (io : List (Nat × W64)) (f : CoreSt → CoreSt := id) : State :=
  running false [(0, fixN 7), (31, ⟨Tag.ret, retPay ⟨2, 0, 3⟩⟩)]
    ([0x01, 0x40, 0x41, 0x45, 0x46, 0x47, 0x48].map (fun k => (0x2100 + k, ⟨Tag.code, ptrPay 2 0⟩))) [0#64, 0#64] io
    (fun x => f { x with cr := [(CRN.cst, cst), (CRN.xtb, putFld 63 52 1 ||| putFld 51 51 1 ||| 0x100#64)] })

theorem enterable_of {s : State} {c lvl vec pa : Nat} {k : Word}
    (h : s.cl c < lvl ∧ bitAt (s.crR c CRN.xtb) 51 = true ∧ (lvl = 6 ∨ (s.handN c ≠ 16 ∧ s.absent c 9 = false)) ∧
      s.checkDesc (s.corePart c) (ptrSel (s.crR c CRN.xtb)) (s.coreDesc c (ptrSel (s.crR c CRN.xtb))) (ptrOff (s.crR c CRN.xtb) + vec) .read true = .ok pa ∧
      isIo pa = false ∧ s.peekWord pa = (k, .ok) ∧ k = ⟨Tag.code, ptrPay 2 0⟩ ∧ s.malformed k = false ∧
      (∀ o, o < 2 → s.checkDesc (s.corePart c) 2 (s.coreDesc c 2) o .exec true = .ok (0x3000 + o) ∧
        s.peekWord (0x3000 + o) = (if o = 0 then ⟨Tag.hdr, putFld 63 56 0x0E ||| putFld 39 0 6⟩ else fixN 4, .ok))) :
    Enterable s c lvl vec ⟨2, 0, 0⟩ := by
  obtain ⟨a, t, hd, ch, io, pk, rfl, mf, cd⟩ := h
  refine ⟨a, t, ⟨pa, _, ⟨ch, io, by rw [pk], by rw [pk]; exact fun e => nomatch e⟩, rfl, mf, by decide +kernel, by decide +kernel, ?_, ?_⟩, ?_⟩
  · exact ⟨0x3000, _, ⟨(cd 0 (by omega)).1, by decide +kernel, by rw [(cd 0 (by omega)).2], by rw [(cd 0 (by omega)).2]; exact fun e => nomatch e⟩, by decide +kernel, by decide +kernel⟩
  · exact ⟨0x3001, _, ⟨(cd 1 (by omega)).1, by decide +kernel, by rw [(cd 1 (by omega)).2], by rw [(cd 1 (by omega)).2]; exact fun e => nomatch e⟩, by decide +kernel, by decide +kernel⟩
  · exact hd.imp id (fun x => ⟨x.1, fun y => by rw [x.2] at y; exact nomatch y.1⟩)

theorem vectored_settled (cst : W64) (io : List (Nat × W64)) (f : CoreSt → CoreSt) (h : ((vectored cst io f).core 0).dcache = []) : Settled (vectored cst io f) 0 := by
  unfold vectored running at h ⊢
  exact settled_rig _ _ _ _ _ h

theorem witness_FaultEntry : Settled (vectored 0#64 []) 0 ∧ (vectored 0#64 []).cl 0 ≤ 1 ∧ (vectored 0#64 []).ml 0 < 2 ∧
    Enterable (vectored 0#64 []) 0 2 Cause.tag.vector ⟨2, 0, 0⟩ ∧ AtEase (vectored 0#64 []) 0 ∧ Enterable (vectored 0#64 []) 0 2 0x40 ⟨2, 0, 0⟩ ∧ (1023#13).toNat ≤ 1023 :=
  ⟨vectored_settled _ _ _ rfl, by decide +kernel, by decide +kernel, enterable_of (pa := 0x2101) (k := ⟨Tag.code, ptrPay 2 0⟩) (by decide +kernel),
   atEase_of (by decide +kernel), enterable_of (pa := 0x2140) (k := ⟨Tag.code, ptrPay 2 0⟩) (by decide +kernel), by decide⟩

def offered (lvl : Nat) : State :=
  { vectored (putFld 8 8 1) [(Reg.INTC_SCFG 20, putFld 63 63 1 ||| putFld 60 58 lvl), (Reg.INTC_SSTAT 20, putFld 9 9 1)] with
    offers := [(20, 1)], owners := [(State.Res.source.code * 65536 + 20, 2)] }

theorem offered_settled (lvl : Nat) : Settled (offered lvl) 0 := by
  have h := vectored_settled (putFld 8 8 1) [(Reg.INTC_SCFG 20, putFld 63 63 1 ||| putFld 60 58 lvl), (Reg.INTC_SSTAT 20, putFld 9 9 1)] id rfl
  exact ⟨h.fresh, h.cycle, h.transit⟩

/-- Levels 5, 6 and 7. -/
theorem witness_EventEntry : ∀ lvl ∈ ([5, 6, 7] : List (Fin 8)), Settled (offered lvl) 0 ∧ 2 ≤ lvl.val ∧ ((offered lvl).core 0).wait = .none ∧
    (offered lvl).offered 0 lvl = true ∧ (offered lvl).levelEnabled 0 lvl = true ∧ (offered lvl).atBoundary 0 lvl = true ∧
    (∀ k, lvl.val < k → k < 8 → ¬ ((offered lvl).offered 0 k = true ∧ (offered lvl).levelEnabled 0 k = true)) ∧ Enterable (offered lvl) 0 lvl (0x40 + lvl) ⟨2, 0, 0⟩ := by
  have e : ∀ lvl ∈ ([5, 6, 7] : List (Fin 8)), 2 ≤ lvl.val ∧ ((offered lvl).core 0).wait = .none ∧ (offered lvl).offered 0 lvl = true ∧
      (offered lvl).levelEnabled 0 lvl = true ∧ (offered lvl).atBoundary 0 lvl = true ∧
      (∀ k, k < 8 → lvl.val < k → ¬ ((offered lvl).offered 0 k = true ∧ (offered lvl).levelEnabled 0 k = true)) := by decide +kernel
  intro lvl hl
  obtain ⟨a, b, c, d, f, g⟩ := e lvl hl
  refine ⟨offered_settled _, a, b, c, d, f, fun k x y => g k y x, ?_⟩
  simp only [List.mem_cons, List.not_mem_nil, or_false] at hl
  rcases hl with rfl | rfl | rfl
  · exact enterable_of (pa := 0x2145) (k := ⟨Tag.code, ptrPay 2 0⟩) (by decide +kernel)
  · exact enterable_of (pa := 0x2146) (k := ⟨Tag.code, ptrPay 2 0⟩) (by decide +kernel)
  · exact enterable_of (pa := 0x2147) (k := ⟨Tag.code, ptrPay 2 0⟩) (by decide +kernel)

/-- A BREAK comparator on the word at index 0 and 1; a WATCH hit; a completed step; a halt request. -/
theorem witness_MonitorEntry : ∀ x ∈ [((fun x => x : CoreSt → CoreSt), 0), ((fun x => { x with watchAt := some (1, 8, 255) }), 0), ((fun x => { x with stepAt := true }), 0),
      ((fun x => x), 2)],
    (let s := vectored 0#64 [(Reg.DBG_DBGSTAT 0, n64 x.2), (Reg.DBG_DBGCTL 0, 1#64), (Reg.DBG_CMPCTL 0 0, putFld 31 31 1), (Reg.DBG_CMPADDR 0 0, 0x3004#64)] x.1
     Settled s 0 ∧ s.running 0 = true ∧ s.cl 0 = 0 ∧ s.atBoundary 0 1 = true ∧ (s.core 0).wait = .none ∧ (s.part (s.corePart 0)).safety = false ∧
     (∀ k, k < 8 → ¬ (s.offered 0 k = true ∧ s.levelEnabled 0 k = true)) ∧ (s.core 0).stopRet = none ∧
     Enterable s 0 1 0x48 ⟨2, 0, 0⟩ ∧ Enterable s 0 1 0x41 ⟨2, 0, 0⟩ ∧ s.rb (Reg.DBG_DBGSTAT 0) 1 = (x.2 == 2) ∧
     s.dbgOn 0 = true ∧ s.rb (Reg.DBG_DBGSTAT 0) 2 = false ∧ s.fetchPa 0 (s.core 0).ip.idx = some 0x3004 ∧ s.breakHits 0 0x3004 false ≠ 0 ∧
     (s.core 0).watchAt = ((x.1 {}).watchAt) ∧ (s.core 0).stepAt = (x.1 {}).stepAt) := by
  intro x hx
  simp only [List.mem_cons, List.not_mem_nil, or_false] at hx
  rcases hx with rfl | rfl | rfl | rfl <;>
    exact ⟨vectored_settled _ _ _ rfl, by decide +kernel, by decide +kernel, by decide +kernel, three (by decide +kernel) ⟨by decide +kernel,
      enterable_of (pa := 0x2148) (k := ⟨Tag.code, ptrPay 2 0⟩) (by decide +kernel), enterable_of (pa := 0x2141) (k := ⟨Tag.code, ptrPay 2 0⟩) (by decide +kernel), by decide +kernel⟩⟩

/-- From level 5, and from 2, to level 0, with hand 1 as the current one. -/
theorem witness_ExceptionReturn : ∀ n : Nat, n = 2 ∨ n = 5 →
    (let s := rigOf true [] [] [] (fun x => { x with cr := [(CRN.cst, putFld 7 7 1 ||| n64 n), (CRN.chp, 1#64)] })
     AtEase s 0 ∧ s.sup 0 = true ∧ 2 ≤ s.cl 0 ∧ s.cl 0 ≤ 5 ∧ fld (s.crR 0 (CRN.save n 1)) 2 0 < n ∧ s.rf (Reg.DBG_DHIT 0) 15 8 = 0 ∧
     fld (s.crR 0 (CRN.save n 1)) 5 3 < 6 ∧ s.handN 0 ≠ 1) := by
  rintro n (rfl | rfl) <;> exact ⟨atEase_of (by decide +kernel), by decide +kernel⟩

theorem witness_ControlRegisters : (AtEase fixes 0 ∧ fixes.sup 0 = true ∧ (0x39#13).toNat ≤ 0x39 ∧ rawTag (fixes.reg 0 20) ∧ (0x39 : Nat) ≠ CRN.ccx) ∧
    (AtEase raws 0 ∧ raws.sup 0 = false ∧ ¬ (0x01 = CRN.asr ∨ 0x01 = CRN.fsr ∨ 0x01 = CRN.cst ∨ 0x01 = CRN.rpt)) :=
  ⟨⟨fixes_atEase, by decide +kernel, by decide, .inr (by decide +kernel), by decide⟩, raws_atEase, by decide +kernel, by decide⟩

theorem witness_WaitAndFence : (AtEase fixes 0 ∧ fixes.atInstr 0 = true ∧ fixes.dbgOn 0 = false ∧ fixes.repAct 0 = false ∧ fixes.sup 0 = true ∧
      fixes.eventPending 0 false = false ∧ fixes.rpushOpen 0 = false ∧ (15#13).toNat < 16) ∧
    (let s := offering 5 fixes
     s.atInstr 0 = true ∧ s.dbgOn 0 = false ∧ s.repAct 0 = false ∧ s.sup 0 = true ∧ s.eventPending 0 false = true) :=
  ⟨⟨fixes_atEase, by decide +kernel⟩, by decide +kernel⟩

/-! Hands, context save areas and segments. -/

/-- A supervisor with three hands in registers and the spill place at offset 16 of the STACK segment; its context save areas stand in segment 4. -/
def sys (cl : Nat) (cr : Tab W64) : State :=
  { rigOf true [(0, fixW (ptrPay 4 320)), (1, fixW (putFld 63 63 1 ||| putFld 59 54 63 ||| 0x6000#64)), (2, fixN 4096)] [] []
      (fun x => { x with cr := (CRN.cst, putFld 7 7 1 ||| n64 cl) :: cr }) with
    parts := [(1, { defined := true, tsize := 16, segBase := 0x1000, bankWin := true, grants := [(0x6000, 4096)] })] }
theorem sys_settled (cl : Nat) (cr : Tab W64) : Settled (sys cl cr) 0 := by
  have h := settled_rig true [(0, fixW (ptrPay 4 320)), (1, fixW (putFld 63 63 1 ||| putFld 59 54 63 ||| 0x6000#64)), (2, fixN 4096)] [] []
    (fun x => { x with cr := (CRN.cst, putFld 7 7 1 ||| n64 cl) :: cr }) rfl
  exact ⟨fun e he => (nomatch he), h.cycle, h.transit⟩

theorem witness_HandMoves :
    (let s := sys 0 [(CRN.chp, 2#64), (CRN.spp, putFld 63 52 3 ||| 16#64)]
     AtEase s 0 ∧ Settled s 0 ∧ s.sup 0 = true ∧ s.snap 0 = false ∧ 2 < s.handN 0 ∧ s.handN 0 < 15 ∧ 16 ≤ ptrOff (s.crR 0 CRN.spp) ∧
     (∀ i, i < 16 → StorableBy s 0 .stackWrite 3 (16 + i) (0x4010 + i) (Tab.get (s.core 0).hands (16 * 0 + i) Word.void)) ∧
     ∀ i, i < 16 → Holds s 0 3 (16 - 16 + i) .stackRead (0x4000 + i) Word.void) := by
  refine ⟨atEase_of (by decide +kernel), sys_settled _ _, by decide +kernel, by decide +kernel, by decide +kernel, by decide +kernel, by decide +kernel, ?_, ?_⟩
  · intro i hi
    refine storableBy_of ?_
    revert i
    decide +kernel
  · intro i hi
    refine holds_of ?_
    revert i
    decide +kernel

/-- With no area loaded, and with the one at offset 640. -/
theorem witness_ContextSwitch : ∀ b : Bool,
    (let s := sys 2 [(CRN.ccx, if b then putFld 63 52 4 ||| putFld 51 51 1 ||| 640#64 else 0#64)]
     AtEase s 0 ∧ Settled s 0 ∧ s.sup 0 = true ∧ s.cl 0 = 2 ∧ rawTag (s.reg 0 16) ∧ fld (s.reg 0 16).pay 51 48 = 0 ∧ ptrOff (s.reg 0 16).pay % 64 = 0 ∧
     (∀ i, i < 320 → Holds s 0 4 (320 + i) .bankRead (0x5140 + i) Word.void) ∧ StorableBy s 0 .bankWrite 4 320 0x5140 (fixN (0 + 1)) ∧
     bitAt (s.crR 0 CRN.ccx) 51 = b ∧ fld (s.crR 0 CRN.gds) 4 0 = 0 ∧ 0x5140 + 320 ≤ 0x5280 ∧
     (∀ i, i < 6 → StorableBy s 0 .bankWrite 4 (640 + 0x10 + i) (0x5280 + 0x10 + i) (s.cWord 0 2 i)) ∧ StorableBy s 0 .bankWrite 4 640 0x5280 (fixN 0)) := by
  intro b
  refine ⟨atEase_of (by cases b <;> decide +kernel), sys_settled _ _, by cases b <;> decide +kernel, by cases b <;> decide +kernel, .inl (by cases b <;> decide +kernel),
    by cases b <;> decide +kernel, by cases b <;> decide +kernel, ?_, storableBy_of (by cases b <;> decide +kernel), by cases b <;> decide +kernel, by cases b <;> decide +kernel,
    by omega, ?_, storableBy_of (by cases b <;> decide +kernel)⟩
  · intro i hi
    refine holds_of ?_
    revert i
    cases b <;> decide +kernel
  · intro i hi
    refine storableBy_of ?_
    revert i
    cases b <;> decide +kernel

/-- G, W, S and Q are absent, and the area at offset 320 is loaded; G is present; the bank window lies on the area at 640. -/
theorem witness_BankAccess :
    (let s := sys 0 [(CRN.gds, putFld 12 11 3 ||| putFld 9 8 3), (CRN.ccx, putFld 63 52 4 ||| putFld 51 51 1 ||| 320#64)]
     AtCall s 0 ∧ Settled s 0 ∧ (∀ n, n ∈ [0, 1, 3, 4] → s.absent 0 (8 + n) = true) ∧ bitAt (s.crR 0 CRN.ccx) 51 = true ∧
     ∀ i, i < 320 → Holds s 0 4 (320 + i) .bankRead (0x5140 + i) Word.void) ∧
    (let s := sys 0 [(CRN.bkw, putFld 63 52 4 ||| putFld 51 51 1 ||| 640#64)]
     AtCall s 0 ∧ Settled s 0 ∧ s.absent 0 8 = false ∧ s.crF 0 CRN.gds 12 8 = 0 ∧ (s.part (s.corePart 0)).bankWin = true ∧ bitAt (s.crR 0 CRN.bkw) 51 = true ∧
     Holds s 0 4 (640 + 0x13F) .bankRead 0x53BF Word.void ∧ Reaches s 0 4 640 .bankWrite 0x5280 ∧ fld (s.peekWord 0x5280).1.pay 6 0 = 0 ∧ (s.peekWord 0x5280).2 ≠ .uncorr ∧
     StorableBy s 0 .bankWrite 4 (640 + 0x13F) 0x53BF (s.reg 0 16)) := by
  refine ⟨⟨⟨by decide +kernel, by decide +kernel, by decide +kernel, by decide +kernel⟩, sys_settled _ _, by decide +kernel, by decide +kernel, ?_⟩,
    ⟨by decide +kernel, by decide +kernel, by decide +kernel, by decide +kernel⟩, sys_settled _ _, by decide +kernel, by decide +kernel, by decide +kernel, by decide +kernel,
    holds_of (by decide +kernel), reaches_of (by decide +kernel), by decide +kernel, by decide +kernel, storableBy_of (by decide +kernel)⟩
  intro i hi
  refine holds_of ?_
  revert i
  decide +kernel

/-- A DATA segment of 4096 words that the partition's grant just covers, and an invalid descriptor. -/
theorem witness_SegmentSet :
    (let s := sys 0 []
     let n : Desc := ⟨(s.reg 0 17).pay, (s.reg 0 18).pay⟩
     AtEase s 0 ∧ s.sup 0 = true ∧ rawTag (s.reg 0 17) ∧ rawTag (s.reg 0 18) ∧ (15#13).toNat < (s.part (s.corePart 0)).tsize ∧ n.wellFormed = true ∧
     grantsCover (s.part 1).grants ((s.part 1).grants.length + 1) n.base n.limit = true ∧ s.homeKept 1 15 n = true ∧ s.viewsKept 1 15 n = true ∧ s.storesUnder 0 1 15 = false ∧
     bitAt (s.reg 0 18).pay 63 = false ∧ s.homeKept 1 15 ⟨(s.reg 0 18).pay, 0#64⟩ = true ∧ s.viewsKept 1 15 ⟨(s.reg 0 18).pay, 0#64⟩ = true) :=
  ⟨atEase_of (by decide +kernel), by decide +kernel, .inl (by decide +kernel), .inl (by decide +kernel), by decide +kernel⟩

/-- Offset 8 of segments 1 and 2; and the L1D entry of way 3 and set 127, which holds a line or none. -/
theorem witness_CacheMaintenance :
    (let s := running true [(0, fixN 8)] [] [0#64, 0#64] [] (fun x => { x with sg := [(1, 1), (2, 2)] })
     AtEase s 0 ∧ Settled s 0 ∧ (s.reg 0 16).tag = Tag.fix ∧ (s.reg 0 16).pay.toInt = (8 : Nat) ∧ s.sup 0 = true ∧ s.regionOk 0x2008 = true ∧ isDram 0x2008 = true ∧
     Reaches s 0 (s.sgR 0 1) 8 .read 0x2008 ∧ Reaches s 0 (s.sgR 0 1) 8 .write 0x2008 ∧ Reaches s 0 (s.sgR 0 2) 8 .exec 0x3008) ∧
    (let s := rigOf true [(0, fixW (putFld 22 11 127 ||| putFld 10 7 3 ||| 1#64))] []
     let t : State := { s with tags := [(tagKey 64 127 3, { valid := true, line := 0x47F, dirty := true })] }
     let v := (s.reg 0 16).pay
     AtEase s 0 ∧ AtEase t 0 ∧ s.sup 0 = true ∧ t.sup 0 = true ∧ (s.reg 0 16).tag = Tag.fix ∧ fld v 63 23 = 0 ∧ fld v 1 0 = 1 ∧ fld v 6 2 = 0 ∧ fld v 22 11 < 128 ∧
     fld v 10 7 < 4 ∧ (s.tagAt 64 127 3).valid = false ∧ t.findWay 64 (t.tagAt 64 127 3).line = some 3 ∧ setOf 64 (t.tagAt 64 127 3).line = 127) :=
  ⟨⟨atEase_of (by decide +kernel), settled_rig _ _ _ _ _ rfl, by decide +kernel, by decide +kernel, by decide +kernel, by decide +kernel, by decide +kernel,
    reaches_of (by decide +kernel), reaches_of (by decide +kernel), reaches_of (by decide +kernel)⟩,
   atEase_of (by decide +kernel), atEase_of (by decide +kernel), by decide +kernel⟩

/-! The units. -/

/-- The device in Run with these registers; f adds parts. -/
def chip (io : List (Nat × W64)) (f : State → State := id) : State :=
  f { State.reset with hs := { dev := .run }, io := io.foldl (fun t e => Tab.set t e.1 e.2 (regReset e.1)) [] }

/-- A register address in no block; one of the CAN block, which is off; SYS STAT; and core 0, of partition 0 and of partition 1, halted or not. -/
theorem witness_RegisterAccess :
    (chip []).railUp = true ∧ findBlk 0xFFFFFFFFFF = none ∧ (chip []).offAccess Blk.bCAN 3 = true ∧ (findBlk (Reg.CAN_CANERR 3)).map (fun x => (x.1, x.2.1)) = some (.bCAN, 3) ∧
    (chip []).rb Reg.SYS_STAT 0 = false ∧ (chip [(Reg.SYS_STAT, 1#64)]).rb Reg.SYS_STAT 0 = true ∧
    (findBlk Reg.SYS_STAT).map (·.1) = some .bSYS ∧ (findReg Blk.bSYS.regs (Reg.SYS_STAT - 0xFF00000000)).isSome = true ∧
    (chip []).reqPart .jtag = 0 ∧ (chip [(Reg.CORE_CINFO 0, putFld 15 12 1 ||| putFld 11 11 1)]).reqPart (.core 0) = 1 ∧ (chip []).isChecker 0 = false ∧
    (let s := chip [(Reg.CORE_CINFO 0, putFld 15 12 1 ||| putFld 11 11 1)]
     s.coreOwned 0 = true ∧ s.reqPart (.core 0) = s.corePart 0 ∧ s.debugOk 0 = true) ∧
    (chip [] (fun s => { s with parts := [(0, { safety := true })], sec := { otp := { provLock := true } } })).debugOk 0 = false ∧
    (chip []).rb (Reg.DBG_DBGSTAT 0) 0 = false ∧
    ∀ n ∈ [0, 0xFF, 0x100, 0x107, 0x110, 0x11F, 0x120, 0x127, 0x128, 0x13F, 0x201, 0x239], (let s := chip [(Reg.DBG_DBGSTAT 0, 1#64), (Reg.DBG_RSEL 0, n64 n)]
      s.rb (Reg.DBG_DBGSTAT 0) 0 = true ∧ s.rf (Reg.DBG_RSEL 0) 11 0 = n) := by
  decide +kernel

/-- Source 63 and 511, of partition 1, at a level, enabled, pending or in service; core 3 is in its mask and enables its level. -/
def sources (n : Nat) (lvl : Nat) (en : Bool) (stat : W64) (f : State → State := id) : State :=
  chip [(Reg.INTC_SCFG n, putFld 63 63 en.toNat ||| putFld 60 58 lvl), (Reg.INTC_SMASK n, 8#64), (Reg.INTC_SSTAT n, stat),
        (Reg.CORE_CINFO 3, putFld 15 12 1 ||| putFld 11 11 1)]
    (fun s => f { s with owners := [(State.Res.source.code * 65536 + n, 2)],
                         cores := [(3, { run := .run, cr := [(CRN.cst, putFld 8 8 1 ||| putFld 7 7 1)] })] })

theorem mask_only (s : State) (n : Nat) (h : s.srcMask n = 8#64) : ∀ c, c < 64 → bitAt (s.srcMask n) c = true → c = 3 := by
  intro c hc
  rw [h]
  revert c
  decide

/-- Core 3 at CL 7, the only one of the mask. -/
def trumped : State :=
  sources 63 7 true 0#64 (fun s => { s with cores := [(3, { run := .run, cr := [(CRN.cst, putFld 8 8 1 ||| putFld 7 7 1 ||| 7#64)] })] })
theorem trumped_offer : OfferedTo trumped 63 (some 3) := by
  refine ⟨by decide +kernel, ?_⟩
  rw [if_neg (by decide +kernel)]
  refine ⟨fun _ k hk hm _ _ => ?_, fun k hk => (mask_only _ 63 (by decide +kernel) k hk.1 hk.2.1).ge⟩
  rw [mask_only _ 63 (by decide +kernel) k hk hm]
  decide +kernel

/-- Offered to core 3 or, its mask empty, to none; not enabled and enabled; a pulse, a level, and neither; claimed at levels 2 and 7; and in service. -/
theorem witness_InterruptSources :
    OfferedTo trumped 63 (some 3) ∧ OfferedTo (sources 63 7 true 0#64) 63 (some 3) ∧ OfferedTo (sources 63 2 true 0#64) 63 (some 3) ∧ OfferedTo (chip []) 511 none ∧
    (∀ en : Bool, let s := sources 63 5 en 0#64
      s.railUp = true ∧ s.srcOwner 63 = some 1 ∧ s.reqPart (.core 3) = 1 ∧ fld 63#64 8 0 = 63 ∧ s.srcEn 63 = en ∧ s.srcQueueMode 63 = false ∧ s.srcInServ 63 = false) ∧
    (let s := sources 224 5 true 0#64 (fun s => { s with pulses := [224] })
     s.srcEn 224 = true ∧ s.srcQueueMode 224 = false ∧ s.srcInServ 224 = false ∧ 224 ∈ s.pulses) ∧
    (let s := sources 351 5 true 0#64 (fun s => { s with io := Tab.set s.io Reg.SWP_SWERR (1#64 <<< 32) 0#64 })
     351 ∉ s.pulses ∧ (s.srcOwner 351).isSome = true ∧ s.rb (Reg.INTC_SSTAT 351) 10 = false) ∧
    (∀ lvl ∈ ([2, 7] : List (Fin 8)), let s := sources 0 lvl true 0x200#64
      2 ≤ lvl.val ∧ s.srcReady 0 = true ∧ s.srcLvl 0 = lvl.val ∧ bitAt (s.srcMask 0) 3 = true) ∧
    (∀ k, k < 512 → ¬ ((chip []).srcReady k = true)) ∧
    (let s := sources 511 5 true (0x500#64 ||| 3#64)
     s.srcInServ 511 = true ∧ s.rf (Reg.INTC_SSTAT 511) 5 0 = 3 ∧ s.rb (Reg.INTC_SSTAT 511) 10 = true ∧ s.srcEn 511 = true ∧ s.srcEdge 511 = false) := by
  have e : ∀ lvl, lvl = 2 ∨ lvl = 7 → OfferedTo (sources 63 lvl true 0#64) 63 (some 3) := by
    rintro lvl (rfl | rfl)
    · refine ⟨by decide +kernel, ?_⟩
      rw [if_neg (by decide +kernel)]
      exact ⟨fun h => absurd h (by decide +kernel), fun k hk => (mask_only _ 63 (by decide +kernel) k hk.1 hk.2.1).ge⟩
    · refine ⟨by decide +kernel, ?_⟩
      rw [if_pos (by decide +kernel)]
      exact fun k hk _ => (mask_only _ 63 (by decide +kernel) k hk.1 hk.2.1).ge
  refine ⟨trumped_offer, e 7 (.inr rfl), e 2 (.inl rfl), ?_, by decide +kernel, by decide +kernel, by decide +kernel, by decide +kernel, by decide +kernel, by decide +kernel⟩
  intro c h
  have : (chip []).srcMask 511 = 0#64 := by decide +kernel
  rw [this] at h
  simp [bitAt] at h

/-- A fill for core 63, a write-back; caches switched off by partition 0 and by core 0's partition; cluster 7's scratchpad of partition 1 and its powered
ways, which are 4; L3 ways of WMASK; and transitions to the ends of their ranges. -/
theorem witness_CacheEvents :
    (chip [] (fun s => { s with fills := [(63, 0, true)], vbuf := [(0, 1)] })).fills[0]? = some (63, 0, true) ∧
    (let s := chip [(Reg.CORE_CINFO 63, putFld 15 12 1 ||| putFld 11 11 1), (Reg.MEMC_MCFG 0, 1#64), (Reg.L2C_L1CTL 7 7, 3#64), (Reg.L2C_L2CTL 7, putFld 15 12 15 ||| 1#64)]
     s.coreOwned 63 = true ∧ s.corePart 63 = s.reqPart (.core 63) ∧ s.implemented 0 = true ∧ isDram 0 = true ∧ s.l1dOn 63 = true ∧
     s.l2Ways 7 ≠ []) ∧
    (let s := chip [(Reg.CORE_CINFO 0, putFld 15 12 1 ||| putFld 11 11 1), (Reg.L2C_L2CTL 7, putFld 15 12 15 ||| putFld 11 8 15)]
        (fun s => { s with owners := [(State.Res.spad.code * 65536 + 7, 2)] })
     s.reqPart (.core 0) ≠ 0 ∧ s.owner .spad 7 = some (s.reqPart (.core 0)) ∧ ∀ n, n < 3 → fld (putFld 17 16 n) 17 16 ≠ 3 ∧
       (∀ i, i < fld (putFld 17 16 n) 17 16 → (s.rf (Reg.L2C_L2CTL 7) 15 12).testBit (3 - i) = true ∧ (s.rf (Reg.L2C_L2CTL 7) 11 8).testBit (3 - i) = true) ∧
       Tab.get s.modeTo 7 0 = 0) ∧
    (let s := chip [(Reg.L2C_L2CTL 7, putFld 15 12 15 ||| putFld 11 8 15)]
     s.rf (Reg.L2C_L2CTL 7) 17 16 = 0 ∧ s.rf (Reg.L2C_L2CTL 7) 19 18 = 0 ∧ Tab.get s.modeTo 15 0 = 0 ∧ fld (putFld 11 8 1) 11 8 ≠ 0 ∧
       bitAt (putFld 11 8 1) 0 = s.rb (Reg.L2C_L2CTL 7) 0) ∧
    (let s := chip [(Reg.L3C_WMASK 31 4, putFld 15 4 1), (Reg.L3C_WMASK 31 0, 0#64), (Reg.L3C_WMASK 31 1, 0#64), (Reg.L3C_WMASK 31 2, 0#64), (Reg.L3C_WMASK 31 3, 0#64)]
     s.reqPart .jtag = 0 ∧ Tab.get s.modeTo (64 + 5 * 31) 0 = 0 ∧ (∀ j, j < 5 → j ≠ 0 → s.rf (Reg.L3C_WMASK 31 j) 15 4 &&& fld (putFld 15 4 0xFFE) 15 4 = 0) ∧
       s.rf (Reg.L3C_WMASK 31 4) 15 4 &&& fld (putFld 15 4 1) 15 4 ≠ 0) ∧
    (let s := chip [] (fun s => { s with modeTo := [(0, 4), (7, 1), (8, 16), (16, 1), (47, 16)] })
     Tab.get s.modeTo (8 + 0) 0 = 15 + 1 ∧ Tab.get s.modeTo (16 + 0) 0 = 0 + 1 ∧ Tab.get s.modeTo (16 + 31) 0 = 15 + 1 ∧ Tab.get s.modeTo 0 0 = 3 + 1 ∧
       Tab.get s.modeTo 7 0 = 0 + 1) := by
  decide +kernel

/-- Places at the ends of the arrays; a dirty way; channel 0, which scrubs; and cluster 7's store. -/
theorem witness_MemoryEvents :
    (∀ x ∈ [((.l1i 0 : ArrayId), 127, 3), (.l1d 63, 127, 3), (.l2 7, 4095, 7), (.l3 31, 2047, 15)],
      x.2.2 < waysOf (State.arrayNum x.1) ∧ x.2.1 < (if State.arrayNum x.1 < 128 then 128 else if State.arrayNum x.1 < 136 then 4096 else 2048) ∧
      ((chip []).tagAt (State.arrayNum x.1) x.2.1 x.2.2).valid = false) ∧
    (let s := chip [] (fun s => { s with tags := [(tagKey 135 4095 7, { valid := true, line := 0xFFF, dirty := true })] })
     levelOf 135 ≠ 0 ∧ ¬ (levelOf 135 = 2 ∧ 3 - 7 / 2 < s.spadPairs 7) ∧ (s.tagAt 135 4095 7).valid = true ∧ (s.tagAt 135 4095 7).dirty = true ∧
       Tab.get s.l1d (8 * 0xFFF + 7) none = none ∧ Tab.get s.l2 (8 * 0xFFF + 7) none = none) ∧
    (let s := chip [] (fun s => { s with tags := [(tagKey 167 2047 15, { valid := true, line := 0xFFF, dirty := true })], l2 := [(8 * 0xFFF, some (Ecc.encode nilW))] })
     levelOf 167 = 3 ∧ (s.tagAt 167 2047 15).valid = true ∧ (s.tagAt 167 2047 15).dirty = true ∧ Tab.get s.l2 (8 * 0xFFF + 0) none ≠ none) ∧
    (let s := chip [(Reg.MEMC_SCRUB 0, 1#64), (Reg.MEMC_MCFG 0, 1#64), (Reg.HRTH_HBOOT, 1#64 <<< 32)] (fun s => { s with mem := [(0, Ecc.encode (fixN 1) ^^^ 1#80)] })
     s.rb (Reg.MEMC_SCRUB 0) 0 = true ∧ s.rb (Reg.MEMC_MCFG 0) 0 = true ∧ s.rb Reg.HRTH_HBOOT 32 = true ∧ s.chanOf 0 = some 0 ∧
     Ecc.decode (Tab.get s.mem 0 0#80) = (fixN 1, .corrected) ∧ Memory.wf s.mem = true ∧ s.reqPart .jtag = 0 ∧
     ∀ k, k < 4 → let v := putFld 63 62 k ||| putFld 61 55 79 ||| putFld 54 48 0
       s.chanOf (fld v 39 0) = some 0 ∧ fld v 63 62 = k ∧ fld v 61 55 ≤ 79 ∧ fld v 54 48 ≤ 79 ∧ fld v 61 55 ≠ fld v 54 48 ∧
       ((chip [(Reg.MEMC_MCFG 0, 1#64)]).peekWord (fld v 39 0)).2 = .ok) ∧
    (let s := chip [(Reg.DMPR_DSTAT 1, 0x80#64)]
     s.railUp = true ∧ s.domOn (64 + 7) = true) := by
  decide +kernel

theorem Tab.get_single {α : Type} (k j : Nat) (v d : α) (h : j ≠ k) : Tab.get [(k, v)] j d = d := by
  simp only [Tab.get, if_neg h, ite_self]

theorem engHolds_of {s : State} {p sel off pa : Nat} {sup : Bool} {w : Word}
    (h : s.checkDesc p sel (s.tableDesc p sel) off .read sup = .ok pa ∧ isIo pa = false ∧ s.heapAt pa = none ∧ s.peekWord pa = (w, .ok)) :
    EngHolds s p sup sel off pa w := ⟨h.1, h.2.1, h.2.2.1, by rw [h.2.2.2], by rw [h.2.2.2]; exact fun e => nomatch e⟩

theorem engStores_of {s : State} {p sel off pa : Nat} {sup : Bool} {w : Word}
    (h : s.checkDesc p sel (s.tableDesc p sel) off .write sup = .ok pa ∧ isIo pa = false ∧ s.heapAt pa = none ∧ Ctx.ring pa = false ∧
      (s.peekWord pa).2 ≠ .uncorr ∧ isStructural (s.peekWord pa).1.tag = false ∧ s.sweep.heap = none ∧ isStructural w.tag = false ∧
      s.storeOk p w sel (s.tableDesc p sel) pa = true ∧ (pa < (s.part p).segBase ∨ (s.part p).segBase + 2 * (s.part p).tsize ≤ pa)) : EngStores s p sup sel off pa w :=
  ⟨h.1, h.2.1, h.2.2.1, h.2.2.2.1, h.2.2.2.2.1, h.2.2.2.2.2.1, .inl h.2.2.2.2.2.2.1, h.2.2.2.2.2.2.2.1, h.2.2.2.2.2.2.2.2.1, h.2.2.2.2.2.2.2.2.2⟩

/-- Heap 15, of partition 1 and core 0, is segment 5 and one region at 0x20000, which holds a VEC of two words at 0 when it is not FREE. -/
def heap15 (ph hstat hcfg : Nat) (regions : Tab W64) (w : SweepSt) (f : State → State := id) : State :=
  chip [(Reg.SWP_HGEOM 15, putFld 63 52 5 ||| putFld 51 48 1 ||| putFld 47 47 1 ||| putFld 46 29 1 ||| putFld 22 0 1), (Reg.SWP_HSTAT 15, n64 (ph + hstat)),
        (Reg.SWP_HCFG 15, n64 hcfg), (Reg.SWP_FINSTAT 15, putFld 47 32 1), (Reg.CORE_CINFO 0, putFld 15 12 1 ||| putFld 11 11 1), (Reg.MEMC_MCFG 0, 1#64)]
    (fun s => f { s with heaps := [(15, { regions := regions })], sweep := w,
                         mem := memOf [(0x20000, ⟨Tag.hdr, putFld 63 56 9 ||| putFld 39 0 2⟩), (0x20001, ⟨Tag.vec, ptrPay 5 0⟩), (0x20002, fixN 1)] })

/-- Requests in and out of a cycle; an area named and refilled; an object registered; a cycle that starts; and a cycle of each phase. -/
theorem witness_SweepCycles :
    (∀ ph, ph = 0 ∨ ph = 7 → let s := heap15 ph 0 0 [] {}
      s.railUp = true ∧ s.heapDefined 15 = true ∧ s.reqPart .jtag = 0 ∧ s.heapPart 15 = s.reqPart (.core 0) ∧ s.heapPhase 15 = ph ∧ s.rb (Reg.SWP_HSTAT 15) 3 = false) ∧
    (∀ m, m = 3 ∨ m = 15 → ∀ n, n < 3 → 3 ≤ fld (n64 (16 * m + n)) 7 4 ∧ fld (n64 (16 * m + n)) 1 0 ≠ 3) ∧
    (let s := heap15 0 (1#64 <<< 46).toNat 0 [] {}
     let v := putFld 59 56 15
     s.coreOwned 0 = true ∧ s.heapPart 15 = s.corePart 0 ∧ fld v 59 56 = 15 ∧ s.rb (Reg.SWP_AREA 0) 63 = false ∧ bitAt v 0 = false ∧ bitAt (v ||| 1#64) 0 = true ∧
     0 < s.heapNreg 15 ∧ s.regState 15 0 = 0 ∧ s.freeRegions 15 ≠ 0 ∧ ¬ s.rf (Reg.SWP_HTRIG 15) 49 32 = s.freeRegions 15) ∧
    (let s := heap15 2 0 0 [(0, putFld 63 61 2 ||| putFld 40 23 4 ||| putFld 22 5 2)] { heap := some 15, scanned := true, markQ := [⟨Tag.vec, ptrPay 5 0⟩] }
     let v := ptrPay 5 0
     let hdr := putFld 63 56 9 ||| putFld 39 0 2
     fld v 51 48 = 0 ∧ ptrSel v = s.heapSel 15 ∧ s.beginsObj 15 (ptrOff v) = true ∧ Tag.vec ≠ Tag.cons ∧
     s.peekWord (s.heapBase 15 + ptrOff v) = (⟨Tag.hdr, hdr⟩, .ok) ∧ bitAt hdr 53 = false ∧ (s.heap 15).fin.length < s.rf (Reg.SWP_FINSTAT 15) 47 32 ∧
     s.sweepMay 15 = true ∧ s.heapPhase 15 = 2 ∧ s.ptrInto 15 ⟨Tag.vec, v⟩ = true ∧ s.malformed ⟨Tag.vec, v⟩ = false ∧ s.aboveTams 15 0 = false ∧
     s.marked 15 0 = false ∧ s.ptrInto 15 (s.peekWord (s.heapBase 15 + 1)).1 = true ∧ s.malformed (s.peekWord (s.heapBase 15 + 1)).1 = false) ∧
    (let s := heap15 0 8 0 [] {} (fun s => { s with cores := [(0, { run := .run })] })
     s.sweep.heap = none ∧ s.rb (Reg.SWP_HSTAT 15) 3 = true ∧ (∀ k : Fin 16, k < 15 → ¬ (s.heapDefined k = true ∧ s.rb (Reg.SWP_HSTAT k) 3 = true)) ∧
     (∀ c ∈ s.handCores (s.heapPart 15), (s.core c).run = .run) ∧ s.handCores (s.heapPart 15) = [0] ∧ fld (s.ioR (Reg.SWP_HCFG 15)) 1 0 ≠ 1) ∧
    (let s := heap15 3 0 0 [] { heap := some 15, waiting := [0], mended := true, bufs := [(0, [nilW])] }
        (fun s => { s with cores := [(0, { run := .run, hshake := some .h2, snapBuf := [nilW] })] })
     s.running 0 = true ∧ s.atBoundary 0 1 = true ∧ s.heapMode 15 ≠ 2 ∧ (s.core 0).hshake = some .h2 ∧ s.handN 0 ≤ 2 ∧ s.sweepMay 15 = true ∧ (s.core 0).snapBuf = nilW :: [] ∧
     Tab.get s.sweep.bufs (64 - 64) [] = nilW :: [] ∧ s.heapPhase 15 = 3) ∧
    (let s := heap15 3 0 0 [] { heap := some 15, mended := true, bufs := [(0, [nilW])] } (fun s => { s with cores := [(0, { run := .run, snapBuf := [nilW] })] })
     s.sweepMay 15 = true ∧ s.heapPhase 15 = 3 ∧ s.sweep.waiting = [] ∧ s.sweep.mended = true) ∧
    (let s := heap15 3 0 0 [] { heap := some 15 } (fun s => { s with cores := [(0, { run := .run })], sweep := { s.sweep with waiting := [0] } })
     s.sweep.heap = some 15 ∧ 0 ∈ s.sweep.waiting ∧ (s.core 0).hshake = none ∧ s.heapPhase 15 = 3) ∧
    (∀ ph, ph = 1 ∨ ph = 3 → let s := heap15 ph 0 0 [] { heap := some 15 }
      s.heapPhase 15 = ph ∧ s.sweepMay 15 = true ∧ s.sweep.waiting = [] ∧ s.sweep.mended = false ∧ s.sweep.bufs = [] ∧ s.sweep.markQ = [] ∧ s.sweep.round = 0) ∧
    (∀ n, n = 4 ∨ n = 5 → let s := heap15 4 0 0 [] { heap := some 15, refStep := n }
      s.heapPhase 15 = 4 ∧ s.sweepMay 15 = true ∧ s.sweep.waiting = [] ∧ s.sweep.refStep = n ∧ ∀ g, s.regState 15 g ≠ 3) ∧
    (let s := heap15 6 0 0 [] { heap := some 15 } (fun s => { s with heaps := [(15, { transit := [(0, 3, 3)] })] })
     s.heapPhase 15 = 6 ∧ s.sweepMay 15 = true ∧ (s.heap 15).transit = (0, 3, 3) :: [] ∧ (0 + 3 ≤ 3 ∨ 3 + 3 ≤ 0)) ∧
    ∀ b : Bool, let s := heap15 7 0 0 [] { heap := some 15, remapped := b }
      s.heapPhase 15 = 7 ∧ s.sweepMay 15 = true ∧ s.sweep.waiting = [] ∧ s.sweep.remapped = b := by
  refine ⟨?_, ?_, by decide +kernel, by decide +kernel, by decide +kernel, three (by decide +kernel) ⟨?_, ?_, by decide +kernel, by decide +kernel⟩⟩
  · rintro ph (rfl | rfl) <;> decide +kernel
  · rintro m (rfl | rfl) <;> decide
  · rintro ph (rfl | rfl) <;> decide +kernel
  · rintro n (rfl | rfl) <;> exact ⟨by decide +kernel, by decide +kernel, by decide +kernel, by decide +kernel, fun g h => absurd h (by show fld 0#64 63 61 ≠ 3; decide)⟩

/-! Queue 8 of partition 1, live or not, and timer 7. -/

theorem takes_of {s : State} {p q gen : Nat}
    (h : s.dealerOff = false ∧ s.genCurrent q gen = true ∧ s.queueOwner q = some p ∧ (s.queue q).count + 1 ≤ cfgCap (s.queue q).cfg) : Takes s p q gen :=
  ⟨h.1, h.2.1, .inl h.2.2.1, h.2.2.2⟩

/-- A timer due at the last tick, whose queue takes the item or has another generation; an identifier whose rest ends; and preset queues to be recreated. -/
theorem witness_DealerEvents :
    (chip []).railUp = true ∧ ((chip []).now / 1000 + 1) * 1000 < 2 ^ 64 ∧ (chip []).ash = [] ∧
    (∀ g, g = 1 ∨ g = 2 → let s := { queued false with fireLeft := 1, lastTick := 1000, timers := [(7, { armed := true, part := 1, queue := 8, qgen := g })] }
      s.fireLeft ≠ 0 ∧ Tab.wf s.timers {} = true ∧ (s.timer 7).armed = true ∧ (s.timer 7).part < 16 ∧
      (s.timer 7).armAt < s.lastTick ∧ (s.timer 7).due ≤ (s.lastTick : Int) * 65536 ∧
      (∀ j, j ≠ 7 → (s.timer j).armed = true → (s.timer j).armAt < s.lastTick → (s.timer 7).due < (s.timer j).due ∨ ((s.timer 7).due = (s.timer j).due ∧ 7 < j)) ∧
      s.dealerOff = false ∧ s.genCurrent 8 g = decide (g = 1) ∧ (g = 1 → Takes s 1 8 1)) ∧
    (let s := chip [] (fun s => { s with ash := [{ kind := .queue, ident := 8, expiry := 2 ^ 64 - 1 }, { kind := .fact 0, ident := 0, expiry := 2 ^ 64 - 1 }], queues := [(8, { phase := .ash, gen := 2 })],
                                         parts := [(15, { presetAt := some (2 ^ 64 - 1), presets := [(9, 0x200)] })] })
     let e := { kind := .queue, ident := 8, expiry := 2 ^ 64 - 1 }
     e ∈ s.ash ∧ (∀ x ∈ s.ash, e.expiry ≤ x.expiry) ∧ e.expiry < 2 ^ 64 ∧ s.sweep.heap = none ∧ (s.queue 8).phase = .ash ∧ (s.part 15).presetAt = some (2 ^ 64 - 1)) := by
  refine ⟨by decide +kernel, by decide +kernel, by decide +kernel, ?_, by decide +kernel⟩
  have u : ∀ g j, j ≠ 7 → (Tab.get [(7, ({ armed := true, part := 1, queue := 8, qgen := g } : TimerSt))] j {}).armed = true → False := by
    intro g j hj h
    rw [Tab.get_single _ _ _ _ hj] at h
    exact nomatch h
  rintro g (rfl | rfl)
  · exact ⟨by decide +kernel, by decide +kernel, by decide +kernel, three (by decide +kernel) ⟨fun j hj h _ => (u 1 j hj h).elim, by decide +kernel,
      by decide +kernel, fun _ => takes_of (by decide +kernel)⟩⟩
  · exact ⟨by decide +kernel, by decide +kernel, by decide +kernel, three (by decide +kernel) ⟨fun j hj h _ => (u 2 j hj h).elim, by decide +kernel,
      by decide +kernel, fun h => absurd h (by decide)⟩⟩

/-- Channel 63 of partition 1 in a state, with queue 8, a descriptor at offset 0x20 of segment 1, source words at 0x28 and what it holds. -/
def channel (st : Nat) (d : DmaSt) : State :=
  { rigOf false [] [(0x2020, fixN 0), (0x2021, fixW (ptrPay 1 0x28)), (0x2022, fixW (ptrPay 1 0x70)), (0x2023, fixN 64), (0x2024, fixN 0), (0x2025, fixN 0), (0x2026, nilW),
      (0x2027, fixN 5), (0x2028, ⟨Tag.raww, 0x0807060504030201#64⟩), (0x2070, ⟨Tag.raww, 0x0807060504030201#64⟩)]
      [(dCstat 63, n64 st), (dCcfg 63, putFld 47 32 1 ||| putFld 17 17 1 ||| 8#64), (dChead 63, putFld 63 52 1 ||| putFld 48 48 1 ||| 0x20#64),
       (Reg.DMA_ESTAT 3, 15#64), (Reg.DLR_QRANGE 1, putFld 63 63 1 ||| putFld 62 42 16 ||| putFld 32 16 4 ||| 8#64)] with
    owners := [(State.Res.dmaCh.code * 65536 + 63, 2)], queues := [(8, { phase := .live, gen := 1, cfg := 0x200 })], dma := [(63, d)] }

/-- The descriptor, with the control word c and the count n. -/
def dmaWords (c : W64) (n : Nat) : List Word :=
  [fixW c, fixW (ptrPay 1 0x28), fixW (ptrPay 1 0x70), fixN n, fixN 0, fixN 0, nilW, fixN 5]

theorem moving_of (c : W64) (n : Nat) (h : (c = 0x00#64 ∧ n = 64) ∨ (c = 0x80#64 ∧ n = 1) ∨ (c = 0x04#64 ∧ n = 1) ∨ (c = 0x04#64 ∧ n = 8)) : Moving (channel 1 { phase := .move, desc := dmaWords c n }) 63 c := by
  rcases h with ⟨rfl, rfl⟩ | ⟨rfl, rfl⟩ | ⟨rfl, rfl⟩ | ⟨rfl, rfl⟩ <;>
    exact ⟨by decide +kernel, by decide +kernel, by decide +kernel, by decide +kernel, by decide +kernel, rfl, by decide +kernel, by decide +kernel, by decide +kernel, by decide +kernel,
      by decide +kernel, by decide +kernel⟩

/-- Commands in each state; a descriptor; 64 words moved, filled, and 8 and 1 octets moved; a block's end; records pushed, retried, and refused. -/
theorem witness_DmaChannels :
    ((channel 0 {}).mayWrite ((channel 0 {}).reqPart .jtag) .dmaCh 63 = true ∧ (channel 0 {}).dState 63 = dIdle ∧ ((channel 0 {}).owner .dmaCh 63).isSome = true ∧ (channel 0 {}).rb (dCcfg 63) 17 = true ∧
      (channel 0 {}).rb (dChead 63) 48 = true ∧ (channel 1 {}).dState 63 = dRun ∧ (channel 3 {}).dState 63 = dHalt) ∧
    (let s := channel 1 { phase := .read, addr := ptrPay 1 0x20 }
     let w := fun i => (s.peekWord (0x2020 + i)).1
     (s.owner .dmaCh 63).getD 0 = 1 ∧ s.dState 63 = dRun ∧ (s.dmaCh 63).phase = .read ∧ s.sweep.heap = none ∧ w 0 = fixW 0#64 ∧ rawTag (w 1) ∧ rawTag (w 2) ∧
     (∃ n, n ≠ 0 ∧ n < 2 ^ 40 ∧ w 3 = fixN n) ∧ w 4 = fixN 0 ∧ w 5 = fixN 0 ∧ w 6 = nilW ∧
     ∀ i, i < 8 → EngHolds s 1 false (ptrSel (s.dmaCh 63).addr) (ptrOff (s.dmaCh 63).addr + i) (0x2020 + i) (w i)) ∧
    (let s := channel 1 { phase := .move, desc := dmaWords 0#64 64 }
     Moving s 63 0#64 ∧ ((s.dmaCh 63).word 3).pay = n64 64 ∧ (s.dmaCh 63).word 6 = nilW ∧ ctlOp 0#64 = 0 ∧ ctlSmode 0#64 = 0 ∧ 0x2028 + 64 ≤ 0x2070 ∧
     (∀ k, k < 64 → EngStores s 1 false (ptrSel ((s.dmaCh 63).word 2).pay) (ptrOff ((s.dmaCh 63).word 2).pay + k) (0x2070 + k) (s.peekWord (0x2028 + k)).1) ∧
     ∀ k, k < 64 → EngHolds s 1 false (ptrSel ((s.dmaCh 63).word 1).pay) (ptrOff ((s.dmaCh 63).word 1).pay + k) (0x2028 + k) (s.peekWord (0x2028 + k)).1) ∧
    (let s := channel 1 { phase := .move, desc := dmaWords 0x80#64 1 }
     Moving s 63 0x80#64 ∧ ((s.dmaCh 63).word 3).pay = n64 1 ∧ ctlOp 0x80#64 = 0 ∧ ctlSmode 0x80#64 = 2 ∧
     ∀ k, k < 1 → EngStores s 1 false (ptrSel ((s.dmaCh 63).word 2).pay) (ptrOff ((s.dmaCh 63).word 2).pay + k) (0x2070 + k) ((s.dmaCh 63).word 1)) ∧
    (∀ n, n = 1 ∨ n = 8 → let s := channel 1 { phase := .move, desc := dmaWords 0x04#64 n }
     let x := 0x0807060504030201#64
     let z : Word := ⟨Tag.raww, payOf ((octetsOf 8 x).take n ++ (octetsOf 8 x).drop n)⟩
     Moving s 63 0x04#64 ∧ ((s.dmaCh 63).word 3).pay = n64 n ∧ ctlOp 0x04#64 = 1 ∧ ctlSmode 0x04#64 = 0 ∧ ((s.dmaCh 63).word 4).pay = 0#64 ∧ ((s.dmaCh 63).word 5).pay = 0#64 ∧
     EngHolds s 1 false (ptrSel ((s.dmaCh 63).word 1).pay) (ptrOff ((s.dmaCh 63).word 1).pay) 0x2028 ⟨Tag.raww, x⟩ ∧ (s.peekWord 0x2070).1 = ⟨Tag.raww, x⟩ ∧
     EngStores s 1 false (ptrSel ((s.dmaCh 63).word 2).pay) (ptrOff ((s.dmaCh 63).word 2).pay) 0x2070 z) ∧
    (let s := channel 1 { phase := .move, desc := dmaWords 0#64 64 }
     (∀ i, i < 16 → (s.dmaCh (16 * 3 + i)).stop = false) ∧ s.dmaProg (s.dmaActive 3) % State.blockOf ((s.dmaCh (s.dmaActive 3)).word 0).pay = 0 ∧ s.dmaReady 63 = true ∧
     ∀ k, k ≠ 63 → k / 16 = 3 → s.dmaReady k = true → s.rf (dCcfg 63) 49 48 < s.rf (dCcfg k) 49 48) ∧
    (∀ irq : Bool,
      (let s := channel 1 { phase := .record, recs := [(noItem, irq)] }
       (s.dmaCh 63).recs = [(noItem, irq)] ∧ (s.dmaCh 63).cont = false ∧ (s.dmaCh 63).next = none ∧ (s.dmaCh 63).holds = [] ∧ (s.dmaCh 63).phase = .record ∧
       Takes s 1 (s.rf (dCcfg 63) 15 0) (s.rf (dCcfg 63) 47 32)) ∧
      let s := channel 2 { phase := .cqwait, recs := [(noItem, irq)] }
      s.dState 63 = dCqwait ∧ (s.dmaCh 63).late = [] ∧ s.now + 1000 < 2 ^ 64 ∧ Takes s 1 (s.rf (dCcfg 63) 15 0) (s.rf (dCcfg 63) 47 32) ∧
      let s := channel 0 { late := [(noItem, irq, 8, 1)] }
      s.dState 63 ≠ dCqwait ∧ (s.dmaCh 63).late = [(noItem, irq, 8, 1)] ∧ s.now + 1000 < 2 ^ 64 ∧ Takes s 1 8 1) ∧
    (let s := { channel 1 { phase := .record, recs := [(noItem, false)] } with
                queues := [(8, { phase := .live, gen := 1, cfg := 0x200, held := List.replicate 4 (none, 0, noItem) })] }
     s.dealerOff = false ∧ s.genCurrent 8 1 = true ∧ s.queueOwner 8 = some 1 ∧ cfgCap (s.queue 8).cfg < (s.queue 8).count + 1) := by
  refine ⟨by decide +kernel, ⟨by decide +kernel, by decide +kernel, by decide +kernel, by decide +kernel, by decide +kernel, .inl (by decide +kernel), .inl (by decide +kernel),
      ⟨64, by decide, by decide, by decide +kernel⟩, by decide +kernel, by decide +kernel, by decide +kernel, ?_⟩,
    ⟨moving_of _ _ (.inl ⟨rfl, rfl⟩), by decide +kernel, by decide +kernel, by decide +kernel, by decide +kernel, by decide +kernel, ?_, ?_⟩,
    ⟨moving_of _ _ (.inr (.inl ⟨rfl, rfl⟩)), by decide +kernel, by decide +kernel, by decide +kernel, ?_⟩, ?_, ⟨by decide +kernel, by decide +kernel, by decide +kernel, ?_⟩, ?_, by decide +kernel⟩
  · intro i hi
    refine engHolds_of ?_
    revert i
    decide +kernel
  · intro i hi
    refine engStores_of ?_
    revert i
    decide +kernel
  · intro i hi
    refine engHolds_of ?_
    revert i
    decide +kernel
  · intro i hi
    refine engStores_of ?_
    revert i
    decide +kernel
  · rintro n (rfl | rfl)
    · exact ⟨moving_of _ _ (.inr (.inr (.inl ⟨rfl, rfl⟩))), by decide +kernel, by decide +kernel, by decide +kernel, by decide +kernel, by decide +kernel,
        engHolds_of (by decide +kernel), by decide +kernel, engStores_of (by decide +kernel)⟩
    · exact ⟨moving_of _ _ (.inr (.inr (.inr ⟨rfl, rfl⟩))), by decide +kernel, by decide +kernel, by decide +kernel, by decide +kernel, by decide +kernel,
        engHolds_of (by decide +kernel), by decide +kernel, engStores_of (by decide +kernel)⟩
  · have e : ∀ k, k < 64 → k ≠ 63 → (channel 1 { phase := .move, desc := dmaWords 0#64 64 }).dmaReady k = false := by decide +kernel
    intro k h1 h2 h3
    rw [e k (by omega) h1] at h3
    exact nomatch h3
  · intro irq
    exact ⟨⟨rfl, rfl, rfl, rfl, rfl, takes_of (by cases irq <;> decide +kernel)⟩, by cases irq <;> decide +kernel, by cases irq <;> decide +kernel,
      by cases irq <;> decide +kernel, takes_of (by cases irq <;> decide +kernel), by cases irq <;> decide +kernel, by cases irq <;> decide +kernel,
      by cases irq <;> decide +kernel, takes_of (by cases irq <;> decide +kernel)⟩

/-! Meld: network 7 of partition 1, with FCAP 4, a view at 0x8000, its image at offset 0x100 of segment 1, and queues 8 and 9. -/

/-- An image of one relation and one node, an AMEM. -/
def image : List Word :=
  [0x4D454C4400010000#64, 1#64, 1#64, 0#64, 1#64, 0#64, 0#64, 0#64, putFld 63 60 8, putFld 63 60 3 ||| putFld 52 32 0x1FFFFF ||| putFld 20 0 0x1FFFFF, 0x1FFFFF#64, 0#64, 0#64].map
    (fun v => (⟨Tag.raww, v⟩ : Word))

def net7 (st : Nat) (x : MeldNet) (it : Item := noItem) : State :=
  { rigOf false []
      ([(0x2020, (⟨Tag.hdr, putFld 63 56 9 ||| putFld 39 0 8⟩ : Word)), (0x2021, fixN 1), (0x2028, fixN 8)] ++ image.zipIdx.map (fun e => (0x2100 + e.2, e.1)))
      [(Reg.MLD_NGEOM0 7, putFld 63 63 1 ||| putFld 61 58 1 ||| putFld 45 21 4 ||| putFld 20 0 1), (Reg.MLD_NSRC 7, putFld 63 52 1 ||| 0x100#64), (Reg.MLD_NSTAT 7, n64 st),
       (Reg.MLD_NIQ 7, putFld 32 32 1 ||| putFld 31 16 1 ||| 8#64), (Reg.MLD_NCQ 7, putFld 32 32 1 ||| putFld 31 16 1 ||| 9#64), (Reg.MLD_MLANES, putFld 12 8 16),
       (Reg.DLR_QRANGE 1, putFld 63 63 1 ||| putFld 62 42 16 ||| putFld 32 16 4 ||| 8#64)] with
    meld := [(7, { x with viewBase := 0x8000 })],
    queues := [(8, { phase := .live, gen := 1, cfg := 0x200, held := [(none, 3, it)] }), (9, { phase := .live, gen := 1, cfg := 0x200 })] }

/-- A slot in each state; an image of 13 words loaded and refused; a record retried; and lanes at their bound. -/
theorem witness_MeldSlots :
    (∀ st, st < 7 → let s := net7 st {}
      s.railUp = true ∧ s.nDefined 7 = true ∧ s.reqPart .jtag = 0 ∧ s.nOwner 7 = s.reqPart (.core 0) ∧ s.nState 7 = st ∧ (s.net 7).rcd = none) ∧
    (let s := net7 nLoading {}
     let h := netHeader (s.rf (Reg.MLD_NGEOM0 7) 20 0) ((image.take 8).map (·.pay))
     s.nState 7 = nLoading ∧ s.sweep.heap = none ∧ fld (s.ioR (Reg.MLD_NSRC 7)) 63 52 = 1 ∧ 8 ≤ image.length ∧ h = .ok (1, 1, 0, 1) ∧ image.length = 8 + 1 + 4 * 1 + 0 ∧
     (netBody s.malformed image 1 1 0 1).toOption.isSome = true ∧ ((netHeader 0 ((image.take 8).map (·.pay)))).toOption.isNone = true ∧
     ∀ i, i < image.length → EngHolds s 1 true 1 (fld (s.ioR (Reg.MLD_NSRC 7)) 47 0 + i) (0x2100 + i) (image.getD i Word.void)) ∧
    (let s := net7 nUnloading { facts := [(0, { phase := .ash })], toks := [(0, { phase := .ash })] }
     s.nState 7 = nUnloading ∧ (∀ e ∈ (s.net 7).facts, e.2.phase ≠ .live) ∧ ∀ e ∈ (s.net 7).toks, e.2.phase ≠ .live) ∧
    (∀ failed : Bool,
      let m : MRec := { failed := failed, dest := .ncq }
      let s := net7 (nReady + 8) { rcd := some m }
      s.rb (Reg.MLD_NSTAT 7) 3 = true ∧ (s.net 7).rcd = some m ∧ (s.net 7).outs = [] ∧ (s.net 7).after = 0 ∧ m.dest = .ncq ∧ s.now + 1000 < 2 ^ 64 ∧
      s.rb (Reg.MLD_NCQ 7) 32 = true ∧ Takes s (s.nOwner 7) (s.rf (Reg.MLD_NCQ 7) 15 0) (s.rf (Reg.MLD_NCQ 7) 31 16)) ∧
    fld 16#64 4 0 ≤ 16 ∧ 16 < fld 17#64 4 0 ∧ (net7 nReady {}).rb (Reg.MLD_NSTAT 7) 3 = false := by
  refine ⟨by decide +kernel, ⟨by decide +kernel, by decide +kernel, by decide +kernel, by decide, by decide +kernel, by decide, by decide +kernel, by decide +kernel, ?_⟩,
    by decide +kernel, ?_, by decide +kernel⟩
  · intro i hi
    refine engHolds_of ?_
    revert i
    decide +kernel
  · intro failed
    exact ⟨by cases failed <;> decide +kernel, by cases failed <;> decide +kernel, by cases failed <;> decide +kernel, by cases failed <;> decide +kernel,
      rfl, by cases failed <;> decide +kernel, by cases failed <;> decide +kernel, takes_of (by cases failed <;> decide +kernel)⟩

/-- A network whose relation has no ENTRY, with a live fact in slot 1. -/
def loaded : MeldNet := { rels := [putFld 63 60 8 ||| 0x1FFFFF#64], nodes := [(0, (putFld 63 60 3, 0#64, 0#64, 0#64))], facts := [(1, { phase := .live, rel := 0, nf := 8 })] }

/-- The four commands: ASSERT, RETRACT, MODIFY of one field and of several. -/
def meldItem (op : Nat) : Item :=
  let id : Word := fixW (putFld 50 48 7 ||| putFld 47 32 1 ||| 1#64)
  if op = 1 then ⟨fixW (putFld 63 60 1), nilW, ⟨Tag.vec, ptrPay 1 0x20⟩, nilW⟩
  else if op = 2 then ⟨fixW (putFld 63 60 2), id, nilW, nilW⟩
  else if op = 3 then ⟨fixW (putFld 63 60 3 ||| putFld 50 48 7), id, fixN 5, nilW⟩
  else ⟨fixW (putFld 63 60 4 ||| putFld 59 52 0xFF), id, ⟨Tag.vec, ptrPay 1 0x20⟩, nilW⟩

theorem commanded (op : Nat) (h : op = 1 ∨ op = 2 ∨ op = 3 ∨ op = 4) : Commanded (net7 nReady loaded (meldItem op)) 7 8 3 (meldItem op) := by
  rcases h with rfl | rfl | rfl | rfl <;>
    exact ⟨by decide +kernel, by decide +kernel, by decide +kernel, by decide +kernel, by decide +kernel, by decide +kernel, by decide +kernel,
      ⟨by decide +kernel, by decide +kernel, takes_of (by decide +kernel)⟩, by decide +kernel⟩

theorem meld_vec (op : Nat) (h : op = 1 ∨ op = 4) :
    let s := net7 nReady loaded (meldItem op)
    EngVec s 1 (meldItem op).w2 8 (fun i => (s.peekWord (0x2021 + i)).1) := by
  rcases h with rfl | rfl
  all_goals
    refine ⟨by decide +kernel, by decide +kernel, ⟨0x2020, putFld 63 56 9 ||| putFld 39 0 8, engHolds_of (by decide +kernel), by decide +kernel, by decide +kernel⟩, fun i hi =>
      ⟨0x2021 + i, engHolds_of ?_⟩⟩
    revert i
    decide +kernel

theorem witness_MeldCommands :
    (let s := net7 nReady loaded (meldItem 1)
     let h := (meldItem 1).w0.pay
     s.railUp = true ∧ Commanded s 7 8 3 (meldItem 1) ∧ s.nOwner 7 = 1 ∧ fld h 63 60 = 1 ∧ fld h 59 48 = 0 ∧ fld h 31 16 = 0 ∧ 0 < (s.net 7).rels.length ∧
     (s.net 7).nodes.length ≤ relEntry (((s.net 7).rels[0]?).getD 0#64) ∧ relNf (((s.net 7).rels[0]?).getD 0#64) = 8 ∧ (meldItem 1).w1 = nilW ∧
     EngVec s 1 (meldItem 1).w2 8 (fun i => (s.peekWord (0x2021 + i)).1) ∧ (∀ i, i < 8 → isStructural (s.peekWord (0x2021 + i)).1.tag = false) ∧ 0 < s.nFcap 7 ∧
     (s.fact 7 0).phase = .free ∧ (s.fact 7 0).freedAt = 0) ∧
    (∀ op, op = 2 ∨ op = 3 ∨ op = 4 →
      let s := net7 nReady loaded (meldItem op)
      let it := meldItem op
      let x := s.fact 7 1
      Commanded s 7 8 3 it ∧ fld it.w1.pay 31 0 = 1 ∧ it.w1.tag = Tag.fix ∧ fld it.w1.pay 63 51 = 0 ∧ fld it.w1.pay 50 48 = 7 ∧ fld it.w0.pay 31 16 = 0 ∧ x.phase = .live ∧
      x.gen = fld it.w1.pay 47 32 ∧ 1 < s.nFcap 7 ∧ x.nf = 8 ∧ (s.net 7).nodes.length ≤ relEntry (((s.net 7).rels[x.rel]?).getD 0#64) ∧ (s.net 7).amem = [] ∧ (s.net 7).toks = [] ∧
      ∀ k, k < x.nf → (s.peekWord ((s.net 7).viewBase + 16 * 1 + 1 + k)).2 ≠ .uncorr) ∧
    (let h := (meldItem 2).w0.pay
     fld h 63 60 = 2 ∧ fld h 59 48 = 0 ∧ (meldItem 2).w2 = nilW) ∧
    (let h := (meldItem 3).w0.pay
     fld h 63 60 = 3 ∧ fld h 59 52 = 0 ∧ fld h 50 48 = 7 ∧ (net7 nReady loaded).malformed (meldItem 3).w2 = false ∧ isStructural (meldItem 3).w2.tag = false) ∧
    (let s := net7 nReady loaded (meldItem 4)
     let h := (meldItem 4).w0.pay
     fld h 63 60 = 4 ∧ fld h 50 48 = 0 ∧ fld h 59 52 = 2 ^ 8 - 1 ∧ EngVec s 1 (meldItem 4).w2 8 (fun i => (s.peekWord (0x2021 + i)).1)) := by
  refine ⟨⟨by decide +kernel, commanded 1 (.inl rfl), by decide +kernel, by decide +kernel, by decide +kernel, three (by decide +kernel) ⟨by decide +kernel, by decide +kernel, meld_vec 1 (.inl rfl), by decide +kernel⟩⟩, ?_, by decide +kernel, by decide +kernel,
    by decide +kernel, by decide +kernel, by decide +kernel, meld_vec 4 (.inr rfl)⟩
  rintro op (rfl | rfl | rfl)
  · exact ⟨commanded 2 (.inr (.inl rfl)), by decide +kernel⟩
  · exact ⟨commanded 3 (.inr (.inr (.inl rfl))), by decide +kernel⟩
  · exact ⟨commanded 4 (.inr (.inr (.inr rfl))), by decide +kernel⟩

/-! Corgil: node 1, with node 5 behind port 3; partition 1 exports entries 4 and 5. -/

def node (sup : Bool) (h : Tab Word) (g : CgSt → CgSt) (f : CoreSt → CoreSt := id) (io : List (Nat × W64) := []) : State :=
  { rigOf sup h [(0x2020, ⟨Tag.hdr, putFld 63 56 9 ||| putFld 39 0 8⟩), (0x2021, fixN 1), (0x2028, fixN 8)]
      ([(Reg.CGL_NODECFG, putFld 43 32 5 ||| putFld 12 12 1 ||| 1#64), (Reg.CGL_XRANGE 1, putFld 63 62 3 ||| putFld 48 24 2 ||| 4#64), (Reg.CGLP_PSTAT 3, n64 pUp),
        (Reg.DLR_QRANGE 1, putFld 63 63 1 ||| putFld 62 42 16 ||| putFld 32 16 4 ||| 8#64)] ++ io) f with
    cg := g { routes := [(10, putFld 63 63 1 ||| putFld 52 48 1 ||| 3#64)] },
    queues := [(8, { phase := .live, gen := 1, cfg := 0x200 })] }

theorem linked_of {s : State} {dst p : Nat} {rt : W64}
    (h : (dst ≠ s.cgNode ∧ dst < 4096) ∧ (rt = s.routeEnt dst false ∧ bitAt rt 63 = true ∧ fld rt 1 0 = p) ∧ s.pState p = pUp ∧ (s.cport p).txq = [] ∧ (s.cport p).retry.length < 64) :
    Linked s dst p rt := ⟨h.1, h.2.1, h.2.2.1, h.2.2.2.1, h.2.2.2.2⟩

theorem plain_of {s : State} {w : Word} (h : s.isPtr w.tag = false ∧ w.tag ≠ Tag.que ∧ w.tag ≠ Tag.dev ∧ w.tag ≠ Tag.rem ∧ w.tag ≠ Tag.raww ∧
    isStructural w.tag = false ∧ s.malformed w = false) : Plain s w := h

/-- l0 names export 7 of node 5, l1 is FIX, l2 and l3 plain, l4 a quad of plain words, i0 names this node's export 5, and i1 is a pointer. -/
def remotes (sup : Bool) (g : CgSt → CgSt := id) : State :=
  node sup [(0, remWord 5 1 7), (1, fixN 0), (2, fixN 3), (3, queWord 8 1 true false), (4, fixN 1), (5, fixN 2), (6, fixN 3), (7, fixN 4), (8, remWord 1 3 5), (9, ⟨Tag.vec, ptrPay 1 0x20⟩)] g

theorem witness_RemoteInstructions :
    (let s := remotes false
     let w := s.reg 0 16
     AtEase s 0 ∧ w.tag = Tag.rem ∧ s.malformed w = false ∧ Linked s (remNode w.pay) 3 (s.routeEnt 5 false) ∧ FreshTxn s 0 ∧ (s.reg 0 17).tag = Tag.fix ∧
     Plain s (s.reg 0 18) ∧ Handle s 0 (s.reg 0 19) 8 true ∧ 20 % 4 = 0 ∧ Plain s (s.quad 0 20).w0 ∧ Plain s (s.quad 0 20).w1 ∧ Plain s (s.quad 0 20).w2 ∧ Plain s (s.quad 0 20).w3) ∧
    (let s := remotes true (fun x => { x with exports := [(4, { phase := .live }), (5, { phase := .live, gen := 3, part := 1 })] })
     let w := s.reg 0 24
     AtEase s 0 ∧ s.sup 0 = true ∧ w.tag = Tag.rem ∧ s.malformed w = false ∧ remNode w.pay = s.cgNode ∧ remIdx w.pay = 5 ∧ (s.xent 5).phase = .live ∧ (s.xent 5).gen = remGen w.pay ∧
     (s.xent 5).part = s.corePart 0 ∧ s.cycleHeap (s.corePart 0) = none ∧ s.sweep.heap = none) ∧
    (let s := remotes true (fun x => { x with exports := [(4, { phase := .live })] })
     let w := s.reg 0 25
     let r := s.ioR (Reg.CGL_XRANGE (s.corePart 0))
     AtEase s 0 ∧ s.sup 0 = true ∧ s.isPtr w.tag = true ∧ s.malformed w = false ∧ bitAt r 63 = true ∧ fld r 23 0 ≤ 5 ∧ 5 < fld r 23 0 + fld r 48 24 ∧ (s.xent 5).phase = .free ∧
     (s.xent 5).freedAt = 0 ∧ (∀ j, j < 5 → fld r 23 0 ≤ j → ¬ ((s.xent j).phase = .free ∧ (s.xent j).freedAt = 0)) ∧
     (s.reg 0 19).tag = Tag.que ∧ quePush (s.reg 0 19).pay = true) :=
  ⟨⟨atEase_of (by decide +kernel), by decide +kernel, by decide +kernel, linked_of (by decide +kernel), ⟨by decide +kernel, by decide +kernel, by decide +kernel, fun j h => absurd h (by omega)⟩,
    by decide +kernel, plain_of (by decide +kernel), ⟨by decide +kernel, by decide +kernel, by decide +kernel, by decide +kernel, by decide +kernel, .inl (by decide +kernel), by decide +kernel⟩,
    by decide, plain_of (by decide +kernel), plain_of (by decide +kernel), plain_of (by decide +kernel), plain_of (by decide +kernel)⟩,
   ⟨atEase_of (by decide +kernel), by decide +kernel⟩, atEase_of (by decide +kernel), by decide +kernel⟩

/-- A message from node 5. -/
def message (k : CKind) (body : List Word) : CMsg :=
  { kind := k, dst := 1#12, src := 5#12, hops := 0#5, hidx := 0#5, txid := 0xFFFF#16, txgen := 1#16, route := 0#48, body := body }

theorem inbox_of {s : State} {m : CMsg} (h : s.cg.inbox = [m]) : Inbox s m [] [] := ⟨h, fun _ h => nomatch h⟩

/-- Node 1 with a message to serve, export 4 a VEC and export 5 a queue; f adds what else it holds. -/
def serving (k : CKind) (body : List Word) (f : CgSt → CgSt := id) : State :=
  node false [] (fun x => f { x with inbox := [message k body], exports := [(4, { phase := .live, part := 1, target := ⟨Tag.vec, ptrPay 1 0x20⟩ }), (5, { phase := .live, queue := true, part := 1, target := queWord 8 1 true false })] })

/-- RD of no entry and of element 7 of export 4; WR of it; PUSH to export 5, and a repeated one; REFINC and REFDEC of an entry of count 1 and of a counted one. -/
theorem witness_RemoteService :
    (let b := [(remWord 1 1 0), fixN 0]
     let s := serving .rd b
     s.railUp = true ∧ Inbox s (message .rd b) [] [] ∧ Linked s (message .rd b).src.toNat 3 (s.routeEnt 5 false) ∧ s.sweep.heap = none ∧ s.xOwner 0 = none) ∧
    (∀ k, k = .rd ∨ k = .wr →
      let b := [remWord 1 1 4, fixN 7, fixN 9]
      let s := serving k b
      let m := message k b
      let e := s.xent 4
      let hdr := putFld 63 56 9 ||| putFld 39 0 8
      Inbox s m [] [] ∧ Linked s m.src.toNat 3 (s.routeEnt 5 false) ∧ s.xOwner 4 = some 1 ∧ (s.part 1).resetting = false ∧ (s.part 1).resetReq = false ∧ e.phase = .live ∧ e.gen = remGen (bodyW m 0).pay ∧
      e.queue = false ∧ s.rb (Reg.CGL_XRANGE 1) 62 = true ∧ EngVec s 1 e.target 8 (fun i => (s.peekWord (0x2021 + i)).1) ∧ (bodyW m 1).pay.toInt = ((7 : Nat) : Int) ∧
      EngHolds s 1 true (ptrSel e.target.pay) (ptrOff e.target.pay) 0x2020 ⟨Tag.hdr, hdr⟩ ∧ bitAt hdr 55 = false ∧
      Plain s (s.peekWord 0x2028).1 ∧ Plain s (bodyW m 2) ∧ EngStores s 1 true (ptrSel e.target.pay) (ptrOff e.target.pay + 1 + 7) 0x2028 (bodyW m 2)) ∧
    (∀ old : Bool,
      let b := [remWord 1 1 5, fixN 1, fixN 2, fixN 3, fixN 4]
      let s := serving .push b (fun x => { x with filter := if old then [(5, 0xFFFF, 1, 0)] else [] })
      let m := message .push b
      Inbox s m [] [] ∧ Linked s m.src.toNat 3 (s.routeEnt 5 false) ∧ s.xOwner 5 = some 1 ∧ (s.part 1).resetting = false ∧ (s.part 1).resetReq = false ∧ (s.xent 5).phase = .live ∧
      (s.xent 5).gen = remGen (bodyW m 0).pay ∧ (s.xent 5).queue = true ∧ (∀ w ∈ [bodyW m 1, bodyW m 2, bodyW m 3, bodyW m 4], Plain s w) ∧ Takes s 1 8 1 ∧
      queNum (s.xent 5).target.pay = 8 ∧ queGen (s.xent 5).target.pay = 1 ∧ s.cg.filter.length < 65536 ∧
      ((∃ y ∈ s.cg.filter, y.1 = m.src.toNat ∧ y.2.1 = m.txid.toNat ∧ y.2.2.1 = m.txgen.toNat) ↔ old = true)) ∧
    (∀ k, k = .refinc ∨ k = .refdec → ∀ auto : Bool,
      let b := [fixW (putFld 23 0 4 ||| putFld 39 24 1)]
      let s := serving k b (fun x => { x with exports := [(4, { phase := .live, part := 1, auto := auto, count := 1 })] })
      let r := (bodyW (message k b) 0).pay
      Inbox s (message k b) [] [] ∧ Linked s 5 3 (s.routeEnt 5 false) ∧ fld r 23 0 = 4 ∧ (s.xent 4).phase = .live ∧ (s.xent 4).gen = fld r 39 24 ∧ (s.xent 4).auto = auto ∧ (s.xent 4).count ≤ 1) ∧
    (let s := { serving .rd [] (fun x => { x with filter := [(5, 0, 1, 2 ^ 64 - 1)], epDone := [15] }) with io := (heap15 0 0 0 [] {}).io }
     s.cg.filter = (5, 0, 1, 2 ^ 64 - 1) :: [] ∧ (∃ h, h < 16 ∧ s.heapDefined h = true) ∧ ∀ h, h < 16 → s.heapDefined h = true → h ∈ s.cg.epDone) := by
  refine ⟨⟨by decide +kernel, inbox_of rfl, linked_of (by decide +kernel), by decide +kernel, by decide +kernel⟩, ?_, ?_, ?_, by decide +kernel⟩
  · have v : ∀ k, k = .rd ∨ k = .wr → EngVec (serving k [remWord 1 1 4, fixN 7, fixN 9]) 1 ⟨Tag.vec, ptrPay 1 0x20⟩ 8
        (fun i => ((serving k [remWord 1 1 4, fixN 7, fixN 9]).peekWord (0x2021 + i)).1) := by
      rintro k (rfl | rfl)
      all_goals
        refine ⟨by decide +kernel, by decide +kernel, ⟨0x2020, putFld 63 56 9 ||| putFld 39 0 8, engHolds_of (by decide +kernel), by decide +kernel, by decide +kernel⟩, fun i hi =>
          ⟨0x2021 + i, engHolds_of ?_⟩⟩
        revert i
        decide +kernel
    rintro k (rfl | rfl)
    · exact ⟨inbox_of rfl, linked_of (by decide +kernel), by decide +kernel, by decide +kernel, by decide +kernel, three (by decide +kernel) ⟨by decide +kernel,
        v .rd (.inl rfl), by decide +kernel, engHolds_of (by decide +kernel), by decide +kernel, plain_of (by decide +kernel), plain_of (by decide +kernel), engStores_of (by decide +kernel)⟩⟩
    · exact ⟨inbox_of rfl, linked_of (by decide +kernel), by decide +kernel, by decide +kernel, by decide +kernel, three (by decide +kernel) ⟨by decide +kernel,
        v .wr (.inr rfl), by decide +kernel, engHolds_of (by decide +kernel), by decide +kernel, plain_of (by decide +kernel), plain_of (by decide +kernel), engStores_of (by decide +kernel)⟩⟩
  · intro old
    refine ⟨inbox_of rfl, linked_of (by cases old <;> decide +kernel), by cases old <;> decide +kernel, by cases old <;> decide +kernel, by cases old <;> decide +kernel,
      by cases old <;> decide +kernel, by cases old <;> decide +kernel, by cases old <;> decide +kernel, ?_, takes_of (by cases old <;> decide +kernel), by cases old <;> decide +kernel,
      by cases old <;> decide +kernel, by cases old <;> decide +kernel, by cases old <;> decide +kernel⟩
    intro w hw
    refine plain_of ?_
    revert w
    cases old <;> decide +kernel
  · rintro k (rfl | rfl) auto
    · exact ⟨inbox_of rfl, linked_of (by cases auto <;> decide +kernel), by cases auto <;> decide +kernel⟩
    · exact ⟨inbox_of rfl, linked_of (by cases auto <;> decide +kernel), by cases auto <;> decide +kernel⟩

/-- Node 1 with an answer in its inbox and the live transaction 0xFFFF. -/
def waiting (k : CKind) (body : List Word) (x : CTxn) : State :=
  node false [] (fun g => { g with inbox := [message k body], txns := [(0xFFFF, { x with phase := .live, part := 1, sent := true, que := (queWord 8 1 true false).pay })] })
    (fun c => { c with wait := .remote 0xFFFF })

theorem waiting_fence (k : CKind) (body : List Word) (x : CTxn) : ∀ j n, ((waiting k body x).core j).wait ≠ .fence n := by
  intro j n h
  by_cases e : j = 0
  · subst e
    exact nomatch h
  · have := Tab.get_single 0 j ((waiting k body x).core 0) ({} : CoreSt) e
    have w : (waiting k body x).core j = {} := this
    rw [w] at h
    exact nomatch h

theorem waiting_answered (k : CKind) (body : List Word) (x : CTxn) (h : x.gen = 1) (p : x.parent = none) : Answered (waiting k body x) (message k body) 0xFFFF := by
  refine ⟨by show (0xFFFF#16).toNat = _; decide, rfl, h, fun e he _ => ?_⟩
  have : e = _ := List.mem_singleton.mp he
  rw [this]
  show x.parent ≠ _
  rw [p]
  exact fun h => nomatch h

/-- Each answer of a live transaction, its timeout, resend, end and record. -/
theorem witness_RemoteAnswers :
    (∀ e ∈ [(CKind.rdack, TxKind.rld, fixN 1), (.wrack, .rst, nilW), (.pushack, .rpush, nilW), (.nak, .rpush, fixW (n64 NakCode.busy)), (.refack, .refinc, nilW)],
      let s := waiting e.1 [e.2.2] { kind := e.2.1, d := 31, held := if e.2.1 = .refinc then some { message .rdack [nilW] with dst := 5#12 } else none }
      let m := message e.1 [e.2.2]
      let x := s.txn 0xFFFF
      s.railUp = true ∧ (∀ j n, (s.core j).wait ≠ .fence n) ∧ Inbox s m [] [] ∧ Answered s m 0xFFFF ∧ m.kind = e.1 ∧ x.kind = e.2.1 ∧ x.core = 0 ∧
      (s.core 0).wait = .remote 0xFFFF ∧ s.running 0 = true ∧ s.dbgOn 0 = false ∧ x.d < 32 ∧ x.rcd = none ∧ quePush x.que = true ∧ queNum x.que = 8 ∧ queGen x.que = 1 ∧
      (bodyW m 0).tag ≠ Tag.rem ∧ Takes s 1 8 1 ∧ Linked s 5 3 (s.routeEnt 5 false) ∧ (e.2.1 = .refinc → x.held = some { message .rdack [nilW] with dst := 5#12 })) ∧
    (∀ again : Bool,
      let y := { message .push [nilW] with dst := 5#12 }
      let s := waiting .rd [] { kind := .rpush, again := again, msg := some y, rcd := none }
      let x := s.txn 0xFFFF
      x.phase = .live ∧ x.kind = .rpush ∧ x.rcd = none ∧ x.sent = true ∧ x.again = again ∧ x.lastSend + s.toutNs < 2 ^ 64 ∧ s.now < x.firstSend + 8000000 ∧ x.msg = some y ∧
      y.dst.toNat = 5 ∧ Linked s 5 3 (s.routeEnt 5 false) ∧ Takes s x.part 8 1 ∧ ∀ e ∈ s.cg.txns, e.2.phase = .live → e.2.parent ≠ some 0xFFFF) ∧
    (let s := waiting .rd [] { kind := .rpush, rcd := some noItem }
     (s.txn 0xFFFF).phase = .live ∧ (s.txn 0xFFFF).rcd = some noItem ∧ quePush (s.txn 0xFFFF).que = true ∧ Takes s (s.txn 0xFFFF).part 8 1) := by
  refine ⟨?_, ?_, by decide +kernel, by decide +kernel, by decide +kernel, takes_of (by decide +kernel)⟩
  · intro e he
    simp only [List.mem_cons, List.not_mem_nil, or_false] at he
    rcases he with rfl | rfl | rfl | rfl | rfl <;>
      exact ⟨by decide +kernel, waiting_fence _ _ _, inbox_of rfl, waiting_answered _ _ _ rfl rfl, rfl, rfl, rfl, by decide +kernel, by decide +kernel, by decide +kernel, three (by decide +kernel) ⟨by decide +kernel, by decide +kernel, by decide +kernel, takes_of (by decide +kernel), linked_of (by decide +kernel), by decide +kernel⟩⟩
  · intro again
    exact ⟨rfl, rfl, rfl, rfl, rfl, by cases again <;> decide +kernel, by cases again <;> decide +kernel, rfl, by cases again <;> decide +kernel, linked_of (by cases again <;> decide +kernel),
      takes_of (by cases again <;> decide +kernel), by cases again <;> decide +kernel⟩

/-! Ports, frames and messages of node 1. -/

/-- Port 3 in a state, with what it holds. -/
def portAt (st mode : Nat) (x : CPort) (io : List (Nat × W64) := []) : State :=
  chip ([(Reg.CGL_NODECFG, putFld 12 12 1 ||| 1#64), (Reg.CGLP_PSTAT 3, n64 st), (Reg.CGLP_PCFG 3, putFld 5 4 mode ||| putFld 1 0 mode), (Reg.CGLP_PSTAT 2, n64 pUp)] ++ io)
    (fun s => { s with cg := { ports := [(3, x)] } })

def sentMsg (k : CKind) (t : Nat) : TxMsg := { msg := { message k [] with src := 1#12 }, at_ := t, sent := true }

/-- Each state; frames with the number expected and another; messages for this node, for another and on their way; a frame to replay 1 and 16 times, and to free; lanes;
messages too old; training and retraining; and the modes. -/
theorem witness_LinkPorts :
    (∀ st, st < 5 → let s := portAt st 2 {}
      s.railUp = true ∧ s.pState 3 = st ∧ s.cgValid = true ∧ (s.cport 3).txq = [] ∧ (s.cport 3).retry = [] ∧ s.pMode 3 = 2 ∧ s.rf (Reg.CGLP_PCFG 3) 1 0 = 2 ∧
      s.modeTarget (240 + 3) (s.rf (Reg.CGLP_PCFG 3) 1 0) = 2) ∧
    (portAt pUp 1 {}).pMode 3 = 1 ∧ (portAt pDown 0 {}).modeTarget (240 + 3) ((portAt pDown 0 {}).rf (Reg.CGLP_PCFG 3) 1 0) = 0 ∧
    ({ portAt pUp 0 {} with modeTo := [(243, 2)] } : State).modeTarget (240 + 3) 0 = 1 ∧
    (let s := portAt pUp 2 { rxSeq := 0xFFF }
     let m := { message .rd [] with dst := 1#12 }
     let n := { message .rd [] with dst := 9#12 }
     let o := { message .rd [] with dst := 9#12, hops := 1#5, route := 2#48 }
     (∀ f ∈ (s.cport 3).retry.head?, f.1 = 7) ∧ (0xFFF#12).toNat = (s.cport 3).rxSeq ∧ (0#12).toNat ≠ (s.cport 3).rxSeq ∧
     let w := { message .rd [] with dst := 1#12, hidx := 1#5 }
     (m.hidx = m.hops ∧ m.dst.toNat = s.cgNode) ∧ (n.hops.toNat ≤ n.hidx.toNat ∧ ¬ (n.hidx = n.hops ∧ n.dst.toNat = s.cgNode)) ∧
     (w.hops.toNat ≤ w.hidx.toNat ∧ ¬ (w.hidx = w.hops ∧ w.dst.toNat = s.cgNode)) ∧ o.hidx.toNat < o.hops.toNat ∧
     (let q := (o.route.toNat >>> (2 * o.hidx.toNat)) % 4
      q ≠ 3 ∧ s.pState q = pUp ∧ (s.cport q).txq = [] ∧ (s.cport q).retry = []) ∧ (portAt pUp 2 {} [(Reg.CGLP_PSTAT 2, n64 pDown)]).pState 2 ≠ pUp) ∧
    (∀ n, n = 14 ∨ n = 15 → let s := portAt pUp 2 { retry := [(7, [sentMsg .rdack 0])], replays := n }
      let x := s.cport 3
      (∀ f ∈ x.retry.head?, f.1 = (7#12).toNat) ∧ x.retry ≠ [] ∧ (n = 14 → x.replays + 1 < 16) ∧ (n = 15 → 16 ≤ x.replays + 1) ∧ x.sentAt + 2000 < 2 ^ 64 ∧
      x.lastRx + 3000000 < 2 ^ 64 ∧ ∀ m ∈ x.txq ++ (x.retry.map (·.2)).flatten, kindCls m.msg.kind ≠ 0) ∧
    (let s := portAt pUp 2 { retry := [(0xFFF, [sentMsg .rdack 0]), (0, [])] }
     let x := s.cport 3
     x.retry = [(0xFFF, [sentMsg .rdack 0])] ++ [(0, [])] ∧ (∀ f ∈ [(0xFFF, [sentMsg .rdack 0])], ((0#12).toNat + 4096 - f.1) % 4096 ≤ 2048 ∧ f.1 ≠ (0#12).toNat) ∧
     (∀ f ∈ [(0, ([] : List TxMsg))].head?, f.1 = (0#12).toNat) ∧ x.txq = []) ∧
    (∀ k, k = .rd ∨ k = .rdack → let s := portAt pRetrain 2 { retry := [(0, [sentMsg k 0])] }
      let held := (s.cport 3).txq ++ ((s.cport 3).retry.map (·.2)).flatten
      held = [sentMsg k 0] ∧ (∀ m ∈ held, (sentMsg k 0).at_ ≤ m.at_) ∧ (sentMsg k 0).at_ + 40000 < 2 ^ 64 ∧ (kindCls k = 0 ↔ k = .rd) ∧
      (sentMsg k 0).msg.src.toNat = s.cgNode ∧ (s.cport 3).txq = [] ∧ (s.cport 3).retry ≠ [] ∧ (s.cport 3).replays + 1 < 16) ∧
    (∀ lanes ∈ ([0, 1, 2, 3, 4] : List (Fin 5)), let tr : TrainRes := { lanes := lanes, node := 5#12, port := 3, delay := 9#16 }
      (portAt pTrain 2 {}).pState 3 = pTrain ∧ (lanes.val = 0 ↔ lanes = 0) ∧ tr.node.toNat ≠ (portAt pTrain 2 {}).cgNode ∧ (1#12).toNat = (portAt pTrain 2 {}).cgNode ∧
      ((portAt pTrain 2 {}).cport 3).txq = []) ∧
    (portAt pDown 0 {}).reqPart .jtag = 0 ∧ fld 2#64 1 0 < 3 ∧ ¬ fld 3#64 1 0 < 3 := by
  refine ⟨by decide +kernel, by decide +kernel, by decide +kernel, by decide +kernel, by decide +kernel, ?_, by decide +kernel, ?_, by decide +kernel, by decide +kernel⟩
  · rintro n (rfl | rfl) <;> decide +kernel
  · rintro k (rfl | rfl) <;> decide +kernel

/-- Node 1 as slave of time master 5 and of budget master 5, or as both masters itself, with a message in its inbox. -/
def ruled (me : Nat) (bm : Nat) (m : CMsg) (io : List (Nat × W64) := []) (f : State → State := id) : State :=
  chip ([(Reg.CGL_NODECFG, putFld 55 44 5 ||| putFld 43 32 5 ||| putFld 12 12 1 ||| n64 me), (Reg.STK_SCTL, putFld 41 40 bm), (Reg.CGLP_PSTAT 3, n64 pUp)] ++ io)
    (fun s => f { s with cg := { inbox := [m], routes := [(10, putFld 63 63 1 ||| putFld 52 48 1 ||| 3#64)] } })

theorem witness_LinkMessages :
    (∀ n ∈ [0, 1, 24, 25], let v := putFld 63 63 1 ||| putFld 52 48 n
      fld v 52 48 = n ∧ (chip []).reqPart .jtag = 0 ∧ (chip [(Reg.CORE_CINFO 0, putFld 15 12 1 ||| putFld 11 11 1)]).reqPart (.core 0) ≠ 0) ∧
    (let s := ruled 5 0 (message .time [fixN 9]) [(Reg.CGL_CCTL, putFld 19 16 8)]
     s.isTimeMaster = true ∧ s.timePorts = [3] ∧ s.pState 3 = pUp ∧ (s.cport 3).txq = [] ∧ (s.cport 3).retry = [] ∧ Inbox s (message .time [fixN 9]) [] []) ∧
    (∀ T, T = 1000000 ∨ T = 1000001 → let m := message .time [fixN T]
      let s := ruled 1 0 m [(Reg.CGL_CCTL, 0#64)]
      Inbox s m [] [] ∧ s.isTimeMaster = false ∧ s.timePorts = [] ∧ ((bodyW m 0).pay.toNat ≤ s.now + 1000000 ↔ T = 1000000) ∧ s.cgValid = true ∧
      s.cg.lastTime + 3000000 < 2 ^ 64) ∧
    (∀ d ∈ [0, 3001], let b := [⟨Tag.qty, qPay 1 dimA⟩, ⟨Tag.qty, qPay 2 dimA⟩, ⟨Tag.qty, qPay 3 dimA⟩, fixN 1, fixN d]
      let m := message .bgrant b
      let s := ruled 1 1 m
      Inbox s m [] [] ∧ m.src.toNat = s.rf Reg.CGL_NODECFG 55 44 ∧ s.rf Reg.CGL_BGSEQ 31 0 < fld (bodyW m 3).pay 31 0 ∧
      (∀ i, i < 3 → (bodyW m i).tag = Tag.qty ∧ qDim (bodyW m i).pay = dimA) ∧ fld (bodyW m 4).pay 31 0 = d ∧ s.bmode = 1 ∧ Linked s (s.rf Reg.CGL_NODECFG 55 44) 3 (s.routeEnt 5 false)) ∧
    (let m := message .breq []
     let s := ruled 1 2 m [(Reg.STK_MNODE 63, putFld 12 12 1 ||| 5#64)]
     Inbox s m [] [] ∧ s.bmode = 2 ∧ m.src.toNat ∈ s.listedNodes ∧ ¬ (ruled 1 2 m).listedNodes = [5]) ∧
    (let cap := (List.range 3).map (fun ph => (Reg.STK_MCAP ph, qPay 10 dimA))
     let mine := (Reg.STK_MNODE 0, putFld 12 12 1 ||| 1#64)
     let s := ruled 1 2 (message .time []) (cap ++ [mine])
     (∃ ph, ph < 3 ∧ qVal ((ruled 1 2 (message .time []) ([mine] ++ (List.range 3).map (fun ph => (Reg.STK_MFLOOR ph, qPay 10 dimA)))).ioR (Reg.STK_MCAP ph)) < 10) ∧
     (∀ ph, ph < 3 → (s.listedNodes.length : Int) * qVal (s.ioR (Reg.STK_MFLOOR ph)) ≤ qVal (s.ioR (Reg.STK_MCAP ph))) ∧ s.stk.seqPause = none ∧ s.listedNodes = [s.cgNode] ∧
     s.rf Reg.STK_MSTAT 31 0 < 2 ^ 32 - 1 ∧ (ruled 1 2 (message .time []) ((Reg.STK_MSTAT, n64 (2 ^ 32 - 1)) :: cap)).rf Reg.STK_MSTAT 31 0 = 2 ^ 32 - 1) ∧
    (let s := ruled 1 2 (message .time []) [] (fun s => { s with stk := { seqPause := some 5, grants := [] ++ [{ at_ := 7, valid := 3000000, amps := [] }] } })
     s.stk.seqPause = some 5 ∧ 5 + 4000000 < 2 ^ 64 ∧ s.stk.grants = [] ++ [{ at_ := 7, valid := 3000000, amps := [] }]) ∧
    (ruled 1 0 (message .time [])).stk.grants = [] ∧ (ruled 1 0 (message .time [])).bmode = 0 := by
  refine ⟨by decide +kernel, ⟨by decide +kernel, by decide +kernel, by decide +kernel, by decide +kernel, by decide +kernel, inbox_of rfl⟩, ?_, ?_, ⟨inbox_of rfl, by decide +kernel⟩,
    by decide +kernel, by decide +kernel, by decide +kernel⟩
  · rintro T (rfl | rfl) <;> exact ⟨inbox_of rfl, by decide +kernel⟩
  · intro d hd
    simp only [List.mem_cons, List.not_mem_nil, or_false] at hd
    rcases hd with rfl | rfl <;>
      exact ⟨inbox_of rfl, by decide +kernel, by decide +kernel, by decide +kernel, by decide +kernel, by decide +kernel, linked_of (by decide +kernel)⟩

/-! The Stoker: phase 3 (2 in the model) with its own reference, locked or not; channel 255 of phase 3 and group 7, of partition 1. -/

def stoker (locked pulse : Bool) (src hper : Nat) (z : ZcSt) (z0 : ZcSt := {}) (io : List (Nat × W64) := []) (f : StkSt → StkSt := id) : State :=
  chip ([(Reg.STK_ZCCFG 2, putFld 2 2 pulse.toNat ||| n64 src), (Reg.STK_ZCSTAT 2, putFld 63 63 locked.toNat ||| n64 hper), (Reg.STK_SCTL, putFld 31 16 500 ||| putFld 15 0 100),
      (Reg.CORE_CINFO 0, putFld 15 12 1 ||| putFld 11 11 1), (Reg.STK_CHCFG 255, putFld 46 44 7 ||| putFld 41 40 3 ||| putFld 8 8 1 ||| putFld 16 16 1 ||| putFld 24 24 1)] ++ io)
    (fun s => { s with owners := [(State.Res.group.code * 65536 + 7, 2)], stk := f { zc := if z0 = {} then [(2, z)] else [(0, z0), (2, z)] } })

/-- Edges of a derived phase, and of its own reference in both polarities, unlocked or locked, at the ends of the range of half-periods and beyond; lock lost; references
changed; a plan in time and late, and its outputs; demands; arming; and samples that differ. -/
theorem witness_Stoker :
    ((stoker false false 1 0 {}).railUp = true ∧ (stoker false false 1 0 {}).zcSrc 2 ≠ 0 ∧ ((stoker false false 1 0 {}).zc 0).last = none ∧
      ((stoker false false 2 0 {} { last := some 5 }).zc 0).last = some 5 ∧ 5 + 2 * (stoker false false 2 0 {} { last := some 5 }).zcHper 0 * 2 / 3 < 2 ^ 64) ∧
    (∀ pulse : Bool, let s := stoker false pulse 0 10000000 {}
      s.zcSrc 2 = 0 ∧ s.rb (Reg.STK_ZCCFG 2) 2 = pulse ∧ (s.zc 2).last = none ∧ ¬ (s.zcLocked 2 = true ∧ (s.zc 2).last ≠ none)) ∧
    (∀ pulse locked : Bool, ∀ ns ∈ [7690000, 11110000, 7689999, 2 * 11110000], let s := stoker locked pulse 0 10000000 { last := some 0, halves := List.replicate 7 10000000 }
      let h := (ns - 1000 * s.rf (Reg.STK_ZCCFG 2) 31 16) / (if pulse then 2 else 1)
      s.zcSrc 2 = 0 ∧ (s.zc 2).last = some 0 ∧ s.zcLocked 2 = locked ∧ s.zcHper 2 = 10000000 ∧
      (ns = 7690000 → pulse = false → 7690000 ≤ h ∧ h ≤ 11110000) ∧ (ns = 2 * 11110000 → pulse = true → 7690000 ≤ h ∧ h ≤ 11110000) ∧
      (ns = 7689999 → ¬ (7690000 ≤ h ∧ h ≤ 11110000)) ∧ (List.replicate (if pulse then 2 else 1) h ++ (s.zc 2).halves).length = (if pulse then 9 else 8)) ∧
    (let s := stoker true false 0 10000000 { last := some 0 }
     s.zcLocked 2 = true ∧ s.zcSrc 2 = 0 ∧ (s.zc 2).last = some 0 ∧ 0 + s.zcHper 2 * 5 / 4 < 2 ^ 64 ∧ 0 + s.zcHper 2 < 2 ^ 64 ∧ (s.zc 2).planFor ≠ 0 + s.zcHper 2 ∧ s.reqPart .jtag = 0 ∧
     s.reqPart (.core 0) ≠ 0 ∧ max s.now (10000000 - 1000 * s.rf Reg.STK_SCTL 31 16) ≤ 10000000 - 1000 * s.rf Reg.STK_SCTL 15 0 ∧ s.chPhase 255 = 2 + 1 ∧
     (∀ k, k < 256 → s.chPhase k = 2 + 1 → k = 255)) ∧
    (∀ locked : Bool, let s := stoker locked false 0 10000000 (if locked then { last := some 0 } else {}) {} [(Reg.STK_ZCSTAT 0, putFld 63 63 1 ||| 10000000#64)]
      fld 1#64 1 0 ≠ s.rf (Reg.STK_ZCCFG 2) 1 0 ∧ s.zcLocked 0 = true ∧ (s.zcLocked 2 = true ∨ (s.zc 2).last ≠ none ↔ locked = true)) ∧
    (let s := stoker true false 1 10000000 { last := some 0 }
     ¬ (s.zcLocked 2 = true ∧ s.zcSrc 2 = 0 ∧ (s.zc 2).last ≠ none)) ∧
    (let s := stoker true false 0 10000000 { last := some 0, planFor := 10000000, switched := false } {} [(Reg.CGL_TIMENS, 9900001#64), (Reg.STK_GCTL 7, 4#64)]
     (s.zc 2).planFor = 0 + s.zcHper 2 ∧ (s.zc 2).switched = false ∧ (s.zc 2).planFor < 2 ^ 64 ∧ 10000000 - 1000 * s.rf Reg.STK_SCTL 15 0 < max s.now (10000000 - 1000 * s.rf Reg.STK_SCTL 31 16) ∧
     s.eligible 255 = true ∧ s.groupArmed 7 = true ∧ s.mayWrite (s.reqPart (.core 0)) .group 7 = true) ∧
    (let s := stoker false false 0 0 {}
     s.chGroup 255 = 7 ∧ s.mayWrite (s.reqPart (.core 0)) .group 7 = true ∧ s.mayWrite (s.reqPart (.core 0)) .group 6 = false ∧ qDim (qPay 0 dimW) = dimW ∧ 0 ≤ qVal (qPay 0 dimW) ∧
     ¬ 0 ≤ qVal (qPay (-1) dimW) ∧ s.owner .group 7 = some (s.reqPart (.core 0)) ∧ s.groupHeld 7 = false ∧ s.rb (Reg.STK_GCTL 7) 8 = false ∧ s.groupArmed 7 = false ∧
     ∀ c, c < 256 → s.chPhase c ≠ 0 → s.chGroup c = 7 → s.rb (Reg.STK_RBERR (c / 64)) (c % 64) = false) ∧
    (let s := stoker false false 0 0 {} {} [] (fun x => { x with diff := [(255, 2)] })
     (∀ g, g < 8 → (0#8).getLsbD g = s.groupArmed g) ∧ (∀ c, c < 256 → (0#256).getLsbD c = Tab.get s.stk.ho c false) ∧
     (∀ k, k < 256 → k ≠ 255 → ((1#256) <<< 255).getLsbD k = Tab.get s.stk.ho k false) ∧ ((1#256) <<< 255).getLsbD 255 ≠ Tab.get s.stk.ho 255 false ∧
     Tab.get s.stk.chg 255 0 = 0 ∧ 2 ≤ Tab.get s.stk.diff 255 0) := by
  refine ⟨by decide +kernel, by decide +kernel, by decide +kernel, three (by decide +kernel) ⟨by decide +kernel, by decide +kernel, by decide +kernel⟩⟩

/-- A core with offset 8 of segments 1 and 2 in l0, and with an entry of each level in l1 to l4; phase 3 before a crossing, its plan and its switch. -/
theorem witness_MaintenanceAndHeating :
    (let s := running true [(0, fixN 8)] [] [0#64, 0#64] [] (fun x => { x with sg := [(1, 1), (2, 2)] })
     AtEase s 0 ∧ Settled s 0 ∧ (31#13).toNat < 32 ∧ (s.reg 0 16).tag = Tag.fix ∧ (s.reg 0 16).pay.toInt = (8 : Nat) ∧ s.sup 0 = true ∧ s.regionOk 0x2008 = true ∧
     Reaches s 0 (s.sgR 0 1) 8 .read 0x2008 ∧ Reaches s 0 (s.sgR 0 1) 8 .write 0x2008 ∧ Reaches s 0 (s.sgR 0 2) 8 .exec 0x3008) ∧
    (let s := rigOf true ((List.range 4).map (fun k => (k, fixW (putFld 22 11 127 ||| putFld 10 7 3 ||| n64 k)))) [] [(Reg.CORE_CINFO 0, putFld 11 11 1)]
     AtEase s 0 ∧ s.sup 0 = true ∧ s.corePart 0 = 0 ∧ ∀ k, k < 4 → let v := (s.reg 0 (16 + k)).pay
       (s.reg 0 (16 + k)).tag = Tag.fix ∧ fld v 63 23 = 0 ∧ fld v 1 0 = k ∧ fld v 6 2 = 0 ∧ fld v 22 11 < 128 ∧ fld v 10 7 < 4) ∧
    (let s := stoker true false 0 10000000 { last := some 0, switched := false }
     s.railUp = true ∧ s.zcSrc 2 = 0 ∧ s.rb (Reg.STK_ZCCFG 2) 2 = false ∧ (s.zc 2).last = some 0 ∧ s.zcLocked 2 = true ∧ (s.zc 2).planFor ≠ 0 + s.zcHper 2 ∧
     (s.zc 2).switched = false ∧ s.reqPart .jtag = 0 ∧ fld 2#64 1 0 < 3 ∧ fld (putFld 41 40 2) 41 40 < 3 ∧ s.mayWrite (s.reqPart (.core 0)) .group (s.chGroup 255) = true ∧
     qDim (qPay 0 dimW) = dimW ∧ 0 ≤ qVal (qPay 0 dimW) ∧ s.owner .group 7 = some (s.reqPart (.core 0)) ∧ s.groupHeld 7 = false ∧ s.rb (Reg.STK_GCTL 7) 8 = false ∧
     (∀ c, c < 256 → s.chPhase c ≠ 0 → s.chGroup c = 7 → s.rb (Reg.STK_RBERR (c / 64)) (c % 64) = false) ∧ (∀ g, g < 8 → (0#8).getLsbD g = s.groupArmed g) ∧
     ∀ c, c < 256 → (0#256).getLsbD c = Tab.get s.stk.ho c false) :=
  ⟨⟨atEase_of (by decide +kernel), settled_rig _ _ _ _ _ rfl, by decide, by decide +kernel, by decide +kernel, by decide +kernel, by decide +kernel,
    reaches_of (by decide +kernel), reaches_of (by decide +kernel), reaches_of (by decide +kernel)⟩, ⟨atEase_of (by decide +kernel), by decide +kernel⟩, by decide +kernel⟩


/-! Field ports: PWM 31, encoder 7, Sense channel 511 on port 7, and the housekeeping ADC. -/

def field (io : List (Nat × W64)) (f : StkSt → StkSt := id) : State := chip io (fun s => { s with stk := f {} })

/-- A Sense channel with a field of 8 bits at 0 in frames of 8, scale 1, and range 0 to 127. -/
def sensed (x : SenseSt) (frame : Nat) (extra : List (Nat × W64) := []) : State :=
  field ([(Reg.SNS_CFRAME 511, putFld 56 51 8 ||| putFld 45 40 8 ||| putFld 14 14 1 ||| putFld 11 9 7), (Reg.SNS_SCALE 511, qPay 1 0), (Reg.SNS_OFFSET 511, qPay 0 0),
      (Reg.SNS_LO 511, qPay 0 0), (Reg.SNS_HI 511, qPay 127 0), (Reg.SNS_RATE 511, qPay 5 0), (Reg.SNS_DB 511, qPay 0 0), (Reg.SNS_CPLAUS 511, 1#64), (Reg.SNS_CRING 511, 0#64),
      (Reg.SNS_CMQ 511, 0#64), (Reg.SNS_CFAULT 511, putFld 63 32 0x80)] ++ extra)
    (fun y => { y with sense := [(511, x)], frame := if frame = 0 then [] else [(7, frame)] })

theorem witness_FieldPorts :
    (let s := field [] (fun y => { y with pwm := [(31, { per := 9 })] })
     s.railUp = true ∧ s.mayWrite (s.reqPart .jtag) .pwm 31 = true ∧ (s.pwm 31).per ≠ 0 ∧ (s.pwm 30).per = 0 ∧
     (chip [(Reg.CORE_CINFO 0, putFld 15 12 1 ||| putFld 11 11 1)]).mayWrite ((chip [(Reg.CORE_CINFO 0, putFld 15 12 1 ||| putFld 11 11 1)]).reqPart (.core 0)) .pwm 31 = false) ∧
    (let s := field [(Reg.PWM_ENCCFG 7, 2#64)] (fun y => { y with encAB := [(7, (true, false))] })
     Tab.get s.stk.encAB 7 (false, false) = (true, false) ∧ s.rf (Reg.PWM_ENCCFG 7) 1 0 = 2) ∧
    (let s := field [(Reg.HKA_HCTL, putFld 16 16 1 ||| putFld 15 15 1 ||| 1#64), (Reg.HKA_HLIM 0, putFld 43 32 0xFFE ||| putFld 27 16 1 ||| putFld 4 4 1)]
     (s.rb Reg.HKA_HCTL 16 = true ∧ s.rb Reg.HKA_HCTL 0 = true ∧ s.rb Reg.HKA_HCTL 15 = true ∧ s.rb Reg.HKA_HCTL 1 = false) ∧
     (let l := s.ioR (Reg.HKA_HLIM 0)
      ((0#12).toNat < fld l 27 16 ∨ fld l 43 32 < (0#12).toNat) ∧ ((0xFFF#12).toNat < fld l 27 16 ∨ fld l 43 32 < (0xFFF#12).toNat) ∧
      ¬ ((0xFFE#12).toNat < fld l 27 16 ∨ fld l 43 32 < (0xFFE#12).toNat) ∧ ¬ ((1#12).toNat < fld l 27 16 ∨ fld l 43 32 < (1#12).toNat) ∧ bitAt l 4 = true)) :=
  ⟨by decide +kernel, by decide +kernel, by decide +kernel⟩

/-- A due channel of Sense. -/
theorem witness_FieldPorts_due :
    (∀ b : Bool, let s := sensed { due := b } 0
      s.rb (Reg.SNS_CFRAME 511) 14 = true ∧ (s.sense 511).due = b ∧ s.snsPort 511 = 7 ∧ Tab.get s.stk.frame 7 0 = 0 ∧
      (∀ k, k < 511 → ¬ ((s.sense k).due = true ∧ s.rb (Reg.SNS_CFRAME k) 14 = true ∧ s.snsPort k = 7)) ∧
      fld (s.ioR (Reg.SNS_CFRAME 511)) 50 46 + fld (s.ioR (Reg.SNS_CFRAME 511)) 56 51 ≤ fld (s.ioR (Reg.SNS_CFRAME 511)) 45 40 ∧ s.mayWrite (s.reqPart .jtag) .sense 511 = true) := by
  decide +kernel

/-- A reply at both ends of the range, and one that fails. -/
theorem witness_FieldPorts_reply (reply : BitVec 32) (hr : reply = 0#32 ∨ reply = 0x7F#32) :
    let s := sensed { hasVal := false } 512
    let cf := s.ioR (Reg.SNS_CFRAME 511)
    let d := qDim (s.ioR (Reg.SNS_SCALE 511))
    let x := rawField cf reply * qVal (s.ioR (Reg.SNS_SCALE 511)) + qVal (s.ioR (Reg.SNS_OFFSET 511))
    Tab.get s.stk.frame 7 0 = 511 + 1 ∧ s.rf (Reg.SNS_CRING 511) 51 48 = 0 ∧ s.rb (Reg.SNS_CMQ 511) 32 = false ∧ s.rb (Reg.SNS_CFRAME 511) 16 = false ∧
    (reply.toNat % 2 ^ fld cf 45 40) &&& s.rf (Reg.SNS_CFAULT 511) 63 32 = s.rf (Reg.SNS_CFAULT 511) 31 0 ∧
    ((0x80#32).toNat % 2 ^ fld cf 45 40) &&& s.rf (Reg.SNS_CFAULT 511) 63 32 ≠ s.rf (Reg.SNS_CFAULT 511) 31 0 ∧
    fld cf 23 17 = 0 ∧ qDim (s.ioR (Reg.SNS_OFFSET 511)) = d ∧ qDim (s.ioR (Reg.SNS_LO 511)) = d ∧ qDim (s.ioR (Reg.SNS_HI 511)) = d ∧ qDim (s.ioR (Reg.SNS_RATE 511)) = d ∧
    qDim (s.ioR (Reg.SNS_DB 511)) = d ∧ -35184372088832 ≤ x ∧ x < 35184372088832 ∧ qVal (s.ioR (Reg.SNS_LO 511)) ≤ x ∧ x ≤ qVal (s.ioR (Reg.SNS_HI 511)) ∧ fld cf 63 57 = 0 ∧
    (s.sense 511).hasVal = false := by
  rcases hr with rfl | rfl
  all_goals
    repeat' apply And.intro
    all_goals decide +kernel

/-! Peripherals: the last instance of each kind, with its domain on. -/

def pers (ps : List (PerId × PerSt)) (io : List (Nat × W64)) : State :=
  chip ([(Reg.DMPR_DSTAT 4, -1#64)] ++ io) (fun s => ps.foldl (fun s e => s.modPer e.1 (fun _ => e.2)) s)
def enabled (p : PerId) (mode : Nat) : Nat × W64 := (Reg.PER_PCTL (perBase p), putFld 26 16 8 ||| putFld 11 8 mode ||| 1#64)

theorem witness_Peripherals :
    (∀ p ∈ ([.eth 3, .usb, .can 3, .uart 7, .i2c 3, .pmb, .xspi] : List PerId), let s := pers [(p, { rx := [[1#8]] })] [enabled p 0]
      let c := pers [] [enabled p 0, (Reg.CORE_CINFO 0, putFld 15 12 1 ||| putFld 11 11 1)]
      s.railUp = true ∧ (∀ k, perDomain p = some k → s.domOn k = true) ∧ s.perMayWrite (s.reqPart .jtag) p = true ∧ c.perMayWrite (c.reqPart (.core 0)) p = false ∧
      s.perEn p = true ∧ (s.perSt p).rx = [1#8] :: [] ∧ (c.perSt p).rx = [] ∧ c.rxCount p = 0 ∧ ¬ s.rb (Reg.PER_PCTL (perBase p)) 2 = true) ∧
    (∀ p ∈ ([.eth 3, .can 3, .uart 7, .i2c 3, .xspi] : List PerId), let s := pers [(p, { rx := [List.replicate (Config.rxRoom (perIdx p) + 1) 0#8] })] [enabled p 1]
      s.rxCount p ≠ 0 ∧ ¬ s.rxCount p + 1 ≤ Config.rxRoom (perIdx p)) ∧
    (let s := pers [] [enabled (.eth 3) 0, (Reg.ETH_RXCFG 3, 2#64)]
     s.ethAccepts 3 (List.replicate 6 0xFF#8) = true ∧ s.ethAccepts 3 (List.replicate 6 0#8) = (s.rf (Reg.ETH_MACADDR 3) 47 0 == 0)) ∧
    (let s := pers [(.usb, { frames := [[1#8]] }), (.eth 3, { frames := [[1#8, 2#8]] }), (.can 3, { frames := [[1#8]] })] [enabled .usb 0, enabled (.eth 3) 0, enabled (.can 3) 0]
     (s.perSt .usb).frames = [1#8] :: [] ∧ (s.perSt (.eth 3)).gclLen = 0 ∧ (s.perSt (.eth 3)).frames = [[1#8, 2#8]] ∧ (s.perSt (.can 3)).frames = [1#8] :: [] ∧
     s.rf (Reg.CAN_CANERR 3) 7 0 < 248 ∧ s.canAccepts 3 0#32 = true) ∧
    (let s := pers [] [enabled (.can 3) 8, (Reg.CAN_CANERR 3, putFld 17 16 2 ||| 248#64), (Reg.CAN_CANFLT 3 63, putFld 63 63 1 ||| putFld 60 32 1 ||| putFld 28 0 1)]
     248 ≤ s.rf (Reg.CAN_CANERR 3) 7 0 ∧ s.canAccepts 3 0#32 = false ∧ s.rf (Reg.CAN_CANERR 3) 17 16 = 2 ∧ (s.perMode (.can 3)).testBit 3 = true) ∧
    (let s := pers [(.uart 7, { tx := [1#8, 2#8], rx := [] ++ [[3#8]] })] [enabled (.uart 7) 1, enabled (.i2c 3) 1]
     s.perEn (.uart 7) = true ∧ (s.perMode (.uart 7)).testBit 0 = true ∧ (s.perSt (.uart 7)).de = false ∧ s.perMode (.i2c 3) = 1 ∧ (s.perSt (.uart 7)).tx = 1#8 :: [2#8] ∧
     (s.perSt (.uart 7)).rx = [] ++ [[3#8]] ∧ (s.perSt (.i2c 3)).tx = []) ∧
    (let s := pers [] [(Reg.ETH_GCLCTL 3, putFld 23 16 128 ||| 4#64), (Reg.ETH_GCLCYCLE 3, 10#64), (Reg.ETH_PTPNS 3, 25#64)]
     s.rb (Reg.ETH_GCLCTL 3) 2 = true ∧ (pers [] []).rb (Reg.ETH_GCLCTL 3) 2 = false ∧
     (let base := (s.ioR (Reg.ETH_GCLBASE 3)).toNat
      let cyc := s.rf (Reg.ETH_GCLCYCLE 3) 31 0
      ¬ (s.ptp 3 ≤ base ∨ cyc = 0) ∧ base + (s.ptp 3 - base + cyc - 1) / cyc * cyc = 30) ∧ (s.ptp 3 / 1000000000 + 1) * 1000000000 < 2 ^ 64) ∧
    ((chip []).inRecovery = false ∧
     (let s := pers [(.i2c 3, { tx := [1#8] })] []
      let v := putFld 29 29 1 ||| putFld 27 16 1
      bitAt v 29 = true ∧ s.rb (Reg.I2C_I2CSTAT 3) 0 = false ∧ bitAt v 11 = false ∧ bitAt (setBit v 11 true) 11 = true ∧ fld v 27 16 ≠ 0 ∧ (s.perSt (.i2c 3)).cmd = none)) ∧
    (let s := pers [] [(Reg.PMB_PMBCREG, 0x40#64)]
     ∀ kind, kind < 7 → let v := putFld 31 31 1 ||| putFld 26 24 kind ||| putFld 15 8 0x21
       bitAt v 31 = true ∧ fld v 26 24 ≠ 7 ∧ fld v 26 24 = kind ∧ s.rb Reg.PMB_PMBSTAT 0 = false ∧ (s.perSt .pmb).cmd = none ∧ fld v 15 8 = 0x21 ∧
       fld v 6 0 ≠ s.rf Reg.PMB_PMBCREG 6 0 ∧ fld (v ||| 0x40#64) 6 0 = s.rf Reg.PMB_PMBCREG 6 0) ∧
    (∀ w : Bool, let s := pers [(.xspi, { tx := [1#8] })] [(Reg.XSPI_XOP, putFld 31 31 w.toNat)]
      let v := putFld 63 63 1 ||| 1#64
      bitAt v 63 = true ∧ s.rb Reg.XSPI_XFSTAT 0 = false ∧ s.rb Reg.XSPI_XOP 31 = w ∧ fld v 31 0 ≠ 0 ∧ (s.perSt .xspi).cmd = none) ∧
    (bitAt (1#64 <<< 31) 31 = true ∧ (chip []).mayWrite 0 .gpio (32 * 2 + 31) = true ∧ (chip []).gpioHeld (32 * 2 + 31) = false) := by
  refine ⟨by decide +kernel, ?_, by decide +kernel, by decide +kernel, by decide +kernel, three (by decide +kernel) ⟨by decide +kernel,
    by decide +kernel, by decide +kernel⟩⟩
  intro p hp
  simp only [List.mem_cons, List.not_mem_nil, or_false] at hp
  have e : ∀ n, ((List.map List.length [List.replicate (n + 1) 0#8]).sum) = n + 1 := by simp
  have c : (pers [(p, { rx := [List.replicate (Config.rxRoom (perIdx p) + 1) 0#8] })] [enabled p 1]).rxCount p = Config.rxRoom (perIdx p) + 1 := by
    rcases hp with rfl | rfl | rfl | rfl | rfl <;> exact e _
  exact ⟨by rw [c]; omega, by rw [c]; omega⟩

/-! Hearth and the Damper. -/

/-- The device in a state of Table 16-1. -/
def device (d : DevSt) (io : List (Nat × W64)) (f : HearthSt → HearthSt := id) (g : State → State := id) : State :=
  g { State.reset with hs := f { dev := d }, io := io.foldl (fun t e => Tab.set t e.1 e.2 (regReset e.1)) [] }

theorem witness_ChipResets :
    (∀ d ∈ ([.unpowered, .cold, .boot, .run, .ember, .recovery] : List DevSt), let s := device d [(Reg.HRTH_HBOOT, 1#64)]
      Rising s.io ∧ Rising s.mem ∧ (s.powered = false ↔ d = .unpowered) ∧ (s.railUp = true ↔ d = .run ∨ d = .recovery) ∧ s.hs.dev = d ∧ s.hs.hot = false) ∧
    (device .cold [] (fun h => { h with hot := true, vioLost := true })).hs.hot = true ∧ ((3 : Fin 10).val < 4 ∧ 4 ≤ (4 : Fin 10).val) ∧
    (let v (p c : Nat) : W64 := putFld 63 48 0x7C1A ||| putFld 5 5 c ||| putFld 4 4 1 ||| putFld 3 0 p
     fld (v 0 0) 63 48 = 0x7C1A ∧ bitAt (v 0 1) 5 = true ∧ bitAt (v 15 0) 5 = false ∧ bitAt (v 15 0) 4 = true ∧ fld (v 15 0) 3 0 = 15 ∧ fld (v 0 0) 3 0 = 0) ∧
    (∀ b : Bool, let s := device .run [] id (fun s => { s with parts := [(15, { defined := true, resetReq := b })] })
      (s.part 15).defined = true ∧ (s.part 15).resetReq = b ∧ (s.part 15).resetting = false ∧ ∀ c q d h, (s.core c).wait ≠ .qwait q d h) ∧
    (let s := device .run [(Reg.CORE_CINFO 63, putFld 15 12 15 ||| putFld 11 11 1), (Reg.CORE_CINFO 0, putFld 15 12 15 ||| putFld 11 11 1), (Reg.DMPR_DCORE, 1#64 <<< 63), (Reg.DMPR_DSTAT 1, 0x80#64)] id
        (fun s => { s with parts := [(15, { defined := true, resetting := true, resetAt := 7 })] })
     (s.part 15).resetting = true ∧ (s.part 15).presetAt = none ∧ ¬ (∃ n, n < 8 ∧ s.nDefined n = true ∧ s.nOwner n = 15 ∧ (s.net n).reloadAt ≠ none) ∧
     (s.part 15).resetAt + 2000000 < 2 ^ 64 ∧ (s.coreOwned 63 = true ∧ s.corePart 63 = 15) ∧ (s.dcore 63 = true ∧ s.dstatBit (64 + 63 / 8) = true) ∧ s.corePart 0 = 15 ∧ s.dcore 0 = false) ∧
    (let s := device .boot []
     s.hs.dev = .boot ∧ s.hs.rails = [] ∧ s.hs.resetN = false ∧ s.hs.jtag ≠ .extest ∧ s.hs.jtag ≠ .clamp ∧ s.hs.jtag ≠ .highz) := by
  refine ⟨?_, by decide +kernel, by decide +kernel, by decide +kernel, ?_, ⟨by decide +kernel, by decide +kernel, ?_, by decide +kernel⟩, by decide +kernel⟩
  · intro d hd
    simp only [List.mem_cons, List.not_mem_nil, or_false] at hd
    rcases hd with rfl | rfl | rfl | rfl | rfl | rfl <;>
      exact ⟨.cons (fun _ h => nomatch h) .nil, .nil, by decide +kernel, by decide +kernel, by decide +kernel, by decide +kernel⟩
  · intro b
    exact ⟨rfl, rfl, rfl, fun c q d h k => nomatch k⟩
  · rintro ⟨n, h, d, -⟩
    have : ∀ n, n < 8 → (device .run [(Reg.CORE_CINFO 63, putFld 15 12 15 ||| putFld 11 11 1), (Reg.CORE_CINFO 0, putFld 15 12 15 ||| putFld 11 11 1), (Reg.DMPR_DCORE, 1#64 <<< 63),
        (Reg.DMPR_DSTAT 1, 0x80#64)] id (fun s => { s with parts := [(15, { defined := true, resetting := true, resetAt := 7 })] })).nDefined n = false := by decide +kernel
    rw [this n h] at d
    exact nomatch d

/-- Monitors below their warning and not; domains to shed, of which one core; requests of partition 0; each kind of domain; operating points; readings; sleep and wake. -/
theorem witness_PowerEvents :
    (∀ m ∈ ([0, 1, 3, 4] : List (Fin 10)), let s := device .run []
      s.monLive m = true ∧ s.rb Reg.HRTH_SMSTAT (32 + m.val) = false ∧ s.rf Reg.HRTH_SMSTAT 41 32 = 0 ∧ s.reqPart .jtag = 0 ∧
      (∀ k, k < 273 → s.rb (Reg.DMPR_DSHED (k / 64)) (k % 64) = true → s.domOn k = false)) ∧
    (let s := device .run [(Reg.HRTH_SMSTAT, putFld 41 41 1), (Reg.DMPR_DSHED 0, 1#64), (Reg.CORE_CINFO 0, putFld 11 11 1), (Reg.DMPR_DSHOFF 0, 1#64)] id
        (fun s => { s with cores := [(0, { run := .shed })] })
     s.powered = true ∧ s.rf Reg.HRTH_SMSTAT 41 32 ≠ 0 ∧ s.domShed 0 = true ∧ (s.core 0).run = .shed ∧ (s.monLive 9 = false ∨ s.rb Reg.HRTH_SMSTAT (32 + 9) = true) ∧
     ∀ k, k < 248 → 232 ≤ k → s.domShed k = false) ∧
    (let s := device .run [(Reg.DMPR_DSHED 0, 1#64), (Reg.CORE_CINFO 0, putFld 11 11 1), (Reg.DMPR_DCORE, 1#64)] id (fun s => { s with cores := [(0, { run := .run, wait := .doze })] })
     (s.domOn 0 = true ∧ s.rb (Reg.DMPR_DSHED (0 / 64)) (0 % 64) = true) ∧ (∀ k, k < 273 → s.rb (Reg.DMPR_DSHED (k / 64)) (k % 64) = true → k < 64) ∧
     ¬ (bitAt 0#64 0 = true ∧ s.coreOwned 0 = true) ∧ (s.core 0).run = .run ∧ (s.core 0).wait = .doze ∧ s.servesSource 0 = false ∧ (s.corePowered 0 = true)) ∧
    (let s := device .run [(Reg.CORE_CINFO 63, putFld 11 11 1), (Reg.DMPR_DCORE, 1#64 <<< 63), (Reg.DMPR_DSTAT 1, 0x80#64), (Reg.DMA_CSTAT 3 15, 1#64), (Reg.DMPR_DIO, 0x7F#64)] id
        (fun s => { s with owners := [(State.Res.eth.code * 65536, 1), (State.Res.usb.code * 65536, 1)] })
     (s.coreOwned 63 = true ∧ s.dcore 63 = true ∧ (s.core 63).run = .off ∧ s.dstatBit (64 + 63 / 8) = true ∧ (s.part (s.corePart 63)).resetting = false ∧
      (s.part (s.corePart 63)).resetReq = false) ∧ s.domShed 63 = false ∧
     s.dState (16 * (254 - 251) + 15) ≠ 0 ∧ s.dioBit 263 = true ∧ s.dioBit 268 = true ∧ s.dioBit 272 = true ∧
     (∀ k ∈ [263, 268], ∃ q ∈ perAll, perDomain q = some k ∧ s.perOwner q ≠ none) ∧ s.dioBit 267 = true ∧ (∀ q ∈ perAll, perDomain q = some 267 → s.perOwner q = none) ∧
     (let t := device .run [(Reg.CORE_CINFO 63, putFld 11 11 1), (Reg.DMPR_DCORE, 1#64 <<< 63)]
      t.shellNeeded 7 = true ∧ t.dstatBit 71 = false)) ∧
    (let s := device .run [(Reg.CLK_OPP, putFld 9 8 2)]
     fld 2#64 1 0 < 3 ∧ bitAt (setFld (s.ioR Reg.CLK_OPP) 1 0 2) 7 = false ∧ min 2 (s.rf Reg.CLK_OPP 9 8) ≠ s.rf Reg.CLK_OPP 5 4 ∧ min 0 (s.rf Reg.CLK_OPP 9 8) = s.rf Reg.CLK_OPP 5 4) ∧
    (let s := device .run [(Reg.CLK_OPP, putFld 9 8 2 ||| 2#64)] (fun h => { h with oppTo := some 2 })
     s.hs.oppTo = some 2 ∧ s.rf Reg.CLK_OPP 5 4 < 2 ∧ s.rb Reg.HRTH_SMSTAT 32 = false ∧ s.oppTarget = 2 ∧ s.hs.oppTo ≠ none ∧
     (device .run [(Reg.HRTH_SMSTAT, 1#64 <<< 32)]).rb Reg.HRTH_SMSTAT 32 = true) ∧
    (∀ n : Nat, n = 8 ∨ n = 9 → let s := device .run [(Reg.CLK_OPP, putFld 9 8 1)] (fun h => { h with stepCnt := n, relCnt := 990 + n, tripCnt := n })
      let cfg := s.ioR Reg.CLK_TGCFG
      s.hs.ceilHold ≤ 1 ∧ fld cfg 27 14 ≤ (0x3FFF#14).toNat ∧ (0#14).toNat ≤ fld cfg 41 28 ∧ ¬ fld cfg 27 14 ≤ (0#14).toNat ∧ ¬ (0x3FFF#14).toNat ≤ fld cfg 41 28 ∧
      0 < s.rf Reg.CLK_OPP 9 8 ∧ s.rf Reg.CLK_OPP 9 8 < 2 ∧ (n = 9 ↔ 10 ≤ s.hs.stepCnt + 1)) ∧
    (∀ k : Nat, k = 1 ∨ k = 2 → let v := putFld 63 48 0xE4B3 ||| n64 k
      fld v 63 48 = 0xE4B3 ∧ fld v 1 0 = k ∧ (device .run [(Reg.DMPR_DCORE, 3#64)]).sleepReady k = false) ∧
    (device .run [(Reg.HRTH_RTCALM, 32768#64)]).ioR Reg.HRTH_RTCALM = 32768#64 ∧ (device .run [(Reg.HRTH_RTCALM, 32769#64)]).ioR Reg.HRTH_RTCALM = 32769#64 ∧
    (∀ src : Fin 11, let s := device .cold [(Reg.HRTH_HWAKE, -1#64)]
      s.powered = true ∧ s.wakeEnabled src = true ∧ s.hs.hot = false ∧ s.hs.vioLost = false ∧ ((device .run []).wakeEnabled 0 = false)) ∧
    ((device .cold [] (fun h => { h with vioLost := true })).hs.vioLost = true ∧
     (let s := device .ember [] (fun h => { h with wake := 255, resumeOk := true, rails := [.vddq] })
      s.hs.dev = .ember ∧ s.hs.rails = [.vddq] ∧ s.hs.wake ≠ 0 ∧ s.hs.wake < 256 ∧ s.hs.resumeOk = true ∧ s.rb Reg.SAFE_SWDCFG 63 = false ∧ (s.part 0).resumeSel = 0 ∧ (s.part 0).resumeOff = 0)) := by
  refine ⟨by decide +kernel, by decide +kernel, by decide +kernel, three (by decide +kernel) ⟨?_, ?_, by decide +kernel, by decide +kernel, by decide +kernel,
    by decide +kernel⟩⟩
  · rintro n (rfl | rfl) <;> decide +kernel
  · rintro n (rfl | rfl) <;> decide +kernel

/-! The safety monitor. -/

/-- A state of the chip with these inputs that wait to latch. -/
def monitored (io : List (Nat × W64)) (fin : List (Nat × Nat × Nat)) (f : State → State := id) : State := f { chip io with faultIn := fin }

/-- Inputs 0, 79 (reserved) and 255, that wait behind another. -/
theorem witness_SafetyMonitor_waiting :
    ∀ k ∈ ([0, 79, 255] : List (Fin 256)), let s := monitored [] [(5, 2, 0), (k.val, 3, 1)]
      s.railUp = true ∧ s.faultIn = [(5, 2, 0)] ++ (k.val, 3, 1) :: [] ∧ (∀ y ∈ ([(5, 2, 0)] : List (Nat × Nat × Nat)), y.1 ≠ k.val) ∧ s.fpend k = false ∧
      (inputReserved k = true ↔ k = 79) ∧ (∀ w, w < 4 → s.ioR (Reg.SAFE_FPEND w) = 0#64) ∧ (∀ y ∈ (chip []).faultIn, y.1 ≠ k.val) := by
  decide +kernel

/-- Input 255 with each reaction, and with another input pending; it latches for partition 15. -/
theorem witness_SafetyMonitor_reaction :
    ∀ a : Fin 8, let s := monitored [(Reg.SAFE_FCFG 255, n64 a.val), (Reg.SAFE_FPEND 3, 1#64)] [(255, 0, 0)] (fun s => { s with parts := [(15, { defined := true })] })
      s.fact_ 255 = a.val ∧ s.concernedBy 255 0 = 15 ∧ (s.part 15).defined = true ∧ inputReserved 255 = false ∧ s.fpend 255 = false ∧ s.fpend 192 = true ∧
      s.ioR (Reg.SAFE_FPEND 3) ≠ 0#64 := by
  decide +kernel

theorem witness_SafetyMonitor_rising (a : Nat) : Rising (monitored [(Reg.SAFE_FCFG 255, n64 a)] []).io := by
  unfold monitored chip Rising
  simp only [List.foldl, id]
  exact List.Pairwise.imp (fun h => h) (by
    unfold Tab.set
    split <;> simp [List.pairwise_cons])

/-- The pair of cores 62 and 63, and a pair that does not run. -/
theorem witness_SafetyMonitor_pair :
    let s := monitored [] [] (fun s => { s with cores := [(62, { run := .run, cr := [(CRN.cst, putFld 9 9 1)] })] })
    s.corePaired (2 * 31) = true ∧ (s.core 62).run = .run ∧ (∀ q d h, (s.core 62).wait ≠ .qwait q d h) ∧
    ¬ (s.corePaired (2 * 0) = true ∧ (s.core 0).run = .run) ∧ s.corePaired (8 * 7) = false ∧
    (let t := monitored [] [] (fun s => { s with cores := [(56, { cr := [(CRN.cst, putFld 9 9 1)] })] })
     t.corePaired (8 * 7) = true ∧ t.corePaired (8 * 0) = false) :=
  ⟨by decide +kernel, by decide +kernel, fun q d h => (fun k => nomatch k), by decide +kernel, by decide +kernel, by decide +kernel⟩

/-- Register writes, unlocked and locked, by partition 0 and by another; SWFLT of the inputs of partition 15; the windows of the watchdogs. -/
theorem witness_SafetyMonitor_writes :
    (∀ b : Bool, let s := monitored [(Reg.SAFE_SLOCK, n64 b.toNat), (Reg.CORE_CINFO 63, putFld 15 12 15 ||| putFld 11 11 1)] []
      s.rb Reg.SAFE_SLOCK 0 = b ∧ s.reqPart .jtag = 0 ∧ s.reqPart (.core 63) = 15 ∧
      (∀ k : Nat, k = 254 ∨ k = 255 → inputReserved k = false ∧ (k = 224 + 2 * 15 ∨ k = 225 + 2 * 15) ∧ s.fpend k = false ∧ fld (n64 k) 7 0 = k) ∧
      ¬ (253 = 224 + 2 * 15 ∨ 253 = 225 + 2 * 15) ∧ (∀ p : PartId, p = 15 → s.reqPart (.core 63) = p.val)) ∧
    (let s := monitored [(Reg.SAFE_FPEND 3, 1#64 <<< 63)] [] (fun s => { s with saf := { concerned := [(255, 16)] } })
     bitAt (-1#64 : W64) 63 = true ∧ s.fpend (64 * 3 + 63) = true ∧ Tab.get s.saf.concerned 255 0 = 15 + 1 ∧ s.faultStands 255 = false ∧ s.fpend 192 = false) := by
  refine ⟨?_, by decide +kernel⟩
  intro b
  refine ⟨by cases b <;> decide +kernel, by cases b <;> decide +kernel, by cases b <;> decide +kernel, ?_, by decide, ?_⟩
  · rintro k (rfl | rfl) <;> cases b <;> decide +kernel
  · rintro p rfl; cases b <;> decide +kernel

/-- The safety watchdog: settings at both ends of the range and beyond, off and on, the first window and a later one, in time and late, and its key. -/
theorem witness_SafetyMonitor_watchdog :
    (let v (lo hi b : Nat) : W64 := putFld 63 63 b ||| putFld 29 16 lo ||| putFld 13 0 hi
     let legal (v : W64) : Prop := 100 ≤ fld v 13 0 ∧ fld v 13 0 ≤ 10000 ∧ fld v 29 16 + 100 ≤ fld v 13 0
     legal (v 0 100 0) ∧ legal (v 9900 10000 1) ∧ ¬ legal (v 0 99 1) ∧ ¬ legal (v 9901 10000 1) ∧ bitAt (v 0 100 0) 63 = false ∧ bitAt (v 9900 10000 1) 63 = true) ∧
    (∀ f : Bool, let s := monitored [(Reg.SAFE_SWDCFG, putFld 63 63 1 ||| putFld 13 0 100), (Reg.SAFE_SWDSTAT, putFld 63 48 0x5A3C ||| putFld 32 32 f.toNat)] [] (fun s => { s with saf := { swdRuns := true } })
      s.rb Reg.SAFE_SWDCFG 63 = true ∧ s.saf.swdRuns = true ∧ s.rf Reg.SAFE_SWDCFG 59 56 = 0 ∧ s.rb Reg.SAFE_SWDSTAT 32 = f ∧
      fld (0x5A3C#64) 15 0 = s.rf Reg.SAFE_SWDSTAT 63 48 ∧ s.saf.swdAt + s.rf Reg.SAFE_SWDCFG 29 16 * 1000 ≤ s.now ∧
      s.now ≤ s.saf.swdAt + s.rf Reg.SAFE_SWDCFG 13 0 * 1000 * (if s.rb Reg.SAFE_SWDSTAT 32 then 2 else 1) ∧
      fld (0x5A3D#64) 15 0 ≠ s.rf Reg.SAFE_SWDSTAT 63 48) ∧
    (monitored [] []).saf.swdRuns = false ∧ (monitored [] []).rb Reg.SAFE_SWDCFG 63 = false ∧
    (∀ n : Nat, n = 0 ∨ n = 7 → let s := monitored [(Reg.SAFE_TWCFG 15, putFld 63 63 1 ||| 0xFFFFFF#64)] [] (fun s => { s with saf := { tw := [(15, (3, n))] } })
      s.rb (Reg.SAFE_TWCFG 15) 63 = true ∧ s.tw 15 = (3, n) ∧ (s.tw 15).1 + s.rf (Reg.SAFE_TWCFG 15) 23 0 * 1000 < 2 ^ 64 ∧ s.rb (Reg.SAFE_TWCFG 0) 63 = false) := by
  refine ⟨by decide +kernel, by decide +kernel, by decide +kernel, by decide +kernel, ?_⟩
  rintro n (rfl | rfl) <;> decide +kernel

/-! The security block: frames made of known octets, and MACs of whatever HMAC-SHA-256 gives. -/

/-- The device with its security block in this state. -/
def secured (x : SecSt) (io : List (Nat × W64) := []) (dev : DevSt := .run) : State :=
  { chip io (fun s => { s with sec := x }) with hs := { dev := dev } }

def bareFrame (typ seq : Nat) (body : List Octet) : List Octet :=
  [1#8, BitVec.ofNat 8 typ, 0#8, 0#8] ++ octetsOf 4 (n64 body.length) ++ octetsOf 8 (n64 seq) ++ body
def sealedFrame (ks : List Octet) (typ seq : Nat) (body : List Octet) : List Octet :=
  let f := bareFrame typ seq body
  f ++ (Config.hmac ks f).take 16

/-- HELLO of both methods, for roles 0, 3 and 4. -/
def helloOf (role method : Nat) : List Octet := bareFrame 1 0 (BitVec.ofNat 8 role :: BitVec.ofNat 8 method :: List.replicate (if method = 0 then 16 else 80) 0#8)

theorem witness_Sessions_hello :
    ∀ role ∈ ([0, 3, 4] : List Nat), ∀ method ∈ ([0, 1] : List Nat), let f := helloOf role method
      let s := secured { frames := [(f, true)] }
      s.railUp = true ∧ s.nextIn [] = some (f, true) ∧ (secured {} [] .recovery).nextIn f = some (f, true) ∧ State.fOk f false = true ∧ State.fType f = 1 ∧ numAt f 17 1 = method ∧
      (State.fBody f).length = (if method = 0 then 18 else 82) ∧ numAt (State.fBody f) 0 1 = role := by
  decide +kernel

/-- No session, an open one, a lockout, no credential, and both credentials. -/
theorem witness_Sessions_openings :
    (secured { sess := { phase := .opened } }).sessOpen = true ∧
    (let s := secured { nexts := [(3, 1)] }
     s.sessOpen = false ∧ s.lockedOut 3 = true ∧ s.lockedOut 0 = false ∧ s.hasCred 0 0 = false ∧ s.hasCred 0 1 = false) ∧
    (let s := secured { otp := { rkey := [(0, [1#8]), (3, [1#8])] }, pwds := [(0, { iter := 1000 }), (3, { iter := 1000 })] }
     ∀ r ∈ ([0, 3] : List Nat), ∀ m ∈ ([0, 1] : List Nat), s.sessOpen = false ∧ s.lockedOut r = false ∧ s.hasCred r m = true) := by
  decide +kernel

/-- A RESPONSE by role key with the right proof, in time and late, under a lockout and without a key. -/
theorem witness_Sessions_response (role : Nat) (h : role = 0 ∨ role = 3) :
    let x : SessSt := { phase := .challenged, role := role, method := 0, nd := [2#8], nh := [3#8] }
    let proof := Config.hmac [1#8] (ascii "KS8840-AUTH" ++ Config.devId ++ [BitVec.ofNat 8 role] ++ x.nd ++ x.nh)
    let f := bareFrame 3 0 proof
    let s := secured { frames := [(f, true)], sess := x, otp := { rkey := [(role, [1#8])] } }
    s.nextIn [] = some (f, true) ∧ State.fType f = 3 ∧ s.sec.sess.phase = .challenged ∧ s.sec.sess.method = 0 ∧ State.fOk f false = true ∧ s.roleKey role = [1#8] ∧
    s.lockedOut role = false ∧ s.now ≤ s.sec.sess.at_ + 10000000000 ∧ State.fBody f = proof ∧
    ¬ ((secured { sess := x } [(Reg.CGL_TIMENS, 10000000001#64)]).now ≤ x.at_ + 10000000000) ∧
    (secured { sess := x, nexts := [(role, 1)] }).lockedOut role = true ∧ (secured { sess := x }).roleKey role = [] := by
  rcases h with rfl | rfl <;>
    exact ⟨rfl, by decide +kernel, rfl, rfl, by decide +kernel, by decide +kernel, by decide +kernel, by decide +kernel, rfl, by decide +kernel, by decide +kernel, by decide +kernel⟩

/-- A RESPONSE by password, of 1 octet and of 64. -/
theorem witness_Sessions_password (n : Nat) (h : n = 1 ∨ n = 64) :
    let z : SessSt := { phase := .challenged, role := 2, method := 1, nd := [2#8], nh := [3#8], qh := [4#8], qd := [5#8], dpriv := [6#8] }
    let kx := Config.hmac (Config.ecdhShared z.dpriv z.qh) (ascii "KS8840-PWD" ++ z.qh ++ z.qd ++ z.nd ++ z.nh)
    let b : List Octet := List.replicate n 7#8
    let f := sealedFrame (Config.hmac kx (ascii "SESS")) 3 0 b
    let y : PwdRec := { salt := [8#8], iter := 1000, result := Config.pbkdf2 (xorOct b (Config.hmac (Config.hmac kx (ascii "ENC")) [0#8] ++ Config.hmac (Config.hmac kx (ascii "ENC")) [1#8])) [8#8] 1000 }
    let s := secured { frames := [(f, true)], sess := z, pwds := [(2, y)] }
    s.nextIn [] = some (f, true) ∧ State.fType f = 3 ∧ s.sec.sess.phase = .challenged ∧ s.sec.sess.method = 1 ∧ State.fOk f true = true ∧ State.fBody f = b ∧ b.length = n ∧
    s.lockedOut 2 = false ∧ s.pwdRec 2 = y ∧ y.iter ≠ 0 ∧ s.now ≤ z.at_ + 10000000000 ∧ State.fMac f = State.macOf (Config.hmac kx (ascii "SESS")) f := by
  rcases h with rfl | rfl <;>
    exact ⟨rfl, by decide +kernel, rfl, rfl, by decide +kernel, by decide +kernel, by decide +kernel, by decide +kernel, rfl, by decide, by decide +kernel, rfl⟩

/-- An open session's frames: the end of the session, and a command with a wrong SEQ; SCTL, SIN and SOUT. -/
theorem witness_Sessions_open :
    let f := sealedFrame [1#8] 8 1 []
    let g := sealedFrame [1#8] 6 2 [1#8]
    let x : SessSt := { phase := .opened, ks := [1#8] }
    let s := secured { frames := [(f, true)], sess := x }
    let t := secured { frames := [(g, true)], sess := x }
    s.sessOpen = true ∧ s.sec.sess.flashed = false ∧ s.nextIn [] = some (f, true) ∧ State.fOk f true = true ∧ State.fType f = 8 ∧ t.nextIn [] = some (g, true) ∧
    State.fOk g true = true ∧ State.fType g = 6 ∧ numAt g 16 1 = 0x01 ∧ State.fSeq g ≠ t.sec.sess.seqIn ∧ s.sec.sess.last + 600000000000 < 2 ^ 64 ∧
    s.reqPart .jtag = 0 ∧ bitAt (1#64 : W64) 0 = true ∧ bitAt (0#64 : W64) 0 = false ∧
    (secured {} [(Reg.CORE_CINFO 0, putFld 15 12 1 ||| putFld 11 11 1)]).reqPart (.core 0) = 1 := by
  refine ⟨by decide +kernel, rfl, rfl, by decide +kernel, by decide +kernel, rfl, by decide +kernel, by decide +kernel, by decide +kernel, three (by decide +kernel) ⟨by decide +kernel, by decide +kernel, by decide +kernel⟩⟩

/-! The commands of a session. -/

/-- A session of a role that has sent the command with this body. -/
def ordering (role code : Nat) (b : List Octet) (x : SecSt := {}) (dev : DevSt := .run) : State :=
  secured { x with frames := [(sealedFrame [1#8] 6 1 (BitVec.ofNat 8 code :: b), true)], sess := { phase := .opened, role := role, ks := [1#8] } } [] dev

theorem ordered_of {s : State} {carried : List Octet} {code : Nat} {b f : List Octet} (h1 : s.sessOpen = true) (h2 : s.nextIn carried = some (f, true))
    (h3 : (State.fOk f true && State.fType f == 6 && numAt f 16 1 == code) = true) (h4 : State.fMac f = State.macOf s.sec.sess.ks f)
    (h5 : State.fSeq f = s.sec.sess.seqIn) (h6 : (State.fBody f).drop 1 = b) : Ordered s carried code b := by
  simp only [Bool.and_eq_true, beq_iff_eq] at h3
  exact ⟨h1, f, h2, h3.1.1, h3.1.2, h3.2, h4, h5, h6⟩

theorem witness_SessionCommands_ordered :
    (Ordered (ordering 0 0x01 []) [] 0x01 [] ∧ Ordered (ordering 3 0x02 []) [] 0x02 [] ∧ Ordered (ordering 1 0x10 [0#8]) [] 0x10 [0#8] ∧
     Ordered (ordering 0 0x11 [0#8]) [] 0x11 [0#8] ∧ Ordered (ordering 0 0x12 [15#8]) [] 0x12 [15#8] ∧
     Ordered (ordering 0 0x18 [1#8] {} .recovery) (sealedFrame [1#8] 6 1 [0x18#8, 1#8]) 0x18 [1#8]) ∧
    (Ordered (ordering 0 0x20 [3#8, 0xE8#8, 3#8, 0#8, 0#8, 1#8]) [] 0x20 [3#8, 0xE8#8, 3#8, 0#8, 0#8, 1#8] ∧ Ordered (ordering 0 0x21 [3#8]) [] 0x21 [3#8] ∧
     Ordered (ordering 0 0x30 (8#8 :: List.replicate 32 1#8)) [] 0x30 (8#8 :: List.replicate 32 1#8) ∧ Ordered (ordering 0 0x31 [8#8]) [] 0x31 [8#8] ∧
     Ordered (ordering 0 0x32 []) [] 0x32 [] ∧ Ordered (ordering 2 0x38 []) [] 0x38 [] ∧ Ordered (ordering 0 0x39 []) [] 0x39 []) := by
  refine ⟨⟨?_, ?_, ?_, ?_, ?_, ?_⟩, ?_, ?_, ?_, ?_, ?_, ?_, ?_⟩ <;> exact ordered_of rfl rfl (by decide +kernel) rfl (by decide +kernel) (by decide +kernel)

/-- Who may issue each, and that role 3 may not issue JTAGOFF. -/
theorem witness_SessionCommands_may :
    (∀ e ∈ ([(0, 0x01), (3, 0x02), (1, 0x10), (0, 0x11), (0, 0x12), (0, 0x20), (0, 0x21), (0, 0x30), (0, 0x31), (0, 0x32), (2, 0x38), (0, 0x39)] : List (Nat × Nat)),
      (ordering e.1 e.2 []).mayIssue e.2) ∧ (ordering 0 0x18 [] {} .recovery).mayIssue 0x18 ∧ ¬ (ordering 3 0x39 []).mayIssue 0x39 := by
  refine ⟨?_, ?_, ?_⟩
  · intro e he
    simp only [List.mem_cons, List.not_mem_nil, or_false] at he
    rcases he with rfl | rfl | rfl | rfl | rfl | rfl | rfl | rfl | rfl | rfl | rfl | rfl <;>
      simp [State.mayIssue, ordering, secured, chip, State.inRecovery]
  · simp [State.mayIssue, ordering, secured, chip, State.inRecovery]
  · simp [State.mayIssue, ordering, secured, chip]

/-- The operands of PRESET, SETPWD, UNLOCK, OTPWRITE and REVOKE at the ends of their ranges and beyond, and an image that the loader refuses. -/
theorem witness_SessionCommands_operands :
    (let s := secured {} []
     (∃ e, s.checkTuning [0#8] = .error e) ∧ (∃ e, s.checkImage [0#8] s.preNetCode = .error e) ∧ s.otpKey 8 = [] ∧ s.otpKey 0 = [] ∧ s.sec.otp.provLock = false) ∧
    (let s : State := { secured {} with parts := [(15, { defined := true, safety := true })] }
     numAt [15#8] 0 1 = 15 ∧ (s.part 15).defined = true ∧ (s.part 15).safety = true ∧ (s.part 15).resetReq = false ∧ (s.part 15).resetting = false ∧ (s.part 1).defined = false ∧
     (s.part 1).safety = false) ∧
    (∀ c q d h, ((secured {}).core c).wait ≠ .qwait q d h) ∧
    (∀ it ∈ ([1000, 100000, 999] : List Nat), let b := 3#8 :: octetsOf 4 (n64 it) ++ [1#8]
      b.length = 6 ∧ numAt b 0 1 = 3 ∧ numAt b 1 4 = it) ∧
    (let o : OtpSt := { imgKey := [(0, [1#8]), (3, [2#8])], rkey := [(3, [1#8])] }
     let s := secured { otp := o }
     s.otpKey 0 ≠ [] ∧ s.otpKey 8 ≠ [] ∧ Tab.get o.imgRev 0 false = false ∧ Tab.get o.rkeyRev 3 false = false ∧ s.otpKey 1 = [] ∧
     (∃ j, j < 4 ∧ j ≠ 0 ∧ s.keyUsable j = true) ∧ (∀ j, j < 4 → j ≠ 0 → (secured { otp := { imgKey := [(0, [1#8])] } }).keyUsable j = false)) := by
  refine ⟨⟨⟨_, rfl⟩, ⟨_, rfl⟩, by decide +kernel, by decide +kernel, by decide +kernel⟩, by decide +kernel, fun c q d h => (fun k => nomatch k), by decide +kernel,
    by decide +kernel, by decide +kernel, three (by decide +kernel) ⟨⟨3, by decide +kernel⟩, by decide +kernel⟩⟩

/-- Provisioning in recovery mode, and what TUNING_APPLY and ANTI_ROLLBACK_ADVANCE wait for. -/
theorem witness_SessionCommands_provision :
    (∀ n : Nat, n = 31 ∨ n = 32 → let f := bareFrame 6 0 (0x3F#8 :: List.replicate n 1#8)
      State.fOk f false = true ∧ State.fType f = 6 ∧ numAt f 16 1 = 0x3F ∧ ((State.fBody f).length = 33 ↔ n = 32)) ∧
    (let s := secured {} [] .recovery
     s.railUp = true ∧ s.inRecovery = true ∧ s.sec.sess.phase = .closed ∧ Tab.get s.sec.otp.rkey 1 [] = [] ∧ s.sec.tune = [] ∧ s.sec.advance = none) ∧
    (let s := secured { otp := { rkey := [(1, [1#8])] }, tune := [(1, [])], advance := some (3, 4) } [] .recovery
     Tab.get s.sec.otp.rkey 1 [] ≠ [] ∧ s.sec.tune = (1, []) :: [] ∧ s.sec.advance = some (3, 4) ∧ (secured {}).inRecovery = false) := by
  refine ⟨?_, ?_, ?_⟩
  · rintro n (rfl | rfl) <;> decide +kernel
  · exact ⟨by decide +kernel, by decide +kernel, rfl, by decide +kernel, rfl, rfl⟩
  · exact ⟨by decide +kernel, rfl, rfl, by decide +kernel⟩

/-! Images. The signature is one that ECDSA verification accepts, which no evaluation shows: hv says so. -/

def section_ (typ : Nat) (val : List Octet) : List Octet :=
  octetsOf 2 (n64 typ) ++ [0#8, 0#8] ++ octetsOf 4 (n64 val.length) ++ val ++ List.replicate ((val.length + 7) / 8 * 8 - val.length) 0#8
/-- An image of these sections, and a signature section of zeros. -/
def imageOf (flags nsect : Nat) (base secs : List Octet) : List Octet :=
  [0x41#8, 0x56#8, 0x53#8, 0x54#8, 1#8, 0#8] ++ octetsOf 2 (n64 flags) ++ octetsOf 4 (n64 (136 + secs.length)) ++ octetsOf 2 0x8840#64 ++ [1#8, 0#8] ++
    [0#8, 0#8, 0#8, 0#8] ++ octetsOf 2 (n64 nsect) ++ List.replicate 10 0#8 ++ base ++ List.replicate 24 0#8 ++ secs ++ section_ 0xFFFF (List.replicate 64 0#8)

def fieldsOctets (l : List W64) : List Octet := l.flatMap (octetsOf 8)
def wordOctets (w : Word) : List Octet := w.tag :: octetsOf 8 w.pay

/-- A boot image: partition 0 owns core 0, whose CODE object stands at the start of segment 1. -/
def bootSections : List Octet :=
  section_ 0x10 (fieldsOctets ([0, 1, 0, 0, 0x100000, 0, 0x100, putFld 55 42 3 ||| putFld 27 14 2 ||| putFld 41 28 1] ++ List.replicate 16 0)) ++
  section_ 0x20 (fieldsOctets [putFld 24 12 4 ||| putFld 11 6 32, putFld 15 0 1 ||| putFld 31 16 1 ||| putFld 47 32 1, ptrPay 1 0, 0,
    0x1000, 0x1000, 1, putFld 63 63 1 ||| putFld 62 60 1 ||| putFld 59 54 5 ||| 0x1000, 0x1000, putFld 63 56 0x20 ||| putFld 55 32 1]) ++
  section_ 0xA0 (fieldsOctets [putFld 15 4 1, 0, 1] ++ wordOctets ⟨Tag.hdr, putFld 63 56 0x0E⟩)
def bootImg : List Octet := imageOf 0 3 (List.replicate 8 0#8) bootSections
def tuneImg : List Octet := imageOf 1 0 [1#8, 2#8, 3#8, 4#8, 5#8, 6#8, 7#8, 8#8] []

/-- A device whose IMGKEY0 is written, and whose booted image has this digest. -/
def keyed (dev : DevSt) : State := secured { otp := { imgKey := [(0, [1#8])] }, digest := [1#8, 2#8, 3#8, 4#8, 5#8, 6#8, 7#8, 8#8, 9#8] } [] dev

theorem ok_of {α : Type} {r : Except LErr α} {p : α → Bool} (h : (match r with | .ok g => p g | .error _ => false) = true) : ∃ g, r = .ok g ∧ p g = true := by
  cases r with
  | ok g => exact ⟨g, rfl, h⟩
  | error e => cases h

theorem front_ok {s : State} {o : List Octet} {t : Bool} (h1 : Image.checkHeader o t = .ok ()) (h2 : decide (o.length < Image.hTotal o) = false)
    (h3 : s.keyUsable (Image.hKey o) = true) (h4 : Image.signed (o.take (Image.hTotal o)) (Tab.get s.sec.otp.imgKey (Image.hKey o) []) = true)
    (h5 : decide (Image.hSvn o < s.sec.otp.imgSvn) = false) : s.checkFront o t = .ok () := by
  simp only [decide_eq_false_iff_not] at h2 h5
  simp only [State.checkFront, h1, h2, h3, h4, h5]
  rfl

theorem signed_of (hv : ∀ k d g, Config.ecdsaVerify k d g = true) {o : List Octet} (k : List Octet)
    (h : (numAt o (Image.hTotal o - 72) 2 == Image.tSIGN && numAt o (Image.hTotal o - 72 + 4) 4 == 64) = true) : Image.signed o k = true := by
  simp only [Bool.and_eq_true] at h
  simp only [Image.signed, hv, Bool.and_true, Bool.and_eq_true]
  exact h

theorem boot_front (hv : ∀ k d g, Config.ecdsaVerify k d g = true) (dev : DevSt) : (keyed dev).checkFront bootImg false = .ok () :=
  front_ok (by decide +kernel) (by decide +kernel) (by cases dev <;> decide +kernel) (signed_of hv _ (by decide +kernel)) (by cases dev <;> decide +kernel)

theorem boot_check (dev : DevSt) : ∃ g, Image.checkBoot bootImg (keyed dev).preNetCode = .ok g ∧ g.ucode.isNone = true :=
  ok_of (p := fun (g : Image.Parsed) => g.ucode.isNone) (by cases dev <;> decide +kernel)

/-- COLD_BOOT, VERIFY and FLASH: an image that the checks accept. -/
theorem witness_accepted_image (hv : ∀ k d g, Config.ecdsaVerify k d g = true) (dev : DevSt) :
    ∃ g, (keyed dev).checkImage bootImg (keyed dev).preNetCode = .ok g ∧ ∀ slot, (keyed dev).slotCheck slot (.gives bootImg) true = .ok (bootImg, g) := by
  obtain ⟨g, hg, hu⟩ := boot_check dev
  have hc : (keyed dev).checkImage bootImg (keyed dev).preNetCode = .ok g := by
    have hu : g.ucode = none := by simpa using hu
    simp only [State.checkImage, boot_front hv dev, hg, bind, Except.bind, hu]
    rfl
  refine ⟨g, hc, fun slot => ?_⟩
  simp only [State.slotCheck, State.slotOctets, boot_front hv dev, hc]
  rfl

/-- TUNE: a tuning image that the checks accept. -/
theorem witness_accepted_tuning (hv : ∀ k d g, Config.ecdsaVerify k d g = true) : (keyed .run).checkTuning tuneImg = .ok [] := by
  have hf : (keyed .run).checkFront tuneImg true = .ok () :=
    front_ok (by decide +kernel) (by decide +kernel) (by decide +kernel) (signed_of hv _ (by decide +kernel)) (by decide +kernel)
  have h1 : (!(keyed .run).sec.tune.isEmpty || (keyed .run).parts.any (fun e => e.2.resetReq || e.2.resetting)) = false := by decide +kernel
  have h2 : (Image.hBase tuneImg != (keyed .run).sec.digest.take 8) = false := by decide +kernel
  have h3 : Image.sections tuneImg = .ok [] := by
    obtain ⟨l, h, e⟩ := ok_of (r := Image.sections tuneImg) (p := fun l => l.isEmpty) (by decide +kernel)
    rw [h, List.isEmpty_iff.mp e]
  simp only [State.checkTuning, h1, hf, h2, h3]
  rfl

/-! JTAG and trace. -/

theorem witness_DebugPort :
    (device .unpowered []).powered = false ∧ (device .cold []).powered = true ∧ (device .cold []).jtagRights = false ∧ (device .run []).powered = true ∧
    (device .run []).jtagRights = true ∧ (device .run []).jtagHolds = false ∧ (device .run [] (fun h => { h with jtag := .clamp })).jtagHolds = true ∧
    (device .run [] (fun h => { h with jtag := .clamp })).jtagRights = true := by
  decide +kernel

/-- Debug accesses: a refused address, a register of SYS, memory at both ends of an implemented region, and a hole. -/
theorem witness_DebugPort_access :
    (let s := device .run [(Reg.SAFE_SLOCK, 1#64), (Reg.MEMC_MCFG 0, 1#64)]
     State.jtagRefused s Reg.SAFE_SLOCK = true ∧ State.jtagRefused s Reg.SYS_IDREV = false ∧ State.jtagRefused s 0x1000 = false ∧ isIo 0x1000 = false ∧
     s.implemented 0x1000 = true ∧ (s.peekWord 0x1000).2 = .ok) ∧
    (∃ x j off, findBlk Reg.SYS_IDREV = some (.bSYS, 0, off) ∧ findReg Blk.bSYS.regs off = some (x, j)) ∧
    (isIo 0x1000 = true → findBlk 0x1000 = none) ∧ (isIo 0x1000 = false → (device .run []).implemented 0x1000 = false) ∧
    (fixN 0).tag = Tag.fix := by
  refine ⟨by decide +kernel, ?_, by decide +kernel, by decide +kernel, by decide +kernel⟩
  · cases h : findBlk Reg.SYS_IDREV with
    | none => exact absurd h (by decide +kernel)
    | some v => exact ⟨_, _, _, by rw [← h]; rfl, rfl⟩

/-- Trace: control with and without ON by partition 0, another partition, a mark that is traced at both ends of the buffer and one that is not. -/
theorem witness_DebugPort_trace (n : Nat) (h : n = 0 ∨ n = 16383) :
    let s := device .run [(Reg.DMPR_DSTAT 4, -1#64), (Reg.TRC_TRCCTL, putFld 31 26 63 ||| putFld 23 23 1 ||| 1#64), (Reg.TRC_TRCSTAT, putFld 45 32 n), (Reg.CORE_CINFO 0, putFld 15 12 1 ||| putFld 11 11 1)]
    s.railUp = true ∧ s.domOn 272 = true ∧ s.traced 63 7 = true ∧ s.traced 0 7 = false ∧ s.rf Reg.TRC_TRCSTAT 45 32 = n ∧ s.reqPart .jtag = 0 ∧ s.reqPart (.core 0) = 1 := by
  rcases h with rfl | rfl <;> decide +kernel

/-! The rail down, and the queue. -/

theorem witness_RailDown : Quiet State.reset ∧ Quiet (State.reset.withPending [.rcCheck true]) ∧ ¬ Hearthly (.rcCheck true) := by
  refine ⟨⟨by decide +kernel, fun c h => (nomatch h), by decide +kernel, fun i h => (nomatch h)⟩,
    ⟨by decide +kernel, fun c h => (nomatch h), by decide +kernel, fun i h => ?_⟩, ?_⟩
  · cases h with
    | head => exact ⟨fun _ _ _ k => (nomatch k), fun _ _ k => (nomatch k), fun _ k => (nomatch k)⟩
    | tail _ h => exact nomatch h
  · simp [Hearthly]

/-- An empty queue, and a queue of one. -/
theorem witness_StepRunsFront : State.reset.pending = [] ∧ (State.reset.withPending [.rcCheck true]).pending = [.rcCheck true] := ⟨rfl, rfl⟩

/-! What WellFormed refuses: levels 0 and 6, level 1, an address outside I/O space, registers that are not those of the request, a frame with no
message and one of 257 octets or more, and boundary cells out of order. -/

theorem test_wf_level : Instr.wellFormed (.levelEventEntry 0 0) = false ∧ Instr.wellFormed (.levelEventEntry 0 6) = false ∧ Instr.wellFormed (.levelEventEntry 0 7) = true := by decide
theorem test_wf_claim : Instr.wellFormed (.claimRead .jtag 0 1 false) = false ∧ Instr.wellFormed (.claimRead .jtag 0 2 false) = true := by decide
theorem test_wf_register : Instr.wellFormed (.registerWrite .jtag 0xFEFFFFFFFF#40 0#64) = false ∧ Instr.wellFormed (.registerWrite .jtag 0xFF00000000#40 0#64) = true := by decide
theorem test_wf_scratchpad : Instr.wellFormed (.scratchpadRequest .jtag 0xFF00210001#40 0#64) = false ∧ Instr.wellFormed (.scratchpadRequest .jtag 0xFF00217000#40 0#64) = true := by decide
theorem test_wf_way : Instr.wellFormed (.wayPowerRequest .jtag 0xFF00218000#40 0#64) = false ∧ Instr.wellFormed (.wayPowerRequest .jtag 0xFF0031F000#40 0#64) = true := by decide
def msgOf (n : Nat) : CMsg :=
  { kind := .push, dst := 0, src := 0, hops := 0, hidx := 0, txid := 0, txgen := 0, route := 0, body := List.replicate n Word.void }
theorem test_wf_frame : Instr.wellFormed (.dataFrameReceive 0 true 0 0 []) = false ∧ Instr.wellFormed (.dataFrameReceive 0 true 0 0 [msgOf 27]) = false ∧
    Instr.wellFormed (.dataFrameReceive 0 true 0 0 [msgOf 26]) = true := by decide
theorem test_wf_cells : Instr.wellFormed (.jtagSamplePreload [(2, true), (1, false)]) = false ∧ Instr.wellFormed (.jtagSamplePreload [(1, true), (2, false)]) = true := by decide

/-! Single steps. Expected results are worked by hand from the rule named. -/

/-- Register r of core 0 after the command. -/
def regAfter (i : Instr) (s : State) (r : Nat) : Option Word :=
  match exec i s with
  | .next t => some (t.reg 0 r)
  | _ => none
def ints (a b : Int) : State := rigOf false [(0, fixI a), (1, fixI b)] []

/-- R114: floor division of −7 by 2 is −4, truncation −3, and the remainder 1. -/
theorem test_div : regAfter (.div 0 18 16 17) (ints (-7) 2) 18 = some (fixI (-4)) := by decide +kernel
theorem test_quo : regAfter (.quo 0 18 16 17) (ints (-7) 2) 18 = some (fixI (-3)) := by decide +kernel
theorem test_mod : regAfter (.mod 0 18 16 17) (ints (-7) 2) 18 = some (fixI 1) := by decide +kernel
/-- R109: the destination is also a source. -/
theorem test_sub_same : regAfter (.sub 0 16 17 16) (ints 3 10) 16 = some (fixI 7) := by decide +kernel
/-- Table 5-4: raw division truncates and its remainder has the sign of a; a sum wraps; a count of 64 shifts everything out. -/
theorem test_modw : (regAfter (.modw 0 18 16 17) (ints (-7) 2) 18).map (·.pay) = some (-1#64) := by decide +kernel
theorem test_addw_wraps : (regAfter (.addw 0 18 16 17) (ints (-1) 2) 18).map (·.pay) = some 1#64 := by decide +kernel
theorem test_shlw_64 : (regAfter (.shlw 0 18 16 17) (ints (-1) 64) 18).map (·.pay) = some 0#64 := by decide +kernel
/-- R33: words of equal payload and unlike tags are not identical. -/
theorem test_eq_tag : regAfter (.eq 0 18 16 17) (rigOf false [(0, fixN 5), (1, ⟨Tag.raww, 5#64⟩)] []) 18 = some falseW := by decide +kernel


/-! Words of the spec's worked examples, which decode to the instruction they stand for. -/

/-- WSUM l2, l0, l1, the custom instruction of slot 5 (spec 08, example after Table 8-8). -/
theorem test_decode_custom : decodeInstr 9 0x6ACA1100#32 = some (.customInstruction 9 5 18 16 17 0#8) := by decide +kernel
/-- REP.I g4 and MOVS l1, l0, sg2, sg3 (spec 04, R106). -/
theorem test_decode_rep : decodeInstr 0 0x50008000#32 = some (.repI 0 (.reg 4)) := by decide +kernel
theorem test_decode_movs : decodeInstr 0 0x30460460#32 = some (.movs 0 17 16 2 3) := by decide +kernel
/-- ADD.S o0, i0 with MOVI.S o1, #3 (spec 04, R98); the same word with bit 0 set; and the all-zero word. -/
theorem test_decode_pair : decodeInstr 0 0x89185246#32 = some (.pairWord 0 ⟨2#5, 8, 24#5⟩ ⟨10#5, 9, 3#5⟩) ∧ decodeInstr 0 0x89185247#32 = none ∧ decodeInstr 0 0#32 = none := by
  decide +kernel
/-- The RD of the worked example of spec 13: H0 and H1. -/
theorem test_header :
    let m : CMsg := { kind := .rd, dst := 0x011, src := 0x012, hops := 1, hidx := 0, txid := 7, txgen := 2, route := 1, body := [⟨Tag.rem, 0x0110004000123000#64⟩, fixN 1] }
    m.h0 = 0x0001101208080007#64 ∧ m.h1 = 0x0002000000000001#64 := by decide +kernel

end Sys2Proof.Machine
end

section
/-!
SUPPORT. Order and identity of words (spec 02 R33, spec 05 R108, R121, R122): the order of two integers as CMP codes it, the generic comparisons
on FIX words through it, and the identity of two words.
-/
namespace Sys2Proof.Machine

open Sys2Proof

/-! The order of integers. -/

/-- The order of two integers as CMP codes it (R121). -/
def intOrder (p q : Int) : Int := if p < q then -1 else if p = q then 0 else 1

@[simp] theorem intOrder_eq_neg_one_iff (p q : Int) : intOrder p q = -1 ↔ p < q := by
  unfold intOrder; split_ifs <;> simp <;> omega

@[simp] theorem intOrder_eq_zero_iff (p q : Int) : intOrder p q = 0 ↔ p = q := by
  unfold intOrder; split_ifs <;> simp <;> omega

@[simp] theorem intOrder_neg_iff (p q : Int) : intOrder p q < 0 ↔ p < q := by
  unfold intOrder; split_ifs <;> simp <;> omega

/-- Two integers are never unordered, which CMP codes as 2 (R121). -/
theorem intOrder_ne_two (p q : Int) : intOrder p q ≠ 2 := by
  unfold intOrder; split_ifs <;> omega

theorem Arith.cmp_int (x y : Int) : Arith.cmp (.int x) (.int y) = .ok (intOrder x y) := by
  simp [Arith.cmp, Arith.cmpVal, Num.isNaN, Num.toQ, Q.cmp, Q.ofInt, intOrder]

/-- MIN and MAX pick the first of two equal integers (R122). -/
theorem Arith.minMax_int (isMax : Bool) (x y : Int) :
    Arith.minMax isMax (.int x) (.int y) = .ok (if (if isMax then y ≤ x else x ≤ y) then .a else .b) := by
  simp only [Arith.minMax, Arith.cmp_int, intOrder_eq_zero_iff, intOrder_neg_iff]
  rcases lt_trichotomy x y with h | h | h
  · cases isMax <;> simp [h, h.ne, h.le, h.not_ge]
  · cases isMax <;> simp [h]
  · cases isMax <;> simp [h.ne', h.le, h.not_gt, h.not_ge]

/-! The generic comparisons on FIX words. -/

section
variable (x : Ctx) (s : State) {a b : Word} (ha : a.tag = Tag.fix) (hb : b.tag = Tag.fix)
include ha hb

/-- The comparison of FIX words is the order of their values, and sets no NV. -/
theorem genCompare_fix (quietOk : Bool) :
    (genCompare x a b quietOk).run s = (.ok (intOrder a.pay.toInt b.pay.toInt, 0#5), s) := by
  have hnv : ffNv (if quietOk then Num.isSNaN (.int a.pay.toInt) || Num.isSNaN (.int b.pay.toInt)
      else intOrder a.pay.toInt b.pay.toInt == 2) = 0#5 := by
    simp [ffNv, Num.isSNaN, intOrder_ne_two]
  unfold genCompare
  simp only [MM.run_bind, num2_fix x s a b (numericTag · true) ha hb rfl, Arith.cmp_int, MM.run_pure, hnv]

theorem genCmp_fix : (genCmp x a b).run s = (.ok { word := fixI (intOrder a.pay.toInt b.pay.toInt) }, s) := by
  simp [genCmp, genCompare_fix x s ha hb]

theorem genLt_fix : (genLt x a b).run s = (.ok { word := boolW (decide (a.pay.toInt < b.pay.toInt)) }, s) := by
  simp [genLt, genCompare_fix x s ha hb, beq_eq_decide]

theorem genLe_fix : (genLe x a b).run s = (.ok { word := boolW (decide (a.pay.toInt ≤ b.pay.toInt)) }, s) := by
  simp [genLe, genCompare_fix x s ha hb, beq_eq_decide, ← Bool.decide_or, le_iff_lt_or_eq]

theorem genNumeq_fix : (genNumeq x a b).run s = (.ok { word := boolW (decide (a.pay.toInt = b.pay.toInt)) }, s) := by
  simp [genNumeq, genCompare_fix x s ha hb, beq_eq_decide]

/-- MIN and MAX of FIX words answer the source picked, tag and payload (R122). -/
theorem genMinMax_fix (isMax : Bool) :
    (genMinMax x isMax a b).run s =
      (.ok { word := if (if isMax then b.pay.toInt ≤ a.pay.toInt else a.pay.toInt ≤ b.pay.toInt) then a else b }, s) := by
  unfold genMinMax
  simp only [MM.run_bind, num2_fix x s a b (numericTag · true) ha hb rfl, Arith.minMax_int]
  split_ifs <;> rfl

end

/-! Generic instructions on FIX words, run by a core at ease. -/

section
variable {s : State} {c : CoreId} {d a : RegN} {op : Nat} {i : Instr} {g : MM GRes} {w : Word} (h : AtEase s c.val)
  (ha : (s.reg c.val a.val).tag = Tag.fix) (hw : g.run s = (.ok { word := w }, s))
include h ha hw

/-- A generic instruction on two registers gives the word its operation answers. -/
theorem gives_of_genBin {b : RegN} (hb : (s.reg c.val b.val).tag = Tag.fix) (hi : exec i s = .next (runBin op c d a b s))
    (hg : genOp (s.coreCtx c.val) c.val op (s.reg c.val a.val) (s.reg c.val b.val) = some g) : Gives s i c d w :=
  gives_of_run h hi rfl rfl rfl (.inl rfl) (genBin_run ha hb hg hw)

/-- A generic immediate form gives the word its operation answers for the FIX word of the immediate (R108). -/
theorem gives_of_genImm {base : Nat} {imm : BitVec 13} (hi : exec i s = .next (runImm op base c d a imm s))
    (hg : genOp (s.coreCtx c.val) c.val base (s.reg c.val a.val) (immFix imm) = some g) : Gives s i c d w :=
  gives_of_run h hi rfl rfl rfl (.inl rfl) (genImm_run ha hg hw)

end

@[simp] theorem immFix_tag {n : Nat} (imm : BitVec n) : (immFix imm).tag = Tag.fix := rfl
@[simp] theorem immFix_pay {n : Nat} (imm : BitVec n) : (immFix imm).pay = imm.signExtend 64 := rfl

/-- The FIX operand of an immediate form has the immediate's value (R108). -/
theorem immFix_toInt (imm : BitVec 13) : (immFix imm).pay.toInt = imm.toInt := by
  rw [immFix_pay, BitVec.toInt_signExtend_of_le (by decide)]

/-! Identity. -/

/-- Two words are identical when their tags and their payloads are equal (R33). -/
theorem word_beq (v w : Word) : (v == w) = decide (v.tag = w.tag ∧ v.pay = w.pay) := by
  obtain ⟨t, p⟩ := v
  obtain ⟨u, q⟩ := w
  simp [beq_eq_decide]

/-- EQ and EQI commit the identity of register a and the second operand. -/
theorem eqOp_run (s : State) (c d a : Nat) (w : Word) :
    (eqOp c d a w).run s = (.ok (Eff.one d (boolW (decide ((s.reg c a).tag = w.tag ∧ (s.reg c a).pay = w.pay)))), s) := by
  simp [eqOp, word_beq]

/-! The comparing instructions. -/

section
variable {s : State} {c : CoreId} {d a b : RegN} {imm : BitVec 13}

/-- The six register forms that compare two FIX words (R121, R122). -/
theorem gives_compare_registers (h : AtEase s c.val) (ha : (s.reg c.val a.val).tag = Tag.fix) (hb : (s.reg c.val b.val).tag = Tag.fix) :
    let va := s.reg c.val a.val
    let vb := s.reg c.val b.val
    let x := va.pay.toInt
    let y := vb.pay.toInt
    Gives s (.cmp c d a b) c d (fixI (intOrder x y)) ∧ Gives s (.lt c d a b) c d (boolW (decide (x < y))) ∧
      Gives s (.le c d a b) c d (boolW (decide (x ≤ y))) ∧ Gives s (.numeq c d a b) c d (boolW (decide (x = y))) ∧
      Gives s (.min c d a b) c d (if x ≤ y then va else vb) ∧ Gives s (.max c d a b) c d (if y ≤ x then va else vb) :=
  ⟨gives_of_genBin h ha (genCmp_fix _ s ha hb) hb rfl rfl, gives_of_genBin h ha (genLt_fix _ s ha hb) hb rfl rfl,
   gives_of_genBin h ha (genLe_fix _ s ha hb) hb rfl rfl, gives_of_genBin h ha (genNumeq_fix _ s ha hb) hb rfl rfl,
   gives_of_genBin h ha (genMinMax_fix _ s ha hb false) hb rfl rfl, gives_of_genBin h ha (genMinMax_fix _ s ha hb true) hb rfl rfl⟩

/-- The three immediate forms that compare a FIX word with the immediate (R108, R121). -/
theorem gives_compare_immediates (h : AtEase s c.val) (ha : (s.reg c.val a.val).tag = Tag.fix) :
    let x := (s.reg c.val a.val).pay.toInt
    Gives s (.cmpi c d a imm) c d (fixI (intOrder x imm.toInt)) ∧ Gives s (.lti c d a imm) c d (boolW (decide (x < imm.toInt))) ∧
      Gives s (.lei c d a imm) c d (boolW (decide (x ≤ imm.toInt))) := by
  have hb := immFix_tag imm
  rw [← immFix_toInt imm]
  exact ⟨gives_of_genImm h ha (genCmp_fix _ s ha hb) rfl rfl, gives_of_genImm h ha (genLt_fix _ s ha hb) rfl rfl,
    gives_of_genImm h ha (genLe_fix _ s ha hb) rfl rfl⟩

theorem gives_eq (h : AtEase s c.val) :
    let va := s.reg c.val a.val
    let vb := s.reg c.val b.val
    Gives s (.eq c d a b) c d (boolW (decide (va.tag = vb.tag ∧ va.pay = vb.pay))) :=
  gives_of_run h rfl rfl rfl rfl (.inl rfl) (run_finish_one _ _ _ _ _ (by simp only [MM.run_bind, run_rd, eqOp_run]))

theorem gives_eqi (h : AtEase s c.val) :
    let va := s.reg c.val a.val
    Gives s (.eqi c d a imm) c d (boolW (decide (va.tag = Tag.fix ∧ va.pay = imm.signExtend 64))) :=
  gives_of_run h rfl rfl rfl rfl (.inl rfl) (run_finish_one _ _ _ _ _ (eqOp_run s c.val d.val a.val (immFix imm)))

end

/-- Settles O4: the generic comparisons of FIX words go through the order of their values, and EQ and EQI through the equality of whole words. -/
theorem orderAndIdentity : Obligations.OrderAndIdentity := by
  unfold Obligations.OrderAndIdentity
  intro s c d a b imm h
  exact ⟨gives_compare_registers h, gives_compare_immediates h, gives_eq h, gives_eqi h⟩

end Sys2Proof.Machine
end

section
/-!
SUPPORT. Register accesses (spec 01 R21–R25, spec 03 R80, spec 20 R489, R492): where the register map puts an address, how an access is routed to
its block, and what the accesses of SYS, DCINV, DBGCTL and RDAT do.
-/
namespace Sys2Proof.Machine

open Sys2Proof

/-! The register map. -/

/-- The address lies in a block: its copies fill the addresses from its base on (Table 1-7). -/
def Blk.inRange (b : Blk) (pa : Nat) : Prop := b.geom.1 ≤ pa ∧ pa < b.geom.1 + b.geom.2.1 * b.geom.2.2

theorem Blk.mem_all (b : Blk) : b ∈ Blk.all := by cases b <;> decide

/-- Of two blocks of Table 1-7 one ends before the other begins. -/
theorem Blk.disjoint : ∀ b ∈ Blk.all, ∀ c ∈ Blk.all, b ≠ c →
    b.geom.1 + b.geom.2.1 * b.geom.2.2 ≤ c.geom.1 ∨ c.geom.1 + c.geom.2.1 * c.geom.2.2 ≤ b.geom.1 := by
  decide

theorem Blk.eq_of_inRange {b c : Blk} {pa : Nat} (hb : b.inRange pa) (hc : c.inRange pa) : b = c := by
  by_contra hne
  have := Blk.disjoint b b.mem_all c c.mem_all hne
  unfold Blk.inRange at hb hc
  omega

/-- An address inside a block is found there (R21, R22). -/
theorem findBlk_of_inRange {b : Blk} {pa : Nat} (h : b.inRange pa) :
    findBlk pa = some (b, (pa - b.geom.1) / b.geom.2.2, (pa - b.geom.1) % b.geom.2.2) := by
  have hfind : Blk.all.find? (fun c => decide (c.geom.1 ≤ pa) && decide (pa < c.geom.1 + c.geom.2.1 * c.geom.2.2)) = some b := by
    cases hf : Blk.all.find? (fun c => decide (c.geom.1 ≤ pa) && decide (pa < c.geom.1 + c.geom.2.1 * c.geom.2.2)) with
    | none =>
      have := List.find?_eq_none.mp hf b b.mem_all
      simp [h.1, h.2] at this
    | some c =>
      have hc := List.find?_some hf
      simp only [Bool.and_eq_true, decide_eq_true_eq] at hc
      rw [Blk.eq_of_inRange hc h]
  unfold findBlk
  rw [hfind]

/-- Offset off of copy i of a block is found as such. -/
theorem findBlk_at (b : Blk) {i off : Nat} (hi : i < b.geom.2.1) (ho : off < b.geom.2.2) :
    findBlk (b.geom.1 + (off + b.geom.2.2 * i)) = some (b, i, off) := by
  have hlast : b.geom.2.2 * (i + 1) ≤ b.geom.2.1 * b.geom.2.2 := by
    rw [Nat.mul_comm b.geom.2.1]
    exact Nat.mul_le_mul_left _ hi
  have hin : b.inRange (b.geom.1 + (off + b.geom.2.2 * i)) := by
    rw [Nat.mul_add, Nat.mul_one] at hlast
    constructor <;> omega
  rw [findBlk_of_inRange hin, Nat.add_sub_cancel_left, Nat.add_mul_div_left _ _ (by omega), Nat.add_mul_mod_self_left,
    Nat.div_eq_of_lt ho, Nat.mod_eq_of_lt ho, Nat.zero_add]

theorem findBlk_dcinv (c : CoreId) : findBlk (Reg.CORE_DCINV c) = some (.bCORE, c.val, 1) := by
  rw [← findBlk_at .bCORE (i := c.val) (off := 1) c.isLt (by decide)]
  congr 1
  simp only [Reg.CORE_DCINV, Blk.geom]
  omega

theorem findBlk_dbgctl (c : CoreId) : findBlk (Reg.DBG_DBGCTL c) = some (.bDBG, c.val, 0) := by
  rw [← findBlk_at .bDBG (i := c.val) (off := 0) c.isLt (by decide)]
  congr 1
  simp only [Reg.DBG_DBGCTL, Blk.geom]
  omega

theorem findBlk_rdat (c : CoreId) : findBlk (Reg.DBG_RDAT c) = some (.bDBG, c.val, 4) := by
  rw [← findBlk_at .bDBG (i := c.val) (off := 4) c.isLt (by decide)]
  congr 1
  simp only [Reg.DBG_RDAT, Blk.geom]
  omega

theorem dbgctl_ne_dbgstat (c : Nat) : Reg.DBG_DBGCTL c ≠ Reg.DBG_DBGSTAT c := by
  unfold Reg.DBG_DBGCTL Reg.DBG_DBGSTAT
  omega

/-! Bits of a register. -/

/-- Setting bit 0 sets it. -/
theorem bitAt_setBit_zero (x : W64) : bitAt (setBit x 0 true) 0 = true := by
  simp [bitAt, setBit, setFld]

/-- OFFADDR holds the whole 40-bit address. -/
theorem putFld_address (pa : BitVec 40) : putFld 39 0 pa.toNat = pa.setWidth 64 := by
  apply BitVec.eq_of_toNat_eq
  have := pa.isLt
  simp [putFld, setFld, Nat.mod_eq_of_lt this]

section
variable (s : State)

/-! Who may write a register of a core. -/

theorem State.dbgMayWrite_iff (q c : Nat) :
    s.dbgMayWrite q c = true ↔ q = 0 ∨ (s.coreOwned c = true ∧ q = s.corePart c) := by
  simp [State.dbgMayWrite, eq_comm (a := q)]

/-! Routing. -/

/-- An address in no block takes no write (R21). -/
theorem State.ioWrite_hole {pa : Nat} (r : Req) (v : W64) (h : findBlk pa = none) : s.ioWrite r pa v = s := by
  simp [State.ioWrite, State.ioWriteN, h]

/-- A write to a block that is off is only recorded (R25). -/
theorem State.ioWrite_off {pa i off : Nat} {b : Blk} (r : Req) (v : W64) (h : findBlk pa = some (b, i, off))
    (hoff : s.offAccess b i = true) : s.ioWrite r pa v = s.recordOff pa := by
  simp [State.ioWrite, State.ioWriteN, h, hoff]

/-- A write to a register of a block that is on goes to that block. -/
theorem State.ioWrite_reg {pa i off k : Nat} {b : Blk} {x : RegSpec} (r : Req) (v : W64) (h : findBlk pa = some (b, i, off))
    (hon : s.offAccess b i = false) (hx : findReg b.regs off = some (x, k)) : s.ioWrite r pa v = s.blkWrite r pa v 8 b i x k := by
  simp [State.ioWrite, State.ioWriteN, h, hon, hx]

/-- SYS lies in the uncore, which no domain switches off. -/
theorem State.offAccess_sys (i : Nat) : s.offAccess .bSYS i = false := rfl

theorem State.offAccess_core (i : Nat) : s.offAccess .bCORE i = s.isChecker i := by
  simp [State.offAccess, State.blkDomain]

theorem State.offAccess_dbg (i : Nat) : s.offAccess .bDBG i = s.isChecker i := by
  simp [State.offAccess, State.blkDomain]

theorem State.ioWrite_dcinv {c : CoreId} (r : Req) (v : W64) (hc : s.isChecker c.val = false) :
    s.ioWrite r (Reg.CORE_DCINV c) v =
      if bitAt v 0 && s.dbgMayWrite (s.reqPart r) c.val then s.modCore c.val (fun x => { x with dcache := [] }) else s :=
  s.ioWrite_reg r v (findBlk_dcinv c) ((s.offAccess_core _).trans hc) rfl

theorem State.ioWrite_dbgctl {c : CoreId} (r : Req) (v : W64) (hc : s.isChecker c.val = false) :
    s.ioWrite r (Reg.DBG_DBGCTL c) v = s.dbgctlWrite (s.reqPart r) c.val v :=
  s.ioWrite_reg r v (findBlk_dbgctl c) ((s.offAccess_dbg _).trans hc) rfl

theorem State.ioRead_rdat {c : CoreId} (r : Req) (hc : s.isChecker c.val = false) :
    s.ioRead r (Reg.DBG_RDAT c) false = s.rdatRead (s.reqPart r) c.val := by
  have hr : findReg Blk.bDBG.regs 4 = some (⟨0x0004, 1, 1, 0x0, 0x0, 0x0, 0x0, 0x0⟩, 0) := rfl
  simp only [State.ioRead, State.ioReadN, findBlk_rdat, s.offAccess_dbg, hc, hr]
  rfl

/-! Off-domain accesses. -/

theorem State.recordOff_only (pa : Nat) :
    OnlyRegs (fun a => a = Reg.SYS_STAT ∨ a = Reg.SYS_OFFADDR) s (s.recordOff pa) := by
  unfold State.recordOff
  split
  · exact OnlyRegs.refl s _
  · exact (OnlyRegs.ioW s _ _ (.inr rfl)).trans (OnlyRegs.wf _ _ _ _ _ (.inl rfl))

/-- While STAT 0 stands, the first record is kept. -/
theorem State.recordOff_kept {pa : Nat} (h : s.rb Reg.SYS_STAT 0 = true) : s.recordOff pa = s := if_pos h

theorem State.recordOff_offaddr {pa : BitVec 40} (h : s.rb Reg.SYS_STAT 0 = false) :
    (s.recordOff pa.toNat).ioR Reg.SYS_OFFADDR = pa.setWidth 64 := by
  simp only [State.recordOff, h, Bool.false_eq_true, if_false, State.setB, State.wf]
  rw [State.ioR_ioW_ne _ _ _ _ (by decide), State.ioR_ioW, putFld_address]

theorem State.recordOff_stat {pa : Nat} (h : s.rb Reg.SYS_STAT 0 = false) :
    (s.recordOff pa).ioR Reg.SYS_STAT = setBit (s.ioR Reg.SYS_STAT) 0 true := by
  simp only [State.recordOff, h, Bool.false_eq_true, if_false, State.setB, State.wf]
  rw [State.ioR_ioW, State.ioR_ioW_ne _ _ _ _ (by decide)]
  rfl

/-- After an off-domain access STAT 0 stands. -/
theorem State.recordOff_set (pa : Nat) : (s.recordOff pa).rb Reg.SYS_STAT 0 = true := by
  cases h : s.rb Reg.SYS_STAT 0 with
  | true => rw [s.recordOff_kept h, h]
  | false => rw [State.rb, s.recordOff_stat h, bitAt_setBit_zero]

/-! Writes by access code (R7). -/

theorem State.ioR_genPut (pa : Nat) (x : RegSpec) (v : W64) :
    (s.genPut pa x v).ioR pa = ((s.ioR pa &&& ~~~x.rw) ||| (v &&& x.rw)) &&& ~~~(v &&& x.w1c) := by
  simp [State.genPut, State.rwPut, State.w1cPut]

theorem State.genPut_only (pa : Nat) (x : RegSpec) (v : W64) : OnlyRegs (· = pa) s (s.genPut pa x v) :=
  (OnlyRegs.ioW (P := (· = pa)) s pa _ rfl).trans (OnlyRegs.ioW _ pa _ rfl)

/-! HALT (R489, R490). -/

/-- A write of DBGCTL by one who may, with HALT: refused where debugging may not be armed, else it replaces the kept fields and raises the halt
request. -/
theorem State.dbgctlWrite_halt {q c : Nat} {v : W64} (hq : s.dbgMayWrite q c = true) (hv : bitAt v 1 = true) :
    s.dbgctlWrite q c v =
      if s.debugOk c then (s.ioW (Reg.DBG_DBGCTL c) (v &&& (fmask 4 3 ||| fmask 0 0))).setB (Reg.DBG_DBGSTAT c) 1 else s.dbgRefuse c := by
  unfold State.dbgctlWrite
  cases hd : s.debugOk c <;> simp [hq, hv]

/-- HALT is no kept field of DBGCTL: the command leaves the other fields (log entry 64). -/
theorem halt_masked (x : W64) : (x ||| 2#64) &&& (fmask 4 3 ||| fmask 0 0) = x &&& (fmask 4 3 ||| fmask 0 0) := by
  have h : 2#64 &&& (fmask 4 3 ||| fmask 0 0) = 0#64 := by decide
  rw [BitVec.and_or_distrib_right, h, BitVec.or_zero]

theorem bitAt_halt (x : W64) : bitAt (x ||| 2#64) 1 = true := by simp [bitAt]

/-! RDAT (R492). -/

/-- A reader other than partition 0, or a core that is not stopped, is shown zero and changes nothing. -/
theorem State.rdatRead_zero {q c : Nat} (h : q ≠ 0 ∨ s.rb (Reg.DBG_DBGSTAT c) 0 = false) : s.rdatRead q c = (0#64, s) := by
  unfold State.rdatRead
  rcases h with h | h <;> simp [h]

/-- Partition 0 is shown the payload of a stopped core's selected register, and RSEL its tag. -/
theorem State.rdatRead_stopped {c : Nat} (h : s.rb (Reg.DBG_DBGSTAT c) 0 = true) :
    s.rdatRead 0 c = ((s.dbgReg c (s.rf (Reg.DBG_RSEL c) 11 0)).pay,
      s.wf (Reg.DBG_RSEL c) 23 16 (s.dbgReg c (s.rf (Reg.DBG_RSEL c) 11 0)).tag.toNat) := by
  simp [State.rdatRead, h]

/-- The registers of Table 20-2 by their ranges of numbers; CST (0x200) and the rest of the Snap bank have numbers of their own. -/
theorem State.dbgReg_of_range {c n : Nat} {w : Word}
    (h : (n < 0x100 ∧ w = Tab.get (s.core c).hands n Word.void) ∨
      (0x100 ≤ n ∧ n < 0x108 ∧ w = Tab.get (s.core c).g (n - 0x100) Word.void) ∨
      (0x110 ≤ n ∧ n < 0x120 ∧ w = fixN (Tab.get (s.core c).sg (n - 0x110) 0)) ∨
      (0x120 ≤ n ∧ n < 0x128 ∧ w = Tab.get (s.core c).snapG (n - 0x120) Word.void) ∨
      (0x128 ≤ n ∧ n < 0x140 ∧ w = Tab.get (s.core c).snapHand (n - 0x128) Word.void) ∨
      (0x201 ≤ n ∧ n < 0x23A ∧ w = fixW (s.crR c (n - 0x200)))) : s.dbgReg c n = w := by
  unfold State.dbgReg
  rcases h with ⟨h1, rfl⟩ | ⟨h0, h1, rfl⟩ | ⟨h0, h1, rfl⟩ | ⟨h0, h1, rfl⟩ | ⟨h0, h1, rfl⟩ | ⟨h0, h1, rfl⟩ <;>
    simp (disch := omega) only [if_pos, if_neg]

end

/-! The commands, with the core rail up. -/

theorem whenUp_of_railUp {s : State} (hs : s.railUp = true) (f : State → State) : whenUp s f = .next (f s) := by
  rw [whenUp, if_pos hs]

/-- A field of the model's own, the value read last, stands beside the registers. -/
theorem OnlyRegs.lastRead {P : Nat → Prop} {s t : State} (h : OnlyRegs P s t) (v : W64) :
    OnlyRegs P { s with lastRead := v } { t with lastRead := v } :=
  ⟨by rw [h.rest], h.regs⟩

section
variable {s : State} (hs : s.railUp = true)
include hs

theorem exec_registerWrite (r : Req) (pa : BitVec 40) (v : W64) : exec (.registerWrite r pa v) s = .next (s.ioWrite r pa.toNat v) :=
  whenUp_of_railUp hs (fun s => s.ioWrite r pa.toNat v)

theorem registerWrite_hole (r : Req) (pa : BitVec 40) (v : W64) (h : findBlk pa.toNat = none) : Idle s (.registerWrite r pa v) :=
  (exec_registerWrite hs r pa v).trans (congrArg _ (s.ioWrite_hole r v h))

theorem registerWrite_off (r : Req) (pa : BitVec 40) (v : W64) {b : Blk} {k off : Nat} (h : findBlk pa.toNat = some (b, k, off))
    (hoff : s.offAccess b k = true) :
    Does s (.registerWrite r pa v) (fun a => a = Reg.SYS_STAT ∨ a = Reg.SYS_OFFADDR) (fun _ => s) (fun t =>
      t.rb Reg.SYS_STAT 0 = true ∧ (s.rb Reg.SYS_STAT 0 = true → t = s) ∧
      (s.rb Reg.SYS_STAT 0 = false → t.ioR Reg.SYS_OFFADDR = pa.setWidth 64 ∧ t.ioR Reg.SYS_STAT = setBit (s.ioR Reg.SYS_STAT) 0 true)) := by
  refine ⟨s.recordOff pa.toNat, ?_, ⟨s.recordOff_set _, s.recordOff_kept, fun h0 => ⟨s.recordOff_offaddr h0, s.recordOff_stat h0⟩⟩,
    s.recordOff_only _⟩
  rw [exec_registerWrite hs, s.ioWrite_off r v h hoff]

theorem exec_registerWrite_sys (r : Req) (pa : BitVec 40) (v : W64) {off j : Nat} {x : RegSpec}
    (h : findBlk pa.toNat = some (.bSYS, 0, off)) (hx : findReg Blk.bSYS.regs off = some (x, j)) :
    exec (.registerWrite r pa v) s = .next (if s.reqPart r = 0 then s.genPut pa.toNat x v else s) := by
  rw [exec_registerWrite hs, s.ioWrite_reg r v h (s.offAccess_sys 0) hx]
  rfl

theorem registerWrite_sys (r : Req) (pa : BitVec 40) (v : W64) {off j : Nat} {x : RegSpec}
    (h : findBlk pa.toNat = some (.bSYS, 0, off)) (hx : findReg Blk.bSYS.regs off = some (x, j)) :
    (s.reqPart r ≠ 0 → Idle s (.registerWrite r pa v)) ∧
    (s.reqPart r = 0 → Does s (.registerWrite r pa v) (· = pa.toNat) (fun _ => s) (fun t =>
      t.ioR pa.toNat = ((s.ioR pa.toNat &&& ~~~x.rw) ||| (v &&& x.rw)) &&& ~~~(v &&& x.w1c))) := by
  have hexec := exec_registerWrite_sys hs r pa v h hx
  constructor
  · intro hq
    rwa [if_neg hq] at hexec
  · intro hq
    rw [if_pos hq] at hexec
    exact ⟨_, hexec, s.ioR_genPut _ x v, s.genPut_only _ x v⟩

variable {c : CoreId} (hc : s.isChecker c.val = false)
include hc

theorem exec_dcinvWrite (r : Req) (v : W64) :
    exec (.dcinvWrite r c v) s = .next
      (if bitAt v 0 && s.dbgMayWrite (s.reqPart r) c.val then s.modCore c.val (fun x => { x with dcache := [] }) else s) := by
  rw [← s.ioWrite_dcinv r v hc]
  exact whenUp_of_railUp hs (fun s => s.ioWrite r (Reg.CORE_DCINV c) v)

/-- DCINV by partition 0 or the core's owner empties the core's descriptor cache and leaves all else. -/
theorem dcinvWrite_empties {r : Req} {v : W64} (hv : bitAt v 0 = true) (hq : s.dbgMayWrite (s.reqPart r) c.val = true) :
    ∃ t, exec (.dcinvWrite r c v) s = .next t ∧ t.core c.val = { s.core c.val with dcache := [] } ∧
      (∀ k, k ≠ c.val → t.core k = s.core k) ∧ t = { s with cores := t.cores } :=
  ⟨s.modCore c.val (fun x => { x with dcache := [] }), by rw [exec_dcinvWrite hs hc, hv, hq]; rfl,
    s.core_modCore _ _, fun k hk => s.core_modCore_ne _ k _ hk, rfl⟩

theorem dcinvWrite_idle {r : Req} {v : W64} (h : bitAt v 0 = false ∨ ¬ s.dbgMayWrite (s.reqPart r) c.val = true) :
    Idle s (.dcinvWrite r c v) := by
  rw [Idle, exec_dcinvWrite hs hc]
  rcases h with h | h <;> simp [h]

theorem exec_dbgctlHalt {r : Req} (hq : s.dbgMayWrite (s.reqPart r) c.val = true) :
    exec (.dbgctlHalt r c) s = .next
      (if s.debugOk c.val then
        (s.ioW (Reg.DBG_DBGCTL c) (s.ioR (Reg.DBG_DBGCTL c) &&& (fmask 4 3 ||| fmask 0 0))).setB (Reg.DBG_DBGSTAT c) 1
       else s.dbgRefuse c) := by
  rw [← halt_masked, ← s.dbgctlWrite_halt hq (bitAt_halt _), ← s.ioWrite_dbgctl r _ hc]
  exact whenUp_of_railUp hs (fun s => s.ioWrite r (Reg.DBG_DBGCTL c) (s.ioR (Reg.DBG_DBGCTL c) ||| 2#64))

theorem dbgctlHalt_requests {r : Req} (hq : s.dbgMayWrite (s.reqPart r) c.val = true) (hd : s.debugOk c.val = true) :
    Does s (.dbgctlHalt r c) (fun a => a = Reg.DBG_DBGCTL c ∨ a = Reg.DBG_DBGSTAT c) (fun _ => s) (fun t =>
      t.ioR (Reg.DBG_DBGCTL c) = s.ioR (Reg.DBG_DBGCTL c) &&& (fmask 4 3 ||| fmask 0 0) ∧
      t.ioR (Reg.DBG_DBGSTAT c) = setBit (s.ioR (Reg.DBG_DBGSTAT c)) 1 true) := by
  have hne := dbgctl_ne_dbgstat c
  refine ⟨_, (exec_dbgctlHalt hs hc hq).trans (congrArg _ (if_pos hd)), ⟨?_, ?_⟩,
    (OnlyRegs.ioW s _ _ (.inl rfl)).trans (OnlyRegs.wf _ _ _ _ _ (.inr rfl))⟩
  · rw [State.setB, State.wf, State.ioR_ioW_ne _ _ _ _ hne, State.ioR_ioW]
  · rw [State.setB, State.wf, State.ioR_ioW, State.ioR_ioW_ne _ _ _ _ hne.symm]
    rfl

theorem dbgctlHalt_refused {r : Req} (hq : s.dbgMayWrite (s.reqPart r) c.val = true) (hd : s.debugOk c.val = false) :
    Does s (.dbgctlHalt r c) (· = Reg.DBG_DBGSTAT c) (fun _ => s) (fun t =>
      t.ioR (Reg.DBG_DBGSTAT c) = setBit (s.ioR (Reg.DBG_DBGSTAT c)) 3 true) :=
  ⟨s.dbgRefuse c.val, (exec_dbgctlHalt hs hc hq).trans (by simp [hd]), s.ioR_ioW _ _, OnlyRegs.wf s _ _ _ _ rfl⟩

theorem exec_rdatRead (r : Req) :
    exec (.rdatRead r c) s = .next { (s.rdatRead (s.reqPart r) c.val).2 with lastRead := (s.rdatRead (s.reqPart r) c.val).1 } := by
  rw [← s.ioRead_rdat r hc]
  exact whenUp_of_railUp hs (fun s => s.readAt r (Reg.DBG_RDAT c) false)

theorem rdatRead_shows_zero {r : Req} (h : s.reqPart r ≠ 0 ∨ s.rb (Reg.DBG_DBGSTAT c) 0 = false) :
    Does s (.rdatRead r c) (fun _ => False) (fun t => { s with lastRead := t.lastRead }) (fun t => t.lastRead = 0#64) :=
  ⟨{ s with lastRead := 0#64 }, by rw [exec_rdatRead hs hc, s.rdatRead_zero h], rfl, (OnlyRegs.refl s _).lastRead 0#64⟩

theorem rdatRead_shows {r : Req} (hq : s.reqPart r = 0) (h : s.rb (Reg.DBG_DBGSTAT c) 0 = true) {w : Word}
    (hw : s.dbgReg c.val (s.rf (Reg.DBG_RSEL c) 11 0) = w) :
    Does s (.rdatRead r c) (· = Reg.DBG_RSEL c) (fun t => { s with lastRead := t.lastRead }) (fun t =>
      t.lastRead = w.pay ∧ t.ioR (Reg.DBG_RSEL c) = setFld (s.ioR (Reg.DBG_RSEL c)) 23 16 w.tag.toNat) :=
  ⟨{ s.wf (Reg.DBG_RSEL c) 23 16 w.tag.toNat with lastRead := w.pay }, by rw [exec_rdatRead hs hc, hq, s.rdatRead_stopped h, hw],
    ⟨rfl, s.ioR_ioW _ _⟩, (OnlyRegs.wf (P := (· = Reg.DBG_RSEL c)) s _ 23 16 w.tag.toNat rfl).lastRead w.pay⟩

end

/-- Settles O35: the register map routes each access to a hole, to a block that is off, to SYS, or to the registers of a core, whose writes and
reads the lemmas above give. -/
theorem registerAccess : Obligations.RegisterAccess := by
  unfold Obligations.RegisterAccess
  intro s r pa v c hs
  refine ⟨registerWrite_hole hs r pa v, fun b k off h hoff => registerWrite_off hs r pa v h hoff,
    fun off x j h hx => registerWrite_sys hs r pa v h hx, fun hc => ?_⟩
  rw [← s.dbgMayWrite_iff]
  exact ⟨dcinvWrite_empties hs hc, dcinvWrite_idle hs hc, dbgctlHalt_requests hs hc, dbgctlHalt_refused hs hc,
    rdatRead_shows_zero hs hc, fun hq h w hw => rdatRead_shows hs hc hq h (s.dbgReg_of_range hw)⟩

end Sys2Proof.Machine
end

section
/-!
SUPPORT. The raw instructions (spec 05 R127–R129): the results of Table 5-4 and the flags of Table 5-5 as operations on bit vectors, and the
instructions that run them on a core at ease.
-/
namespace Sys2Proof.Machine

open Sys2Proof

/-! The flags of Table 5-5. -/

theorem outS_eq_decide (i : Int) : outS i = decide (outOf64 i) := (Bool.decide_or ..).symm

/-- N is the sign of the result, and Z tells that it is zero (R129). -/
theorem rawFlags_eq (r : W64) (c v : Bool) : rawFlags r c v = ⟨r.msb, decide (r = 0#64), c, v⟩ := by
  rw [rawFlags, bitAt, ← BitVec.msb_eq_getLsbD_last, beq_eq_decide]

/-! The results with flags. -/

section
variable (x y : W64)

theorem addwRes_eq : addwRes x y =
    (x + y, ⟨(x + y).msb, decide (x + y = 0#64), decide (2 ^ 64 ≤ x.toNat + y.toNat), decide (outOf64 (x.toInt + y.toInt))⟩) := by
  rw [addwRes, rawFlags_eq, outS_eq_decide]

theorem subwRes_eq : subwRes x y =
    (x - y, ⟨(x - y).msb, decide (x - y = 0#64), decide (x.toNat < y.toNat), decide (outOf64 (x.toInt - y.toInt))⟩) := by
  rw [subwRes, rawFlags_eq, outS_eq_decide]

theorem mulwRes_eq : mulwRes x y =
    (x * y, ⟨(x * y).msb, decide (x * y = 0#64), decide (2 ^ 64 ≤ x.toNat * y.toNat), decide (outOf64 (x.toInt * y.toInt))⟩) := by
  rw [mulwRes, rawFlags_eq, outS_eq_decide]

theorem negwRes_eq : negwRes x =
    (-x, ⟨(-x).msb, decide (x = 0#64), decide (x ≠ 0#64), decide (x = BitVec.intMin 64)⟩) := by
  have hmin : BitVec.intMin 64 = 0x8000000000000000#64 := rfl
  simp only [negwRes, BitVec.zero_sub, rawFlags_eq, BitVec.neg_eq_zero_iff, bne, beq_eq_decide, decide_not, hmin]

/-- The quotient truncated toward zero, MIN ÷ −1 wrapping to MIN, is the signed division of bit vectors. -/
theorem w64_tdiv : w64 (x.toInt.tdiv y.toInt) = x.sdiv y := by
  apply BitVec.eq_of_toInt_eq
  rw [w64, BitVec.toInt_ofInt, BitVec.toInt_sdiv]

/-- The remainder with the sign of a is the signed remainder of bit vectors. -/
theorem w64_tmod : w64 (x.toInt.tmod y.toInt) = x.srem y := by
  rw [w64, ← BitVec.toInt_srem, BitVec.ofInt_toInt]

theorem divwRes_eq : divwRes x y =
    (x.sdiv y, ⟨(x.sdiv y).msb, decide (x.sdiv y = 0#64), false, decide (x = BitVec.intMin 64 ∧ y = -1#64)⟩) := by
  have hmin : BitVec.intMin 64 = 0x8000000000000000#64 := rfl
  have hneg : -1#64 = 0xFFFFFFFFFFFFFFFF#64 := rfl
  simp only [divwRes, w64_tdiv, rawFlags_eq, beq_eq_decide, hmin, hneg, Bool.decide_and]

theorem modwRes_eq : modwRes x y = (x.srem y, ⟨(x.srem y).msb, decide (x.srem y = 0#64), false, false⟩) := by
  rw [modwRes, w64_tmod, rawFlags_eq]

/-! The results without flags. -/

theorem shlwRes_eq : shlwRes x y = if 64 ≤ y.toNat % 128 then 0#64 else x <<< (y.toNat % 128) := by
  unfold shlwRes
  split
  case isTrue h => exact BitVec.shiftLeft_eq_zero h
  case isFalse => rfl

theorem shrwRes_eq : shrwRes x y = if 64 ≤ y.toNat % 128 then 0#64 else x >>> (y.toNat % 128) := by
  unfold shrwRes
  split
  case isTrue h => exact BitVec.ushiftRight_eq_zero h
  case isFalse => rfl

/-- An arithmetic shift by the whole width or more leaves the sign fill. -/
theorem sshiftRight_of_le {w n : Nat} (x : BitVec w) (h : w ≤ n) : x.sshiftRight n = if x.msb then -1#w else 0#w := by
  split
  case isTrue hx => rw [BitVec.sshiftRight_eq_of_msb_true hx, BitVec.ushiftRight_eq_zero h, BitVec.not_zero, BitVec.neg_one_eq_allOnes]
  case isFalse hx => rw [BitVec.sshiftRight_eq_of_msb_false (by simpa using hx), BitVec.ushiftRight_eq_zero h]

theorem sarwRes_eq : sarwRes x y =
    if 64 ≤ y.toNat % 128 then (if x.msb then -1#64 else 0#64) else x.sshiftRight (y.toNat % 128) := by
  unfold sarwRes
  split
  case isTrue h => exact sshiftRight_of_le x h
  case isFalse => rfl

theorem clzwRes_eq : clzwRes x = n64 (64 - (if x = 0#64 then 0 else Nat.log2 x.toNat + 1)) := by
  unfold clzwRes
  split
  case isTrue => rfl
  case isFalse => rw [Nat.add_comm, Nat.sub_add_eq]

/-- The sum of the k lowest bits counts those that are set. -/
theorem popCount_eq_countP (k n : Nat) : popCount k n = (List.range k).countP n.testBit := by
  induction k generalizing n with
  | zero => rfl
  | succ k ih =>
    have hrest : n.testBit ∘ Nat.succ = (n / 2).testBit := funext fun i => Nat.testBit_succ n i
    have hlow : n % 2 = if n.testBit 0 then 1 else 0 := by
      rw [Nat.testBit_zero]
      rcases Nat.mod_two_eq_zero_or_one n with h | h <;> simp [h]
    rw [Ecc.popCount_succ, ih, hlow, List.range_succ_eq_map, List.countP_cons, List.countP_map, hrest, Nat.add_comm]

theorem popwRes_eq : popwRes x = n64 ((List.range 64).countP (fun i => x.getLsbD i)) :=
  congrArg n64 (popCount_eq_countP 64 x.toNat)

end

/-! Immediates. -/

theorem immZero_pay (imm : BitVec 13) : (immZero imm).pay = imm.setWidth 64 := BitVec.ofNat_toNat ..

/-- The sign extension of an immediate leaves its shift count, bits 6:0, as it is. -/
theorem immFix_count (imm : BitVec 13) : (immFix imm).pay.toNat % 128 = imm.toNat % 128 := by
  have himm := imm.isLt
  rw [immFix_pay, BitVec.toNat_signExtend, BitVec.toNat_setWidth]
  split <;> omega

/-! The shapes of raw instructions, run by a core at ease. -/

section
variable {s : State} {c : CoreId} {d a b : RegN} {i : Instr} {v w : Word} {r : W64} {n z cc o : Bool} (h : AtEase s c.val)
  (ha : rawTag (s.reg c.val a.val))
include h ha

section
variable (hb : rawTag (s.reg c.val b.val))
include hb

theorem gives_of_raw2 {f : W64 → W64 → W64} (hi : exec i s = .next (runRaw2 0 (fun d x y => rawOp2 d x y f) c d a b s))
    (hr : f (s.reg c.val a.val).pay (s.reg c.val b.val).pay = r) : Gives s i c d (fixW r) :=
  hr ▸ gives_of_run h hi rfl rfl rfl (.inl rfl) (rawOp2_run ha hb)

variable {f : W64 → W64 → W64 × RawFlags}

theorem givesFlags_of_raw2 (hi : exec i s = .next (runRaw2 grpQ (fun d x y => rawFl2 d x y f) c d a b s))
    (hr : f (s.reg c.val a.val).pay (s.reg c.val b.val).pay = (r, ⟨n, z, cc, o⟩)) : GivesFlags s i c d (fixW r) n z cc o := by
  have hg := givesFlags_of_run h hi rfl rfl rfl (.inl rfl) (rawFl2_run ha hb)
  rwa [hr] at hg

theorem givesFlags_of_rawDiv (hi : exec i s = .next (runRaw2 grpQ (fun d x y => rawDiv d x y f) c d a b s))
    (hy : (s.reg c.val b.val).pay ≠ 0#64)
    (hr : f (s.reg c.val a.val).pay (s.reg c.val b.val).pay = (r, ⟨n, z, cc, o⟩)) : GivesFlags s i c d (fixW r) n z cc o := by
  have hg := givesFlags_of_run h hi rfl rfl rfl (.inl rfl) (rawDiv_run ha hb hy)
  rwa [hr] at hg

theorem faults_of_rawDiv (hi : exec i s = .next (runRaw2 grpQ (fun d x y => rawDiv d x y f) c d a b s))
    (hy : (s.reg c.val b.val).pay = 0#64) : Faults s i c (.of .div0 2) (opndsDAB d a b) :=
  faults_of_run h hi rfl rfl rfl (.inl rfl) (rawDiv_fault ha hb hy) rfl

end

theorem gives_of_raw1 {f : W64 → W64} (hi : exec i s = .next (runRaw1 f c d a s)) (hr : f (s.reg c.val a.val).pay = r) :
    Gives s i c d (fixW r) :=
  hr ▸ gives_of_run h hi rfl rfl rfl (.inl rfl) (rawOp1_run ha)

theorem gives_of_rawImm {f : W64 → W64 → W64} (hi : exec i s = .next (runRawImm 0 (fun d x y => rawOp2 d x y f) c d a v s))
    (hv : rawTag v) (hr : f (s.reg c.val a.val).pay v.pay = r) : Gives s i c d (fixW r) :=
  hr ▸ gives_of_run h hi rfl rfl rfl (.inl rfl) (rawOpImm_run ha hv)

theorem givesFlags_of_rawImm {f : W64 → W64 → W64 × RawFlags}
    (hi : exec i s = .next (runRawImm grpQ (fun d x y => rawFl2 d x y f) c d a v s)) (hv : rawTag v)
    (hr : f (s.reg c.val a.val).pay v.pay = (r, ⟨n, z, cc, o⟩)) : GivesFlags s i c d (fixW r) n z cc o := by
  have hg := givesFlags_of_run h hi rfl rfl rfl (.inl rfl) (rawFlImm_run ha hv)
  rwa [hr] at hg

end

/-! The raw instructions. -/

section
variable {s : State} {c : CoreId} {d a b : RegN} {imm : BitVec 13} (h : AtEase s c.val) (ha : rawTag (s.reg c.val a.val))
include h ha

/-- ADDW, SUBW and MULW, with the carry, the borrow and the overflow of Table 5-5. -/
theorem givesFlags_sums (hb : rawTag (s.reg c.val b.val)) :
    let x := (s.reg c.val a.val).pay
    let y := (s.reg c.val b.val).pay
    GivesFlags s (.addw c d a b) c d (fixW (x + y)) (x + y).msb (decide (x + y = 0#64)) (decide (2 ^ 64 ≤ x.toNat + y.toNat))
      (decide (outOf64 (x.toInt + y.toInt))) ∧
    GivesFlags s (.subw c d a b) c d (fixW (x - y)) (x - y).msb (decide (x - y = 0#64)) (decide (x.toNat < y.toNat))
      (decide (outOf64 (x.toInt - y.toInt))) ∧
    GivesFlags s (.mulw c d a b) c d (fixW (x * y)) (x * y).msb (decide (x * y = 0#64)) (decide (2 ^ 64 ≤ x.toNat * y.toNat))
      (decide (outOf64 (x.toInt * y.toInt))) :=
  ⟨givesFlags_of_raw2 h ha hb rfl (addwRes_eq ..), givesFlags_of_raw2 h ha hb rfl (subwRes_eq ..),
   givesFlags_of_raw2 h ha hb rfl (mulwRes_eq ..)⟩

theorem givesFlags_negw :
    let x := (s.reg c.val a.val).pay
    GivesFlags s (.negw c d a) c d (fixW (-x)) (-x).msb (decide (x = 0#64)) (decide (x ≠ 0#64)) (decide (x = BitVec.intMin 64)) := by
  have hg : GivesFlags s (.negw c d a) c d _ _ _ _ _ := givesFlags_of_run h rfl rfl rfl rfl (.inl rfl)
    (run_finish_raw s c.val d.val (negwRes (s.reg c.val a.val).pay) _ (by simp [rawArg_run ha]))
  rwa [negwRes_eq] at hg

theorem givesFlags_addwi :
    let x := (s.reg c.val a.val).pay
    let v : W64 := imm.signExtend 64
    GivesFlags s (.addwi c d a imm) c d (fixW (x + v)) (x + v).msb (decide (x + v = 0#64)) (decide (2 ^ 64 ≤ x.toNat + v.toNat))
      (decide (outOf64 (x.toInt + v.toInt))) :=
  givesFlags_of_rawImm h ha rfl (.inl (immFix_tag imm)) (addwRes_eq ..)

/-- DIVW and MODW of a nonzero divisor. -/
theorem givesFlags_quotients (hb : rawTag (s.reg c.val b.val)) (hy : (s.reg c.val b.val).pay ≠ 0#64) :
    let x := (s.reg c.val a.val).pay
    let y := (s.reg c.val b.val).pay
    GivesFlags s (.divw c d a b) c d (fixW (x.sdiv y)) (x.sdiv y).msb (decide (x.sdiv y = 0#64)) false
      (decide (x = BitVec.intMin 64 ∧ y = -1#64)) ∧
    GivesFlags s (.modw c d a b) c d (fixW (x.srem y)) (x.srem y).msb (decide (x.srem y = 0#64)) false false :=
  ⟨givesFlags_of_rawDiv h ha hb rfl hy (divwRes_eq ..), givesFlags_of_rawDiv h ha hb rfl hy (modwRes_eq ..)⟩

/-- DIVW and MODW of a zero divisor. -/
theorem faults_quotients (hb : rawTag (s.reg c.val b.val)) (hy : (s.reg c.val b.val).pay = 0#64) :
    Faults s (.divw c d a b) c (.of .div0 2) (opndsDAB d a b) ∧ Faults s (.modw c d a b) c (.of .div0 2) (opndsDAB d a b) :=
  ⟨faults_of_rawDiv h ha hb rfl hy, faults_of_rawDiv h ha hb rfl hy⟩

/-- The bitwise instructions, the shifts and the rotation of two registers. -/
theorem gives_bits_registers (hb : rawTag (s.reg c.val b.val)) :
    let x := (s.reg c.val a.val).pay
    let y := (s.reg c.val b.val).pay
    let n := y.toNat % 128
    Gives s (.andw c d a b) c d (fixW (x &&& y)) ∧ Gives s (.orw c d a b) c d (fixW (x ||| y)) ∧
      Gives s (.xorw c d a b) c d (fixW (x ^^^ y)) ∧
      Gives s (.shlw c d a b) c d (fixW (if 64 ≤ n then 0#64 else x <<< n)) ∧
      Gives s (.shrw c d a b) c d (fixW (if 64 ≤ n then 0#64 else x >>> n)) ∧
      Gives s (.sarw c d a b) c d (fixW (if 64 ≤ n then (if x.msb then -1#64 else 0#64) else x.sshiftRight n)) ∧
      Gives s (.rolw c d a b) c d (fixW (x.rotateLeft (y.toNat % 64))) :=
  ⟨gives_of_raw2 h ha hb rfl rfl, gives_of_raw2 h ha hb rfl rfl, gives_of_raw2 h ha hb rfl rfl,
   gives_of_raw2 h ha hb rfl (shlwRes_eq ..), gives_of_raw2 h ha hb rfl (shrwRes_eq ..),
   gives_of_raw2 h ha hb rfl (sarwRes_eq ..), gives_of_raw2 h ha hb rfl rfl⟩

/-- NOTW and the two counts. -/
theorem gives_bits_unary :
    let x := (s.reg c.val a.val).pay
    Gives s (.notw c d a) c d (fixW (~~~x)) ∧
      Gives s (.clzw c d a) c d (fixN (64 - (if x = 0#64 then 0 else Nat.log2 x.toNat + 1))) ∧
      Gives s (.popw c d a) c d (fixN ((List.range 64).countP (fun i => x.getLsbD i))) :=
  ⟨gives_of_raw1 h ha rfl rfl, gives_of_raw1 h ha rfl (clzwRes_eq _), gives_of_raw1 h ha rfl (popwRes_eq _)⟩

/-- The bitwise immediate forms, which zero-extend their immediate (R127). -/
theorem gives_bits_immediates :
    let x := (s.reg c.val a.val).pay
    let v : W64 := imm.setWidth 64
    Gives s (.andwi c d a imm) c d (fixW (x &&& v)) ∧ Gives s (.orwi c d a imm) c d (fixW (x ||| v)) ∧
      Gives s (.xorwi c d a imm) c d (fixW (x ^^^ v)) := by
  have hv : rawTag (immZero imm) := .inl rfl
  rw [← immZero_pay imm]
  exact ⟨gives_of_rawImm h ha rfl hv rfl, gives_of_rawImm h ha rfl hv rfl, gives_of_rawImm h ha rfl hv rfl⟩

/-- The immediate shifts, by bits 6:0 of their immediate (R128). -/
theorem gives_shift_immediates :
    let x := (s.reg c.val a.val).pay
    let m := imm.toNat % 128
    Gives s (.shlwi c d a imm) c d (fixW (if 64 ≤ m then 0#64 else x <<< m)) ∧
      Gives s (.shrwi c d a imm) c d (fixW (if 64 ≤ m then 0#64 else x >>> m)) ∧
      Gives s (.sarwi c d a imm) c d (fixW (if 64 ≤ m then (if x.msb then -1#64 else 0#64) else x.sshiftRight m)) := by
  have hv : rawTag (immFix imm) := .inl (immFix_tag imm)
  rw [← immFix_count imm]
  exact ⟨gives_of_rawImm h ha rfl hv (shlwRes_eq ..), gives_of_rawImm h ha rfl hv (shrwRes_eq ..),
    gives_of_rawImm h ha rfl hv (sarwRes_eq ..)⟩

end

/-- Settles O2: each raw instruction runs one of four shapes (two registers, a division, one register, an immediate), and its result is the bit-vector
operation of Table 5-4 with the flags of Table 5-5. -/
theorem rawArithmetic : Obligations.RawArithmetic := by
  unfold Obligations.RawArithmetic
  refine ⟨fun s c d a b imm h ha => ⟨givesFlags_sums h ha, givesFlags_negw h ha, givesFlags_addwi h ha⟩,
    fun s c d a b h ha hb => ⟨givesFlags_quotients h ha hb, faults_quotients h ha hb⟩, fun s c d a b imm h ha => ?_⟩
  obtain ⟨hnot, hclz, hpop⟩ := gives_bits_unary (d := d) h ha
  obtain ⟨hand, hor, hxor⟩ := gives_bits_immediates (d := d) (imm := imm) h ha
  exact ⟨gives_bits_registers h ha, hnot, hclz, hpop, hand, hor, hxor, gives_shift_immediates h ha⟩

end Sys2Proof.Machine
end

section
/-!
SUPPORT. Fields and bits of a register that has been written, loops over numbers, and tables whose entries rise.
-/
namespace Sys2Proof.Machine

open Sys2Proof

/-! Fields. -/

theorem bitAt_fmask {hi lo i : Nat} (h64 : i < 64) : bitAt (fmask hi lo) i = (decide (lo ≤ i) && decide (i < lo + (hi + 1 - lo))) := by
  simp only [bitAt, fmask, BitVec.getLsbD_ofNat, h64, decide_true, Bool.true_and, Nat.testBit_shiftLeft, Nat.testBit_two_pow_sub_one]
  by_cases h : lo ≤ i
  · simp only [h, decide_true, Bool.true_and, decide_eq_decide]
    omega
  · simp [h]

/-- A bit of a value with a field replaced. -/
theorem bitAt_setFld (x : W64) (hi lo v : Nat) {i : Nat} (h64 : i < 64) :
    bitAt (setFld x hi lo v) i = if lo ≤ i ∧ i < lo + (hi + 1 - lo) then v.testBit (i - lo) else bitAt x i := by
  have hor : bitAt (setFld x hi lo v) i =
      ((bitAt x i && !bitAt (fmask hi lo) i) || (decide (lo ≤ i) && (v % 2 ^ (hi + 1 - lo)).testBit (i - lo))) := by
    simp only [bitAt, setFld, BitVec.getLsbD_or, BitVec.getLsbD_and, BitVec.getLsbD_not, BitVec.getLsbD_ofNat, h64, decide_true,
      Bool.true_and, Nat.testBit_shiftLeft]
  rw [hor, bitAt_fmask h64, Nat.testBit_mod_two_pow]
  by_cases h : lo ≤ i
  · by_cases h2 : i < lo + (hi + 1 - lo)
    · have : i - lo < hi + 1 - lo := by omega
      simp [h, h2, this]
    · have : ¬ i - lo < hi + 1 - lo := by omega
      simp [h, h2, this]
  · simp [h]

theorem bitAt_setBit_ne (x : W64) (b : Bool) {i j : Nat} (hj : j < 64) (h : j ≠ i) : bitAt (setBit x i b) j = bitAt x j := by
  rw [setBit, bitAt_setFld _ _ _ _ hj, if_neg (by omega)]

theorem bitAt_setBit (x : W64) (b : Bool) {i : Nat} (hi : i < 64) : bitAt (setBit x i b) i = b := by
  rw [setBit, bitAt_setFld _ _ _ _ hi, if_pos (by omega)]
  cases b <;> simp

theorem fld_testBit (x : W64) (hi lo j : Nat) : (fld x hi lo).testBit j = (decide (j < hi + 1 - lo) && bitAt x (lo + j)) := by
  simp [fld, bitAt, BitVec.getLsbD]

theorem bitAt_or (x y : W64) (i : Nat) : bitAt (x ||| y) i = (bitAt x i || bitAt y i) := BitVec.getLsbD_or

theorem fld_or (x y : W64) (hi lo : Nat) : fld (x ||| y) hi lo = fld x hi lo ||| fld y hi lo := by
  apply Nat.eq_of_testBit_eq
  intro j
  rw [Nat.testBit_or, fld_testBit, fld_testBit, fld_testBit, bitAt_or, Bool.and_or_distrib_left]

/-- A field that has been written holds what was written, as far as it fits. -/
theorem fld_setFld (x : W64) {hi lo : Nat} (v : Nat) (h : hi < 64) : fld (setFld x hi lo v) hi lo = v % 2 ^ (hi + 1 - lo) := by
  apply Nat.eq_of_testBit_eq
  intro j
  rw [fld_testBit, Nat.testBit_mod_two_pow]
  by_cases hj : j < hi + 1 - lo
  · rw [bitAt_setFld _ _ _ _ (by omega), if_pos (by omega), Nat.add_sub_cancel_left]
  · simp [hj]

/-- Another field stays. -/
theorem fld_setFld_of_disjoint (x : W64) {hi lo hi' lo' : Nat} (v : Nat) (h' : hi' < 64) (h : hi < lo' ∨ hi' < lo) :
    fld (setFld x hi lo v) hi' lo' = fld x hi' lo' := by
  apply Nat.eq_of_testBit_eq
  intro j
  rw [fld_testBit, fld_testBit]
  by_cases hj : j < hi' + 1 - lo'
  · rw [bitAt_setFld _ _ _ _ (by omega), if_neg (by omega)]
  · simp [hj]

theorem fld_putFld {hi lo : Nat} (v : Nat) (h : hi < 64) : fld (putFld hi lo v) hi lo = v % 2 ^ (hi + 1 - lo) := fld_setFld _ v h

theorem fld_putFld_of_disjoint {hi lo hi' lo' : Nat} (v : Nat) (h' : hi' < 64) (h : hi < lo' ∨ hi' < lo) :
    fld (putFld hi lo v) hi' lo' = 0 := by
  rw [putFld, fld_setFld_of_disjoint _ v h' h]
  simp [fld]

/-! Loops over the numbers below a bound. -/

theorem forN_succ {σ : Type} (n : Nat) (f : Nat → σ → σ) (s : σ) : forN (n + 1) f s = f n (forN n f s) := by
  simp [forN, List.range_succ]

/-- What holds before a loop and is carried on by each of its rounds holds after it. -/
theorem forN_induct {σ : Type} (I : Nat → σ → Prop) (f : Nat → σ → σ) (s : σ) (n : Nat) (h0 : I 0 s)
    (hstep : ∀ i t, i < n → I i t → I (i + 1) (f i t)) : I n (forN n f s) := by
  induction n with
  | zero => exact h0
  | succ n ih =>
    rw [forN_succ]
    exact hstep n _ (Nat.lt_succ_self n) (ih fun i t hi => hstep i t (by omega))

/-! The order of a table. -/

theorem Tab.dropTo_sublist {α : Type} (t : Tab α) (k : Nat) : (Tab.dropTo t k).Sublist t := by
  induction t with
  | nil => exact .refl _
  | cons e t ih =>
    obtain ⟨j, x⟩ := e
    unfold Tab.dropTo
    split
    · exact ih.cons _
    · exact .refl _

/-- A write keeps the entries rising. -/
theorem Rising.set {α : Type} [DecidableEq α] {t : Tab α} (h : Rising t) (k : Nat) (v d : α) : Rising (Tab.set t k v d) := by
  induction t with
  | nil =>
    unfold Tab.set
    split <;> simp [Rising]
  | cons e t ih =>
    obtain ⟨j, x⟩ := e
    obtain ⟨hj, ht⟩ := List.pairwise_cons.1 h
    unfold Tab.set
    split_ifs with hlt hv heq hv
    · exact h
    · refine List.pairwise_cons.2 ⟨fun e he => ?_, h⟩
      rcases List.mem_cons.1 he with rfl | he
      · exact hlt
      · exact Nat.lt_trans hlt (hj e he)
    · exact ht.sublist (Tab.dropTo_sublist t k)
    · exact List.pairwise_cons.2 ⟨fun e he => heq ▸ hj e he, ht⟩
    · refine List.pairwise_cons.2 ⟨fun e he => ?_, ih ht⟩
      rcases Tab.mem_set he with he | rfl
      · exact hj e he
      · show j < k
        omega

/-- A key that is kept reads as before. -/
theorem Tab.get_keep {α : Type} {t : Tab α} (h : Rising t) (p : Nat → α → Bool) (k : Nat) (d : α) (hp : ∀ x, p k x = true) :
    Tab.get (Tab.keep t p) k d = Tab.get t k d := by
  induction t with
  | nil => rfl
  | cons e t ih =>
    obtain ⟨j, x⟩ := e
    obtain ⟨hj, ht⟩ := List.pairwise_cons.1 h
    have hrest := ih ht
    have hkeep : Tab.keep ((j, x) :: t) p = if p j x then (j, x) :: Tab.keep t p else Tab.keep t p := List.filter_cons ..
    rw [hkeep]
    by_cases hpj : p j x = true
    · simp only [hpj, if_true, Tab.get, hrest]
    · have hne : k ≠ j := fun e => hpj (e ▸ hp x)
      simp only [hpj, Bool.false_eq_true, if_false, Tab.get, hne, hrest]
      by_cases hlt : k < j
      · have habove : ∀ e ∈ t, k < e.1 := fun e he => Nat.lt_trans hlt (hj e he)
        rw [if_pos hlt]
        cases t with
        | nil => rfl
        | cons a t =>
          have := habove a (by simp)
          simp [Tab.get, this, Nat.ne_of_lt this]
      · rw [if_neg hlt]

end Sys2Proof.Machine
end

section
/-!
SUPPORT. What the shared operations of the units leave alone: counting, a chip reset, the request for a partition's reset, the pins, and the hold
of groups (spec 14 R380, spec 16 R423, R424, spec 18 R452).
-/
namespace Sys2Proof.Machine

open Sys2Proof

/-! What a change of registers leaves. -/

theorem OnlyRegs.faultIn {P : Nat → Prop} {s t : State} (h : OnlyRegs P s t) : t.faultIn = s.faultIn := by rw [h.rest]
theorem OnlyRegs.parts {P : Nat → Prop} {s t : State} (h : OnlyRegs P s t) : t.parts = s.parts := by rw [h.rest]
theorem OnlyRegs.owners {P : Nat → Prop} {s t : State} (h : OnlyRegs P s t) : t.owners = s.owners := by rw [h.rest]
theorem OnlyRegs.hs {P : Nat → Prop} {s t : State} (h : OnlyRegs P s t) : t.hs = s.hs := by rw [h.rest]

theorem OnlyRegs.saf {P : Nat → Prop} {s t : State} (h : OnlyRegs P s t) : t.saf = s.saf := by rw [h.rest]
theorem OnlyRegs.now {P : Nat → Prop} {s t : State} (h : OnlyRegs P s t) (hp : ¬ P Reg.CGL_TIMENS) : t.now = s.now :=
  congrArg BitVec.toNat (h.regs _ hp)

/-- A change of registers, then one of the safety monitor's own state. -/
theorem OnlyRegs.modSaf {P : Nat → Prop} {s t : State} (h : OnlyRegs P s t) (f : SafeSt → SafeSt) :
    OnlyRegs P { s with saf := (t.modSaf f).saf } (t.modSaf f) := by
  obtain ⟨x, hx⟩ : ∃ x, t.modSaf f = { t with saf := x } := ⟨_, rfl⟩
  rw [hx]
  exact ⟨by rw [h.rest], h.regs⟩

theorem State.groupsOf_congr {s t : State} (h : t.owners = s.owners) (p : Nat) : t.groupsOf p = s.groupsOf p := by
  unfold State.groupsOf State.owner
  rw [h]

/-! Event counters. -/

theorem State.countUn_only (s : State) (ev i n : Nat) : OnlyRegs cacheRegs s (s.countUn ev i n) := by
  unfold State.countUn forN
  refine OnlyRegs.foldl s _ _ (fun t j hj => OnlyRegs.ite _ (OnlyRegs.countAt t _ _ ?_ ?_) (OnlyRegs.refl t _))
  · exact .inr (.inr (.inl ⟨j, by simpa using hj, .inl rfl⟩))
  · exact .inr (.inr (.inl ⟨j, by simpa using hj, .inr rfl⟩))

theorem State.countCl_only (s : State) {k : Nat} (ev i n : Nat) (hk : k < 8) : OnlyRegs cacheRegs s (s.countCl k ev i n) := by
  unfold State.countCl forN
  refine OnlyRegs.foldl s _ _ (fun t j hj => OnlyRegs.ite _ (OnlyRegs.countAt t _ _ ?_ ?_) (OnlyRegs.refl t _))
  · exact .inr (.inl ⟨k, j, hk, by simpa using hj, .inl rfl⟩)
  · exact .inr (.inl ⟨k, j, hk, by simpa using hj, .inr rfl⟩)

/-- No counter and no channel's error record lies from Meld's block on up to the debug blocks. -/
theorem not_cacheRegs_of_range {a : Nat} (h : 0xFF00800000 ≤ a) (h2 : a < 0xFF00F00000) : ¬ cacheRegs a := by
  rintro (⟨c, j, hc, hj, e⟩ | ⟨k, j, hk, hj, e⟩ | ⟨j, hj, e⟩ | ⟨ch, hch, e⟩) <;>
    simp only [Reg.DBG_CNTSEL, Reg.CNTC_CNTSEL, Reg.CNTU_CNTSEL, Reg.MEMC_MERR, Reg.MEMC_MUEADDR] at e <;> omega

/-! The registers keep their order. -/

theorem State.rising_countAt {s : State} (h : Rising s.io) (a n : Nat) : Rising (s.countAt a n).io := by
  unfold State.countAt
  dsimp only
  split
  · exact (h.set ..).set ..
  · exact h.set ..

theorem State.rising_countUn {s : State} (h : Rising s.io) (ev i n : Nat) : Rising (s.countUn ev i n).io := by
  unfold State.countUn
  refine forN_induct (fun _ t => Rising t.io) _ s 32 h (fun j t _ ht => ?_)
  dsimp only
  split
  · exact State.rising_countAt ht _ _
  · exact ht

theorem State.rising_advanceTo {s : State} (h : Rising s.io) (ns : Nat) : Rising (s.advanceTo ns).io := by
  unfold State.advanceTo
  split
  · exact h.set ..
  · exact h

/-! The local time. -/

theorem State.advanceTo_only (s : State) (ns : Nat) : OnlyRegs (· = Reg.CGL_TIMENS) s (s.advanceTo ns) := by
  unfold State.advanceTo
  split
  · exact OnlyRegs.ioW s _ _ rfl
  · exact OnlyRegs.refl s _

theorem State.now_advanceTo (s : State) {ns : Nat} (h : ns < 2 ^ 64) : (s.advanceTo ns).now = max s.now ns := by
  unfold State.advanceTo
  split
  · rw [State.now, State.ioR_ioW, n64, BitVec.toNat_ofNat, Nat.mod_eq_of_lt h]
    omega
  · omega

/-! A chip reset (R423). -/

theorem State.rising_logRecord {s : State} (h : Rising s.io) (code detail : Nat) (w : W64) : Rising (s.logRecord code detail w).io := by
  unfold State.logRecord
  dsimp only
  refine Rising.set ?_ ..
  have hmem : ∀ (f : Nat → State → State), (∀ i t, (f i t).io = t.io) → Rising (forN 4 f s).io := fun f hf =>
    forN_induct (fun _ t => Rising t.io) f s 4 h (fun i t _ ht => (hf i t).symm ▸ ht)
  split
  · exact Rising.set (hmem _ (fun _ _ => rfl)) ..
  · exact hmem _ (fun _ _ => rfl)

/-- The device has reset for a cause: it boots, its cores are as after power-on, and HRSTC names the cause. -/
def ResetFor (t : State) (cause : Nat) : Prop := t.hs.dev = .boot ∧ t.cores = [] ∧ t.rf Reg.HRTH_HRSTC 7 0 = cause

/-- A chip reset of a device with power; the cause is none that a supply monitor detailed. -/
theorem State.chipReset_resets {s : State} (hp : s.powered = true) (h : Rising s.io) {cause : Nat} (hc : cause < 256) (h3 : cause ≠ 3)
    (detail : Nat) : ResetFor (s.chipReset cause detail) cause := by
  unfold State.chipReset
  simp only [hp, h3, if_false, Bool.not_true, Bool.false_eq_true]
  have hrec := State.rising_logRecord h 0x01 (cause + 256 * detail) 0#64
  generalize s.logRecord 0x01 (cause + 256 * detail) = u at hrec
  refine ⟨rfl, rfl, ?_⟩
  have hio : Rising ((((u.satAdd Reg.HRTH_HRSTC 63 48 1).wf Reg.HRTH_HRSTC 7 0 cause).wf Reg.HRTH_HSTATE 0 0 0).wf Reg.HRTH_SMSTAT 2 2 0).io :=
    (((hrec.set ..).set ..).set ..).set ..
  rw [State.rf, State.ioR, State.chipWipe, Tab.get_keep hio _ _ _ (fun _ => rfl), ← State.ioR, State.wf, State.ioR_ioW_ne _ _ _ _ (by decide),
    State.wf, State.ioR_ioW_ne _ _ _ _ (by decide), State.wf, State.ioR_ioW, fld_setFld _ _ (by decide)]
  exact Nat.mod_eq_of_lt hc

theorem State.powered_of_railUp {s : State} (h : s.railUp = true) : s.powered = true := by
  unfold State.railUp at h
  unfold State.powered
  revert h
  cases s.hs.dev <;> decide

/-! A partition's reset is requested (R424). -/

/-- Nothing has changed but the cores, the queues and the partitions. -/
def CoresStopped (s t : State) : Prop := t = { s with cores := t.cores, queues := t.queues, parts := t.parts }

theorem CoresStopped.refl (s : State) : CoresStopped s s := rfl

theorem CoresStopped.trans {s t u : State} (h : CoresStopped s t) (k : CoresStopped t u) : CoresStopped s u := by
  unfold CoresStopped at *
  rw [k, h]

theorem State.withdraw_stopped (s : State) (c : Nat) : CoresStopped s (s.withdraw c) := by
  unfold State.withdraw
  split <;> rfl

/-- A core in no waiter list stays as it is. -/
theorem State.withdraw_of_not_waiting {s : State} {c : Nat} (h : ∀ q d k, (s.core c).wait ≠ .qwait q d k) : s.withdraw c = s := by
  unfold State.withdraw
  split
  · rename_i q d k hw
    exact absurd hw (h q d k)
  · rfl

theorem State.stopCores_stopped (s : State) (p : Nat) : CoresStopped s (s.stopCores p) := by
  unfold State.stopCores
  generalize s.coresOf p = l
  induction l generalizing s with
  | nil => rfl
  | cons c l ih =>
    refine CoresStopped.trans ?_ (ih _)
    dsimp only
    split
    · exact (s.withdraw_stopped c).trans rfl
    · rfl

/-- A request for the reset of a partition other than 0 stops its cores at most. -/
theorem State.requestReset_stopped (s : State) {p : Nat} (hp : p ≠ 0) (cause detail : Nat) : CoresStopped s (s.requestReset p cause detail) := by
  unfold State.requestReset
  rw [if_neg hp]
  dsimp only
  split
  · rfl
  · exact (s.stopCores_stopped p).trans rfl

/-- After a request the reset of a partition other than 0 is due or runs. -/
theorem State.requestReset_due (s : State) {p : Nat} (hp : p ≠ 0) (hd : (s.part p).defined = true) (cause detail : Nat) :
    ((s.requestReset p cause detail).part p).resetReq = true ∨ ((s.requestReset p cause detail).part p).resetting = true := by
  unfold State.requestReset
  rw [if_neg hp]
  dsimp only
  split
  · rename_i h
    simpa [hd] using h
  · left
    simp [State.part, State.modPart]

/-! The pins (R452). -/

/-- Nothing has changed but pins and pulses. -/
structure PinsMoved (s t : State) : Prop where
  regs : ∀ a, (∀ n, n < 96 → a ≠ Reg.GPIO_GPCFG n) → t.ioR a = s.ioR a
  rest : t = { s with io := t.io, pulses := t.pulses }

theorem PinsMoved.refl (s : State) : PinsMoved s s := ⟨fun _ _ => rfl, rfl⟩

theorem PinsMoved.trans {s t u : State} (h : PinsMoved s t) (k : PinsMoved t u) : PinsMoved s u :=
  ⟨fun a ha => (k.regs a ha).trans (h.regs a ha), by rw [k.rest, h.rest]⟩

theorem PinsMoved.saf {s t : State} (h : PinsMoved s t) : t.saf = s.saf := by rw [h.rest]

theorem State.gpioRefresh_moved (s : State) {n : Nat} (hn : n < 96) : PinsMoved s (s.gpioRefresh n) := by
  have hw (v : W64) : PinsMoved s (s.ioW (Reg.GPIO_GPCFG n) v) := ⟨fun a ha => State.ioR_ioW_ne _ _ _ _ (ha n hn), rfl⟩
  unfold State.gpioRefresh
  dsimp only
  split
  · exact .refl s
  · split
    · exact (hw _).trans ⟨fun _ _ => rfl, rfl⟩
    · exact hw _

theorem State.refreshPins_moved (s : State) (p : Nat) : PinsMoved s (s.refreshPins p) := by
  refine forN_induct (fun _ t => PinsMoved s t) _ s 96 (.refl s) (fun n t hn ht => ?_)
  split
  · exact ht.trans (t.gpioRefresh_moved hn)
  · exact ht

/-! The outputs that a hold of the safety monitor moves (R380, R452). -/

/-- Nothing has changed but the Stoker, pulses and registers below those of the safety monitor, and no group has been armed. -/
structure OutputsMoved (s t : State) : Prop where
  regs : ∀ a, 0xFF00E00000 ≤ a → t.ioR a = s.ioR a
  safe : ∀ g, g < 8 → s.groupArmed g = false → t.groupArmed g = false
  rest : t = { s with io := t.io, stk := t.stk, pulses := t.pulses }

namespace OutputsMoved

variable {s t u : State}

theorem refl (s : State) : OutputsMoved s s := ⟨fun _ _ => rfl, fun _ _ h => h, rfl⟩

theorem trans (h : OutputsMoved s t) (k : OutputsMoved t u) : OutputsMoved s u :=
  ⟨fun a ha => (k.regs a ha).trans (h.regs a ha), fun g hg hs => k.safe g hg (h.safe g hg hs), by rw [k.rest, h.rest]⟩

theorem saf (h : OutputsMoved s t) : t.saf = s.saf := by rw [h.rest]
theorem faultIn (h : OutputsMoved s t) : t.faultIn = s.faultIn := by rw [h.rest]
theorem parts (h : OutputsMoved s t) : t.parts = s.parts := by rw [h.rest]

theorem foldl {α : Type} (l : List α) (f : State → α → State) (h : ∀ s x, x ∈ l → OutputsMoved s (f s x)) (s : State) :
    OutputsMoved s (l.foldl f s) := by
  induction l generalizing s with
  | nil => exact refl s
  | cons x l ih => exact (h s x (by simp)).trans (ih (fun s y hy => h s y (by simp [hy])) (f s x))

theorem forN (n : Nat) (f : Nat → State → State) (h : ∀ i s, i < n → OutputsMoved s (f i s)) (s : State) : OutputsMoved s (forN n f s) :=
  foldl _ _ (fun s i hi => h i s (by simpa using hi)) s

/-- A change of the Stoker and of pulses alone. -/
theorem of_io (hio : t.io = s.io) (hr : t = { s with io := t.io, stk := t.stk, pulses := t.pulses }) : OutputsMoved s t :=
  ⟨fun a _ => by unfold State.ioR; rw [hio], fun g _ h => by unfold State.groupArmed State.rb State.ioR at *; rw [hio]; exact h, hr⟩

/-- A write below the registers of the safety monitor that arms no group. -/
theorem ioW (s : State) {a : Nat} (v : W64) (ha : a < 0xFF00E00000)
    (hv : ∀ g, g < 8 → a = Reg.STK_GCTL g → bitAt v 2 = true → s.groupArmed g = true) : OutputsMoved s (s.ioW a v) := by
  refine ⟨fun b hb => State.ioR_ioW_ne _ _ _ _ (by omega), fun g hg h => ?_, rfl⟩
  by_cases e : Reg.STK_GCTL g = a
  · rw [State.groupArmed, State.rb, e, State.ioR_ioW]
    by_contra hb
    rw [hv g hg e.symm (by simpa using hb)] at h
    exact nomatch h
  · rw [State.groupArmed, State.rb, State.ioR_ioW_ne _ _ _ _ e]
    exact h

theorem setHo (s : State) (c : Nat) (on : Bool) : OutputsMoved s (s.setHo c on) := by
  unfold State.setHo
  split
  · exact refl s
  · exact of_io rfl rfl

/-- The pins lie below the registers of the safety monitor, and apart from those of the groups. -/
theorem of_pins (h : PinsMoved s t) : OutputsMoved s t := by
  refine ⟨fun a ha => h.regs a (fun n hn => by unfold Reg.GPIO_GPCFG; omega), fun g hg hs => ?_, by rw [h.rest]⟩
  rw [State.groupArmed, State.rb, h.regs _ (fun n hn => by unfold Reg.STK_GCTL Reg.GPIO_GPCFG; omega)]
  exact hs

/-- The channels of a group switch off, whatever the group is named by. -/
theorem channelsOff (s : State) (g : Nat) : OutputsMoved s ((s.groupChans g).foldl (fun s c => (s.setChStat c false 255 0).setHo c false) s) := by
  refine foldl _ _ (fun t c hc => ?_) s
  have hc : c < 256 := by
    have := (List.mem_filter.1 hc).1
    simpa using this
  exact (ioW t _ (by unfold Reg.STK_CHSTAT; omega) (fun g hg e => by simp only [Reg.STK_CHSTAT, Reg.STK_GCTL] at e; omega)).trans (setHo _ c false)

theorem pwmOff (s : State) (g : Nat) : OutputsMoved s (Machine.forN 32 (fun k s =>
    if s.rb (Reg.PWM_PWCFG k) 2 && s.rf (Reg.PWM_PWCFG k) 6 4 == g then
      s.modStk (fun x => { x with pwm := Tab.modify x.pwm k {} (fun w => { w with run := false }) }) else s) s) :=
  forN 32 _ (fun k t _ => by
    split
    · exact of_io rfl rfl
    · exact refl t) s

theorem pulse_modStk (s : State) (src : Nat) (f : StkSt → StkSt) : OutputsMoved s ((s.pulse src).modStk f) := of_io rfl rfl

/-- GCTL of a group takes a cause and loses its ARMED. -/
theorem disarm (s : State) {g : Nat} (hg : g < 8) (cause : Nat) :
    OutputsMoved s ((s.wf (Reg.STK_GCTL g) 6 4 cause).wf (Reg.STK_GCTL g) 2 2 0) ∧
      ((s.wf (Reg.STK_GCTL g) 6 4 cause).wf (Reg.STK_GCTL g) 2 2 0).groupArmed g = false := by
  have hlt : Reg.STK_GCTL g < 0xFF00E00000 := by unfold Reg.STK_GCTL; omega
  have hcause : bitAt (setFld (s.ioR (Reg.STK_GCTL g)) 6 4 cause) 2 = s.groupArmed g := by
    rw [bitAt_setFld _ _ _ _ (by decide)]
    rfl
  have hoff : ∀ x, bitAt (setFld x 2 2 0) 2 = false := fun x => by
    rw [bitAt_setFld _ _ _ _ (by decide)]
    rfl
  refine ⟨.trans (ioW s _ hlt fun k _ e hb => ?_) (ioW _ _ hlt fun k _ _ hb => ?_), ?_⟩
  · have : k = g := by unfold Reg.STK_GCTL at e; omega
    rw [this, ← hcause, hb]
  · rw [hoff] at hb
    exact nomatch hb
  · rw [State.groupArmed, State.rb, State.wf, State.ioR_ioW, hoff]

end OutputsMoved

/-- A group's entry to SAFE moves outputs alone, and the group is no longer armed. -/
theorem State.groupSafe_moved (s : State) {g : Nat} (hg : g < 8) (cause : Nat) :
    OutputsMoved s (s.groupSafe g cause) ∧ (s.groupSafe g cause).groupArmed g = false := by
  unfold State.groupSafe
  cases h : s.groupArmed g with
  | false => exact ⟨OutputsMoved.refl s, h⟩
  | true =>
    simp only [Bool.not_true, Bool.false_eq_true, if_false]
    obtain ⟨hoff, harm⟩ := OutputsMoved.disarm s hg cause
    generalize (s.wf (Reg.STK_GCTL g) 6 4 cause).wf (Reg.STK_GCTL g) 2 2 0 = u at hoff harm ⊢
    have htail := (OutputsMoved.pulse_modStk u (309 + g) (fun x =>
      { x with chg := Tab.set x.chg (256 + g) ((u.pulse (309 + g)).now + 1) 0 })).trans
        ((OutputsMoved.channelsOff _ g).trans (OutputsMoved.pwmOff _ g))
    exact ⟨hoff.trans htail, htail.safe g hg harm⟩

/-- The entry to SAFE of the groups of a mask: none of them is armed after it. -/
theorem State.groupsSafe_moved (s : State) (m cause : Nat) :
    let t := forN 8 (fun g s => if m.testBit g then s.groupSafe g cause else s) s
    OutputsMoved s t ∧ ∀ g, g < 8 → m.testBit g = true → t.groupArmed g = false := by
  refine (forN_induct (fun n t => OutputsMoved s t ∧ ∀ g, g < n → m.testBit g = true → t.groupArmed g = false) _ s 8
    ⟨OutputsMoved.refl s, fun g hg => absurd hg (Nat.not_lt_zero g)⟩ ?_)
  rintro n t hn ⟨hmoved, hsafe⟩
  have hround : OutputsMoved t (if m.testBit n then t.groupSafe n cause else t) := by
    split
    · exact (t.groupSafe_moved hn cause).1
    · exact OutputsMoved.refl t
  refine ⟨hmoved.trans hround, fun g hg hm => ?_⟩
  rcases Nat.lt_succ_iff_lt_or_eq.1 hg with hlt | rfl
  · exact hround.safe g (by omega) (hsafe g hlt hm)
  · rw [if_pos hm]
    exact (t.groupSafe_moved hn cause).2

end Sys2Proof.Machine
end

section
/-!
SUPPORT. Fault inputs (spec 18 R458, R461): what latches with an input, what each reaction does, and the events that latch one.
-/
namespace Sys2Proof.Machine

open Sys2Proof

/-! The latching of an input (R458). -/

/-- The registers that a latched input moves, besides what the event counters hold. -/
def latchRegs (k a : Nat) : Prop := a = Reg.SAFE_FREC0 ∨ a = Reg.SAFE_FREC1 ∨ a = Reg.SAFE_FPEND (k / 64) ∨ cacheRegs a

/-- No input is pending. -/
def State.nonePending (s : State) : Prop := ∀ w, w < 4 → s.ioR (Reg.SAFE_FPEND w) = 0#64

/-- FREC0 of an input that is the first to latch. -/
def State.frec0 (s : State) (k p core : Nat) : W64 :=
  putFld 63 63 1 ||| putFld 29 24 (if k < 16 ∨ (112 ≤ k ∧ k < 144) then core else 0) ||| putFld 19 16 p ||| putFld 10 8 (s.fact_ k) |||
    putFld 7 0 k

/-- Input k has latched for partition p: it is pending, its partition and groups are kept, and the first to latch is recorded. -/
def Latched (s t : State) (k p core : Nat) : Prop :=
  t.ioR (Reg.SAFE_FPEND (k / 64)) = setBit (s.ioR (Reg.SAFE_FPEND (k / 64))) (k % 64) true ∧ Tab.get t.saf.concerned k 0 = p + 1 ∧
  Tab.get t.saf.mask k 0 = (if k < 16 then s.groupsOf p else 0) ∧
  (s.nonePending → t.ioR Reg.SAFE_FREC1 = n64 s.now ∧ t.ioR Reg.SAFE_FREC0 = s.frec0 k p core) ∧
  (¬ s.nonePending → t.ioR Reg.SAFE_FREC0 = s.ioR Reg.SAFE_FREC0 ∧ t.ioR Reg.SAFE_FREC1 = s.ioR Reg.SAFE_FREC1)

/-- What follows in another state that shows the safety monitor the same. -/
theorem Latched.of_same {s t u : State} {k p core : Nat} (h : Latched s t k p core) (hk : k < 256)
    (hr : ∀ a, 0xFF00E00000 ≤ a → a < 0xFF00F00000 → u.ioR a = t.ioR a) (hs : u.saf = t.saf) : Latched s u k p core := by
  have hpend : u.ioR (Reg.SAFE_FPEND (k / 64)) = t.ioR (Reg.SAFE_FPEND (k / 64)) :=
    hr _ (by unfold Reg.SAFE_FPEND; omega) (by unfold Reg.SAFE_FPEND; omega)
  unfold Latched
  rw [hpend, hs, hr Reg.SAFE_FREC0 (by decide) (by decide), hr Reg.SAFE_FREC1 (by decide) (by decide)]
  exact h

/-- The first input to latch is recorded in FREC. -/
def State.recordFirst (s : State) (k p core : Nat) : State :=
  if (List.range 4).all (fun w => s.ioR (Reg.SAFE_FPEND w) == 0#64) then
    (s.ioW Reg.SAFE_FREC0 (putFld 63 63 1 ||| putFld 29 24 (if (decide (k < 16) || (decide (112 ≤ k) && decide (k < 144))) then core else 0) |||
      putFld 19 16 p ||| putFld 10 8 (s.fact_ k) ||| putFld 7 0 k)).ioW Reg.SAFE_FREC1 (n64 s.now)
  else s

/-- Input k is pending for partition p, before its reaction is taken. -/
def State.latchRecorded (s : State) (k p core : Nat) : State :=
  let u := ((s.recordFirst k p core).setB (Reg.SAFE_FPEND (k / 64)) (k % 64)).countUn 0x1A 0
  u.modSaf (fun x => { x with concerned := Tab.set x.concerned k (p + 1) 0, mask := Tab.set x.mask k (if k < 16 then u.groupsOf p else 0) 0 })

/-- The groups of a mask and the pins of a partition are held at their safe levels. -/
def State.holdOutputs (s : State) (m p : Nat) : State :=
  (forN 8 (fun g s => if m.testBit g then s.groupSafe g 2 else s) s).refreshPins p

/-- The groups that an input holds: those of its GMASK and, for inputs 0 to 15, those of the partition concerned. -/
def State.heldGroups (s : State) (k p : Nat) : Nat := s.rf (Reg.SAFE_FCFG k) 31 24 ||| (if k < 16 then s.groupsOf p else 0)

/-- A reserved input, or one that is pending, does not latch. -/
theorem State.latchInput_of_old {s : State} {k : Nat} (h : inputReserved k = true ∨ s.fpend k = true) (part core : Nat) :
    s.latchInput k part core = s := by
  unfold State.latchInput
  rw [if_pos (by simpa using h)]

/-- Any other input latches, and its ACT decides the reaction (R461). -/
theorem State.latchInput_of_new {s : State} {k : Nat} (hr : inputReserved k = false) (hp : s.fpend k = false) (part core : Nat) :
    s.latchInput k part core =
      (let p := s.concernedBy k part
       let u := s.latchRecorded k p core
       if s.fact_ k = 3 then u.holdOutputs (u.heldGroups k p) p
       else if s.fact_ k = 4 then (u.holdOutputs (u.heldGroups k p) p).requestReset p 6 k
       else if s.fact_ k = 5 then u.chipReset 6 k
       else u) := by
  unfold State.latchInput
  rw [if_neg (by simp [hr, hp])]
  rfl

theorem State.recordFirst_of_none {s : State} (h : s.nonePending) (k p core : Nat) :
    s.recordFirst k p core = (s.ioW Reg.SAFE_FREC0 (s.frec0 k p core)).ioW Reg.SAFE_FREC1 (n64 s.now) := by
  unfold State.recordFirst State.frec0
  rw [if_pos (by simpa [State.nonePending] using h)]
  simp

theorem State.recordFirst_of_pending {s : State} (h : ¬ s.nonePending) (k p core : Nat) : s.recordFirst k p core = s := by
  unfold State.recordFirst
  rw [if_neg (by simpa [State.nonePending] using h)]

theorem State.recordFirst_only (s : State) (k p core : Nat) :
    OnlyRegs (fun a => a = Reg.SAFE_FREC0 ∨ a = Reg.SAFE_FREC1) s (s.recordFirst k p core) := by
  unfold State.recordFirst
  split
  · exact (OnlyRegs.ioW s _ _ (.inl rfl)).trans (OnlyRegs.ioW _ _ _ (.inr rfl))
  · exact OnlyRegs.refl s _

theorem State.latchRecorded_io (s : State) (k p core : Nat) :
    (s.latchRecorded k p core).io = (((s.recordFirst k p core).setB (Reg.SAFE_FPEND (k / 64)) (k % 64)).countUn 0x1A 0).io := rfl

theorem State.latchRecorded_only (s : State) (k p core : Nat) :
    OnlyRegs (latchRegs k) { s with saf := (s.latchRecorded k p core).saf } (s.latchRecorded k p core) := by
  have h : OnlyRegs (latchRegs k) s (((s.recordFirst k p core).setB (Reg.SAFE_FPEND (k / 64)) (k % 64)).countUn 0x1A 0) :=
    (((s.recordFirst_only k p core).mono fun a ha => ha.elim .inl (fun e => .inr (.inl e))).trans
      (OnlyRegs.wf _ _ _ _ _ (.inr (.inr (.inl rfl))))).trans ((State.countUn_only _ _ _ _).mono fun a ha => .inr (.inr (.inr ha)))
  refine ⟨?_, h.regs⟩
  unfold State.latchRecorded State.modSaf
  dsimp only
  rw [h.rest]

theorem State.latchRecorded_latched (s : State) {k : Nat} (hk : k < 256) (p core : Nat) : Latched s (s.latchRecorded k p core) k p core := by
  let w := (s.recordFirst k p core).setB (Reg.SAFE_FPEND (k / 64)) (k % 64)
  have hcount : OnlyRegs cacheRegs w (w.countUn 0x1A 0) := State.countUn_only _ _ _ _
  have hio : ∀ a, 0xFF00E00000 ≤ a → a < 0xFF00F00000 → (s.latchRecorded k p core).ioR a = w.ioR a := fun a h1 h2 =>
    hcount.regs a (not_cacheRegs_of_range (by omega) h2)
  have hfirst := s.recordFirst_only k p core
  have hgroups : (w.countUn 0x1A 0).groupsOf p = s.groupsOf p := State.groupsOf_congr (hcount.owners.trans hfirst.owners) p
  have hpend : ∀ a, a < Reg.SAFE_FPEND 0 → w.ioR a = (s.recordFirst k p core).ioR a := fun a h => State.ioR_ioW_ne _ _ _ _ (by
    simp only [Reg.SAFE_FPEND] at h ⊢
    omega)
  refine ⟨?_, Tab.get_set .., ?_, fun hn => ?_, fun hn => ?_⟩
  · rw [hio _ (by unfold Reg.SAFE_FPEND; omega) (by unfold Reg.SAFE_FPEND; omega)]
    show ((s.recordFirst k p core).setB _ _).ioR _ = _
    rw [State.setB, State.wf, State.ioR_ioW, hfirst.regs]
    · rfl
    · simp only [Reg.SAFE_FPEND, Reg.SAFE_FREC0, Reg.SAFE_FREC1]
      omega
  · rw [← hgroups]
    exact Tab.get_set ..
  · rw [hio _ (by decide) (by decide), hio _ (by decide) (by decide), hpend _ (by decide), hpend _ (by decide), State.recordFirst_of_none hn,
      State.ioR_ioW, State.ioR_ioW_ne _ _ _ _ (by decide), State.ioR_ioW]
    exact ⟨rfl, rfl⟩
  · rw [hio _ (by decide) (by decide), hio _ (by decide) (by decide), hpend _ (by decide), hpend _ (by decide), State.recordFirst_of_pending hn]
    exact ⟨rfl, rfl⟩

theorem State.rising_latchRecorded {s : State} (h : Rising s.io) (k p core : Nat) : Rising (s.latchRecorded k p core).io := by
  rw [State.latchRecorded_io]
  refine State.rising_countUn (Rising.set ?_ ..) _ _ _
  unfold State.recordFirst
  split
  · exact (h.set ..).set ..
  · exact h

/-! The reactions (R461). -/

/-- A hold moves outputs alone, and disarms the groups that it holds. -/
theorem State.holdOutputs_moved (s : State) (m p : Nat) :
    OutputsMoved s (s.holdOutputs m p) ∧ ∀ g, g < 8 → m.testBit g = true → (s.holdOutputs m p).groupArmed g = false := by
  obtain ⟨hmoved, hsafe⟩ := s.groupsSafe_moved m 2
  have hpins := OutputsMoved.of_pins (State.refreshPins_moved (forN 8 (fun g s => if m.testBit g then s.groupSafe g 2 else s) s) p)
  exact ⟨hmoved.trans hpins, fun g hg hm => hpins.safe g hg (hsafe g hg hm)⟩

theorem State.heldGroups_latchRecorded (s : State) {k : Nat} (hk : k < 256) (p core : Nat) :
    (s.latchRecorded k p core).heldGroups k p = s.heldGroups k p := by
  have h := s.latchRecorded_only k p core
  have hcfg : (s.latchRecorded k p core).ioR (Reg.SAFE_FCFG k) = s.ioR (Reg.SAFE_FCFG k) := by
    refine h.regs _ ?_
    rintro (e | e | e | e)
    · simp only [Reg.SAFE_FCFG, Reg.SAFE_FREC0] at e; omega
    · simp only [Reg.SAFE_FCFG, Reg.SAFE_FREC1] at e; omega
    · simp only [Reg.SAFE_FCFG, Reg.SAFE_FPEND] at e; omega
    · exact not_cacheRegs_of_range (by unfold Reg.SAFE_FCFG; omega) (by unfold Reg.SAFE_FCFG; omega) e
  unfold State.heldGroups State.rf
  rw [hcfg, State.groupsOf_congr (s := s) h.owners]

theorem State.heldGroups_testBit {s : State} {k p g : Nat} (hg : g < 8)
    (h : s.rb (Reg.SAFE_FCFG k) (24 + g) = true ∨ (k < 16 ∧ (s.groupsOf p).testBit g = true)) : (s.heldGroups k p).testBit g = true := by
  unfold State.heldGroups State.rf
  rw [Nat.testBit_or, fld_testBit]
  rcases h with h | ⟨hk, h⟩
  · rw [show bitAt (s.ioR (Reg.SAFE_FCFG k)) (24 + g) = true from h]
    simp [show g < 31 + 1 - 24 by omega]
  · simp [hk, h]

/-- What ACT 3 makes of an input that latches, and ACT 4 before it requests a reset. -/
structure HeldFor (s t : State) (k p core : Nat) : Prop where
  latched : Latched s t k p core
  safe : ∀ g, g < 8 → (s.rb (Reg.SAFE_FCFG k) (24 + g) = true ∨ (k < 16 ∧ (s.groupsOf p).testBit g = true)) → t.groupArmed g = false
  faultIn : t.faultIn = s.faultIn
  parts : t.parts = s.parts

theorem State.latchHold_held (s : State) {k : Nat} (hk : k < 256) (p core : Nat) :
    HeldFor s ((s.latchRecorded k p core).holdOutputs ((s.latchRecorded k p core).heldGroups k p) p) k p core := by
  obtain ⟨hmoved, hsafe⟩ := (s.latchRecorded k p core).holdOutputs_moved ((s.latchRecorded k p core).heldGroups k p) p
  rw [s.heldGroups_latchRecorded hk] at *
  have honly := s.latchRecorded_only k p core
  exact ⟨(s.latchRecorded_latched hk p core).of_same hk (fun a ha _ => hmoved.regs a ha) hmoved.saf,
    fun g hg h => hsafe g hg (State.heldGroups_testBit hg h), hmoved.faultIn.trans honly.faultIn, hmoved.parts.trans honly.parts⟩

/-- The request for a partition's reset leaves what the hold made. -/
theorem HeldFor.of_stopped {s t u : State} {k p core : Nat} (h : HeldFor s t k p core) (hk : k < 256) (hu : CoresStopped t u) :
    Latched s u k p core ∧ u.faultIn = s.faultIn ∧
      ∀ g, g < 8 → (s.rb (Reg.SAFE_FCFG k) (24 + g) = true ∨ (k < 16 ∧ (s.groupsOf p).testBit g = true)) → u.groupArmed g = false := by
  unfold CoresStopped at hu
  have hio : ∀ a, u.ioR a = t.ioR a := fun a => by rw [hu]; rfl
  refine ⟨h.latched.of_same hk (fun a _ _ => hio a) (by rw [hu]), ?_, fun g hg hm => ?_⟩
  · rw [hu]
    exact h.faultIn
  · rw [State.groupArmed, State.rb, hio]
    exact h.safe g hg hm

/-! What a latched input does (R458, R461). -/

section
variable {s : State} {k : Nat} (hk : k < 256) (hr : inputReserved k = false) (hp : s.fpend k = false) (part core : Nat)
include hr hp

/-- ACT 0 to 2, and the reserved ones, record the input and no more. -/
theorem State.latchInput_plain (ha : s.fact_ k < 3 ∨ 5 < s.fact_ k) :
    s.latchInput k part core = s.latchRecorded k (s.concernedBy k part) core := by
  rw [State.latchInput_of_new hr hp]
  dsimp only
  rw [if_neg (by omega), if_neg (by omega), if_neg (by omega)]

include hk

/-- ACT 3 holds the outputs; so does ACT 4, unless it resets the chip. -/
theorem State.latchInput_holds (ha : s.fact_ k = 3 ∨ s.fact_ k = 4) (ho : s.concernedBy k part ≠ 0 ∨ s.fact_ k = 3) :
    Latched s (s.latchInput k part core) k (s.concernedBy k part) core ∧ (s.latchInput k part core).faultIn = s.faultIn ∧
      ∀ g, g < 8 → (s.rb (Reg.SAFE_FCFG k) (24 + g) = true ∨ (k < 16 ∧ (s.groupsOf (s.concernedBy k part)).testBit g = true)) →
        (s.latchInput k part core).groupArmed g = false := by
  have hheld := s.latchHold_held hk (s.concernedBy k part) core
  rw [State.latchInput_of_new hr hp]
  dsimp only
  rcases ha with ha | ha
  · rw [if_pos ha]
    exact hheld.of_stopped hk (.refl _)
  · rw [if_neg (by omega), if_pos ha]
    exact hheld.of_stopped hk (State.requestReset_stopped _ (ho.resolve_right (by omega)) 6 k)

/-- ACT 4 requests the reset of the partition concerned. -/
theorem State.latchInput_requests (ha : s.fact_ k = 4) (ho : s.concernedBy k part ≠ 0) (hd : (s.part (s.concernedBy k part)).defined = true) :
    ((s.latchInput k part core).part (s.concernedBy k part)).resetReq = true ∨
      ((s.latchInput k part core).part (s.concernedBy k part)).resetting = true := by
  have hheld := s.latchHold_held hk (s.concernedBy k part) core
  rw [State.latchInput_of_new hr hp]
  dsimp only
  rw [if_neg (by omega), if_pos ha]
  refine State.requestReset_due _ ho ?_ 6 k
  rw [State.part, hheld.parts]
  exact hd

omit hk

/-- ACT 5 resets the chip. -/
theorem State.latchInput_resets (hs : s.railUp = true) (ha : s.fact_ k = 5) (h : Rising s.io) : ResetFor (s.latchInput k part core) 6 := by
  rw [State.latchInput_of_new hr hp]
  dsimp only
  rw [if_neg (by omega), if_neg (by omega), if_pos ha]
  have hhs : (s.latchRecorded k (s.concernedBy k part) core).hs = s.hs := (s.latchRecorded_only k (s.concernedBy k part) core).hs
  refine State.chipReset_resets ?_ (State.rising_latchRecorded h ..) (by decide) (by decide) k
  rw [State.powered, hhs]
  exact State.powered_of_railUp hs

end

/-! FAULT_INPUT_LATCH. -/

/-- The state with these sources of inputs that wait to latch. -/
def State.withFaults (s : State) (l : List (Nat × Nat × Nat)) : State := { s with faultIn := l }

theorem OnlyRegs.of_withFaults {P : Nat → Prop} {s t : State} {l : List (Nat × Nat × Nat)}
    (h : OnlyRegs P { s.withFaults l with saf := t.saf } t) : OnlyRegs P { s with faultIn := t.faultIn, saf := t.saf } t := by
  have hl : t.faultIn = l := h.faultIn
  rw [hl]
  exact h

theorem State.faultLatch_of_quiet {s : State} {k : Nat} (h : ∀ y ∈ s.faultIn, y.1 ≠ k) : s.faultLatch k = s := by
  have hf : s.faultIn.find? (fun e => e.1 == k) = none := List.find?_eq_none.2 fun y hy => by simpa using h y hy
  unfold State.faultLatch
  rw [hf]

/-- The first source of an input that asserts is taken out of the waiting ones. -/
theorem State.faultLatch_of_first {s : State} {k p core : Nat} {pre post : List (Nat × Nat × Nat)}
    (h : s.faultIn = pre ++ (k, p, core) :: post) (hpre : ∀ y ∈ pre, y.1 ≠ k) :
    s.faultLatch k = (s.withFaults (pre ++ post)).latchInput k p core := by
  have hnone : pre.find? (fun e => e.1 == k) = none := List.find?_eq_none.2 fun y hy => by simpa using hpre y hy
  have hf : s.faultIn.find? (fun e => e.1 == k) = some (k, p, core) := by
    rw [h, List.find?_append, hnone]
    simp
  have he : s.faultIn.erase (k, p, core) = pre ++ post := by
    rw [h, List.erase_append_right _ (fun hm => hpre _ hm rfl), List.erase_cons_head]
  unfold State.faultLatch
  rw [hf]
  dsimp only
  rw [he]
  rfl

section
variable {s : State} (hs : s.railUp = true)
include hs

theorem exec_faultInputLatch (k : Fin 256) : exec (.faultInputLatch k) s = .next (s.faultLatch k) :=
  whenUp_of_railUp hs (fun s => s.faultLatch k)

theorem faultInputLatch_idle {k : Fin 256} (h : ∀ y ∈ s.faultIn, y.1 ≠ k.val) : Idle s (.faultInputLatch k) :=
  (exec_faultInputLatch hs k).trans (congrArg _ (State.faultLatch_of_quiet h))

variable {k : Fin 256} {p core : Nat} {pre post : List (Nat × Nat × Nat)} (h : s.faultIn = pre ++ (k.val, p, core) :: post)
  (hpre : ∀ y ∈ pre, y.1 ≠ k.val)
include h hpre

theorem exec_faultInputLatch_first :
    exec (.faultInputLatch k) s = .next ((s.withFaults (pre ++ post)).latchInput k p core) := by
  rw [exec_faultInputLatch hs, State.faultLatch_of_first h hpre]

theorem faultInputLatch_ignored (hold : inputReserved k = true ∨ s.fpend k = true) :
    Does s (.faultInputLatch k) (fun _ => False) (fun t => { s with faultIn := t.faultIn }) (fun t => t.faultIn = pre ++ post) :=
  ⟨s.withFaults (pre ++ post), by rw [exec_faultInputLatch_first hs h hpre, State.latchInput_of_old (s := s.withFaults (pre ++ post)) hold], rfl,
    OnlyRegs.refl _ _⟩

variable (hr : inputReserved k = false) (hp : s.fpend k = false)
include hr hp

theorem faultInputLatch_recorded (ha : s.fact_ k < 3 ∨ 5 < s.fact_ k) :
    Does s (.faultInputLatch k) (latchRegs k) (fun t => { s with faultIn := t.faultIn, saf := t.saf }) (fun t =>
      t.faultIn = pre ++ post ∧ Latched s t k (s.concernedBy k p) core) := by
  have hrec := (s.withFaults (pre ++ post)).latchRecorded_only k (s.concernedBy k p) core
  refine ⟨_, ?_, ⟨hrec.faultIn, (s.withFaults (pre ++ post)).latchRecorded_latched k.isLt _ core⟩, hrec.of_withFaults⟩
  rw [exec_faultInputLatch_first hs h hpre, State.latchInput_plain (s := s.withFaults (pre ++ post)) hr hp p core ha]
  rfl

theorem faultInputLatch_held (ha : s.fact_ k = 3 ∨ s.fact_ k = 4) :
    ∃ t, exec (.faultInputLatch k) s = .next t ∧
      (s.concernedBy k p ≠ 0 ∨ s.fact_ k = 3 → Latched s t k (s.concernedBy k p) core ∧ t.faultIn = pre ++ post ∧
        ∀ g, g < 8 → (s.rb (Reg.SAFE_FCFG k) (24 + g) = true ∨ (k.val < 16 ∧ (s.groupsOf (s.concernedBy k p)).testBit g = true)) →
          t.groupArmed g = false) ∧
      (s.fact_ k = 4 → s.concernedBy k p ≠ 0 → (s.part (s.concernedBy k p)).defined = true →
        (t.part (s.concernedBy k p)).resetReq = true ∨ (t.part (s.concernedBy k p)).resetting = true) :=
  ⟨_, exec_faultInputLatch_first hs h hpre,
    State.latchInput_holds (s := s.withFaults (pre ++ post)) k.isLt hr hp p core ha,
    State.latchInput_requests (s := s.withFaults (pre ++ post)) k.isLt hr hp p core⟩

theorem faultInputLatch_resets (ha : s.fact_ k = 5) (hio : Rising s.io) :
    ∃ t, exec (.faultInputLatch k) s = .next t ∧ ResetFor t 6 :=
  ⟨_, exec_faultInputLatch_first hs h hpre, State.latchInput_resets (s := s.withFaults (pre ++ post)) hr hp p core hs ha hio⟩

end

end Sys2Proof.Machine
end

section
/-!
SUPPORT. Lockstep, self-tests and clocks (spec 18 R455–R457): the inputs that they assert.
-/
namespace Sys2Proof.Machine

open Sys2Proof

theorem State.ioR_setB (s : State) (a i : Nat) : (s.setB a i).ioR a = setBit (s.ioR a) i true := State.ioR_ioW ..

/-! Inputs that assert. -/

/-- Input k waits to latch, and so does all that waited before. -/
def Asserts (s t : State) (k : Nat) : Prop := (∃ y ∈ t.faultIn, y.1 = k) ∧ ∀ y ∈ s.faultIn, y ∈ t.faultIn

theorem Asserts.of_same {s u t : State} {k : Nat} (h : Asserts u t k) (e : u.faultIn = s.faultIn) : Asserts s t k := ⟨h.1, e ▸ h.2⟩

theorem State.raiseFault_asserts (s : State) (k p c : Nat) : Asserts s (s.raiseFault k p c) k := by
  unfold State.raiseFault
  split
  · rename_i h
    obtain ⟨y, hy, e⟩ := List.any_eq_true.1 h
    exact ⟨⟨y, hy, by simpa using e⟩, fun y hy => hy⟩
  · exact ⟨⟨(k, p, c), by simp, rfl⟩, fun y hy => List.mem_append_left _ hy⟩

theorem State.raiseFault_eq (s : State) (k p c : Nat) : s.raiseFault k p c = { s with faultIn := (s.raiseFault k p c).faultIn } := by
  unfold State.raiseFault
  split <;> rfl

theorem State.ioR_raiseFault (s : State) (k p c a : Nat) : (s.raiseFault k p c).ioR a = s.ioR a := by
  rw [State.raiseFault_eq]
  rfl

theorem State.core_raiseFault (s : State) (k p c i : Nat) : (s.raiseFault k p c).core i = s.core i := by
  rw [State.raiseFault_eq]
  rfl

theorem State.saf_raiseFault (s : State) (k p c : Nat) : (s.raiseFault k p c).saf = s.saf := by rw [State.raiseFault_eq]

theorem State.cores_raiseFault (s : State) (k p c : Nat) : (s.raiseFault k p c).cores = s.cores := by rw [State.raiseFault_eq]

/-- A change of registers, then an input that asserts. -/
theorem OnlyRegs.raiseFault {P : Nat → Prop} {s t : State} (h : OnlyRegs P s t) (k p c : Nat) :
    OnlyRegs P { s with faultIn := (t.raiseFault k p c).faultIn } (t.raiseFault k p c) := by
  obtain ⟨l, hl⟩ : ∃ l, t.raiseFault k p c = { t with faultIn := l } := ⟨_, t.raiseFault_eq k p c⟩
  rw [hl]
  exact ⟨by rw [h.rest], h.regs⟩

/-- A change of the safety monitor's own state, then an input that asserts. -/
theorem Does.of_modSaf_raiseFault {s : State} {i : Instr} {f : SafeSt → SafeSt} {k : Nat} (h : exec i s = .next ((s.modSaf f).raiseFault k)) :
    Does s i (fun _ => False) (fun t => { s with saf := t.saf, faultIn := t.faultIn }) (fun t => t.saf = f s.saf ∧ Asserts s t k) := by
  refine ⟨_, h, ⟨State.saf_raiseFault .., (s.modSaf f).raiseFault_asserts ..⟩, ?_⟩
  dsimp only
  rw [State.saf_raiseFault]
  exact (OnlyRegs.refl (s.modSaf f) _).raiseFault ..

/-! Lockstep (R455). -/

/-- The record of a mismatch (LSREC). -/
def lsrecOf (j what idx : Nat) : W64 := putFld 63 63 1 ||| putFld 27 26 (j % 4) ||| putFld 25 24 what ||| putFld 23 0 idx

/-- LSREC keeps the first mismatch of its cluster. -/
def State.recordMismatch (s : State) (j what idx : Nat) : State :=
  if s.rb (Reg.SAFE_LSREC (j / 4)) 63 then s else s.ioW (Reg.SAFE_LSREC (j / 4)) (lsrecOf j what idx)

theorem State.recordMismatch_only (s : State) (j what idx : Nat) :
    OnlyRegs (· = Reg.SAFE_LSREC (j / 4)) s (s.recordMismatch j what idx) := by
  unfold State.recordMismatch
  split
  · exact OnlyRegs.refl s _
  · exact OnlyRegs.ioW s _ _ rfl

theorem State.recordMismatch_lsrec (s : State) (j what idx : Nat) :
    (s.recordMismatch j what idx).ioR (Reg.SAFE_LSREC (j / 4)) =
      if s.rb (Reg.SAFE_LSREC (j / 4)) 63 then s.ioR (Reg.SAFE_LSREC (j / 4)) else lsrecOf j what idx := by
  unfold State.recordMismatch
  split
  · rfl
  · exact State.ioR_ioW ..

theorem State.lockstepMismatch_of_idle {s : State} {j : Nat} (h : ¬ (s.corePaired (2 * j) = true ∧ (s.core (2 * j)).run = .run)) (what idx : Nat) :
    s.lockstepMismatch j what idx = s := by
  unfold State.lockstepMismatch
  dsimp only
  rw [if_pos]
  simpa [or_iff_not_imp_left] using h

/-- A core that a mismatch has stopped. -/
def CoreSt.mismatched (x : CoreSt) : CoreSt := { x with run := .mismatch, micro := none, walk := none, wait := .none }

/-- Pair j has stopped for a mismatch, which is recorded. -/
def State.pairStopped (s : State) (j what idx : Nat) : State := (s.modCore (2 * j) CoreSt.mismatched).recordMismatch j what idx

/-- A mismatch of a pair that runs, its core in no waiter list, stops the pair and asserts the input of the cluster. -/
theorem State.lockstepMismatch_of_pair {s : State} {j : Nat} (hp : s.corePaired (2 * j) = true) (hrun : (s.core (2 * j)).run = .run)
    (hw : ∀ q d h, (s.core (2 * j)).wait ≠ .qwait q d h) (what idx : Nat) :
    s.lockstepMismatch j what idx = ((s.pairStopped j what idx).setB (Reg.DBG_DBGSTAT (2 * j)) 0).raiseFault (j / 4)
      ((s.pairStopped j what idx).corePart (2 * j)) (2 * j) := by
  unfold State.lockstepMismatch
  dsimp only
  rw [if_neg (by simp [hp, hrun]), State.withdraw_of_not_waiting hw]
  rfl

theorem dbgstat_ne_lsrec (c : Nat) {k : Nat} (hk : k < 8) : Reg.DBG_DBGSTAT c ≠ Reg.SAFE_LSREC k := by
  unfold Reg.DBG_DBGSTAT Reg.SAFE_LSREC
  omega

section
variable {s : State} (hs : s.railUp = true)
include hs

theorem lockstepMismatch_idle {j : Fin 32} (what : Fin 4) (idx : BitVec 24)
    (h : ¬ (s.corePaired (2 * j.val) = true ∧ (s.core (2 * j.val)).run = .run)) : Idle s (.lockstepMismatch j what idx) :=
  (whenUp_of_railUp hs (fun s => s.lockstepMismatch j what idx.toNat)).trans (congrArg _ (State.lockstepMismatch_of_idle h _ _))

theorem lockstepMismatch_stops {j : Fin 32} (what : Fin 4) (idx : BitVec 24) (hp : s.corePaired (2 * j.val) = true)
    (hrun : (s.core (2 * j.val)).run = .run) (hw : ∀ q d h, (s.core (2 * j.val)).wait ≠ .qwait q d h) :
    Does s (.lockstepMismatch j what idx) (fun a => a = Reg.SAFE_LSREC (j.val / 4) ∨ a = Reg.DBG_DBGSTAT (2 * j.val))
      (fun t => { s with faultIn := t.faultIn, cores := t.cores }) (fun t =>
        t.core (2 * j.val) = (s.core (2 * j.val)).mismatched ∧
        (∀ i, i ≠ 2 * j.val → t.core i = s.core i) ∧
        t.ioR (Reg.DBG_DBGSTAT (2 * j.val)) = setBit (s.ioR (Reg.DBG_DBGSTAT (2 * j.val))) 0 true ∧ Asserts s t (j.val / 4) ∧
        t.ioR (Reg.SAFE_LSREC (j.val / 4)) = if s.rb (Reg.SAFE_LSREC (j.val / 4)) 63 then s.ioR (Reg.SAFE_LSREC (j.val / 4))
          else lsrecOf j what idx.toNat) := by
  let u := s.modCore (2 * j.val) CoreSt.mismatched
  let w := (s.pairStopped j what idx.toNat).setB (Reg.DBG_DBGSTAT (2 * j.val)) 0
  let p := (s.pairStopped j what idx.toNat).corePart (2 * j.val)
  have hne := dbgstat_ne_lsrec (2 * j.val) (k := j.val / 4) (by omega)
  have hrec : OnlyRegs (· = Reg.SAFE_LSREC (j.val / 4)) u (s.pairStopped j what idx.toNat) := u.recordMismatch_only j what idx.toNat
  have hset : OnlyRegs (fun a => a = Reg.SAFE_LSREC (j.val / 4) ∨ a = Reg.DBG_DBGSTAT (2 * j.val)) u w :=
    (hrec.mono fun a => .inl).trans (OnlyRegs.wf _ _ _ _ _ (.inr rfl))
  have hcores : (w.raiseFault (j.val / 4) p (2 * j.val)).cores = u.cores := (w.cores_raiseFault ..).trans hset.cores
  have hcore (i : Nat) : (w.raiseFault (j.val / 4) p (2 * j.val)).core i = u.core i := (w.core_raiseFault ..).trans (hset.core i)
  refine ⟨w.raiseFault (j.val / 4) p (2 * j.val), ?_, ⟨?_, fun i hi => ?_, ?_, ?_, ?_⟩, ?_⟩
  · exact (whenUp_of_railUp hs (fun s => s.lockstepMismatch j what idx.toNat)).trans
      (congrArg _ (State.lockstepMismatch_of_pair hp hrun hw what idx.toNat))
  · rw [hcore, State.core_modCore]
  · rw [hcore, State.core_modCore_ne _ _ _ _ hi]
  · rw [State.ioR_raiseFault, State.ioR_setB, hrec.regs _ hne]
    rfl
  · exact (w.raiseFault_asserts ..).of_same hset.faultIn
  · rw [State.ioR_raiseFault]
    exact (State.ioR_ioW_ne _ _ _ _ hne.symm).trans (u.recordMismatch_lsrec j what idx.toNat)
  · dsimp only
    rw [hcores]
    exact hset.raiseFault _ _ _

theorem comparatorSelfTest_idle {k : Fin 8} (h : s.corePaired (8 * k.val) = false) (ok : Bool) : Idle s (.comparatorSelfTest k ok) := by
  refine (whenUp_of_railUp hs (fun s => s.selfTest k ok)).trans (congrArg _ ?_)
  rw [State.selfTest, h]
  rfl

theorem comparatorSelfTest_passes {k : Fin 8} (h : s.corePaired (8 * k.val) = true) :
    Does s (.comparatorSelfTest k true) cacheRegs (fun _ => s) (fun _ => True) := by
  refine ⟨s.countCl k 0x0A 0, (whenUp_of_railUp hs (fun s => s.selfTest k true)).trans (congrArg _ ?_), trivial, s.countCl_only 0x0A 0 1 k.isLt⟩
  rw [State.selfTest, h]
  rfl

theorem comparatorSelfTest_fails {k : Fin 8} (h : s.corePaired (8 * k.val) = true) :
    Does s (.comparatorSelfTest k false) (fun _ => False) (fun t => { s with faultIn := t.faultIn }) (fun t => Asserts s t (168 + k.val)) := by
  refine ⟨s.raiseFault (168 + k.val), (whenUp_of_railUp hs (fun s => s.selfTest k false)).trans (congrArg _ ?_), s.raiseFault_asserts ..,
    (OnlyRegs.refl s _).raiseFault ..⟩
  rw [State.selfTest, h]
  rfl

/-! Clocks (R457). -/

theorem rcCheck_passes :
    Does s (.rcCheck true) (fun _ => False) (fun t => { s with saf := t.saf }) (fun t => t.saf = { s.saf with refBad := false }) :=
  ⟨s.modSaf (fun x => { x with refBad := false }), whenUp_of_railUp hs (fun s => s.rcCheck true), rfl, OnlyRegs.refl _ _⟩

theorem rcCheck_fails :
    Does s (.rcCheck false) (fun _ => False) (fun t => { s with saf := t.saf, faultIn := t.faultIn }) (fun t =>
      t.saf = { s.saf with refBad := true } ∧ Asserts s t 164) :=
  .of_modSaf_raiseFault (f := fun x => { x with refBad := true }) (whenUp_of_railUp hs (fun s => s.rcCheck false))

theorem pllLockLoss_asserts (k : Fin 4) :
    Does s (.pllLockLoss k) (fun _ => False) (fun t => { s with saf := t.saf, faultIn := t.faultIn }) (fun t =>
      t.saf = { s.saf with pllLost := s.saf.pllLost ||| 2 ^ k.val } ∧ Asserts s t (160 + k.val)) :=
  .of_modSaf_raiseFault (f := fun x => { x with pllLost := x.pllLost ||| 2 ^ k.val }) (whenUp_of_railUp hs (fun s => s.pllLoss k))

end

end Sys2Proof.Machine
end

section
/-!
SUPPORT. Settings and watchdogs (spec 18 R459, R463–R465, R467): the writes of the monitor's registers, and the expiries.
-/
namespace Sys2Proof.Machine

open Sys2Proof

/-! Writes of the monitor's registers (R459, R460, R463, R464, R467). -/

/-- A write of a register of SAFE, which lies in the uncore, goes to the monitor. -/
theorem State.ioWrite_safe (s : State) {pa off k : Nat} {x : RegSpec} (r : Req) (v : W64) (hpa : pa = 0xFF00E00000 + off) (hoff : off < 0x10000)
    (hx : findReg Blk.bSAFE.regs off = some (x, k)) : s.ioWrite r pa v = s.safeWrite (s.reqPart r) pa x k v := by
  have hblk : findBlk pa = some (.bSAFE, 0, off) := by
    rw [← findBlk_at .bSAFE (i := 0) (off := off) (by decide) hoff, hpa]
    rfl
  exact s.ioWrite_reg r v hblk rfl hx

theorem findReg_fcfg (k : Fin 256) : findReg Blk.bSAFE.regs (0x100 + k) = some (⟨0x0100, 1, 256, 0xFF0F0007, 0, 0, 0, 0⟩, k.val) := by
  simp only [Blk.regs, regsSAFE, findReg, Nat.mod_one, Nat.div_one]
  simp (disch := omega) only [if_neg, Nat.add_sub_cancel_left]
  simp

theorem findReg_fpend : ∀ w : Fin 4, findReg Blk.bSAFE.regs (0x8 + w) = some (⟨0x0008, 1, 4, 0, 0xFFFFFFFFFFFFFFFF, 0, 0, 0⟩, w.val) := by
  decide

theorem findReg_twkick : ∀ p : PartId, findReg Blk.bSAFE.regs (0x50 + p) = some (⟨0x0050, 1, 16, 0, 0, 0, 0xFFFFFFFFFFFFFFFF, 0⟩, p.val) := by
  decide

theorem State.ioWrite_fcfg (s : State) (r : Req) (k : Fin 256) (v : W64) :
    s.ioWrite r (Reg.SAFE_FCFG k) v = if s.reqPart r = 0 then s.fcfgWrite k v else s :=
  s.ioWrite_safe r v (by unfold Reg.SAFE_FCFG; omega) (by omega) (findReg_fcfg k)

theorem State.ioWrite_fpend (s : State) (r : Req) (w : Fin 4) (v : W64) :
    s.ioWrite r (Reg.SAFE_FPEND w) v = s.fpendWrite (s.reqPart r) w v :=
  s.ioWrite_safe r v (by unfold Reg.SAFE_FPEND; omega) (by omega) (findReg_fpend w)

theorem State.ioWrite_twkick (s : State) (r : Req) (p : PartId) (v : W64) :
    s.ioWrite r (Reg.SAFE_TWKICK p) v = if s.reqPart r = 0 ∨ s.reqPart r = p.val then s.twKick p else s := by
  rw [s.ioWrite_safe r v (by unfold Reg.SAFE_TWKICK; omega) (by omega) (findReg_twkick p)]
  simp [State.safeWrite]

theorem State.ioWrite_swflt (s : State) (r : Req) (v : W64) : s.ioWrite r Reg.SAFE_SWFLT v = s.swfltWrite (s.reqPart r) v :=
  s.ioWrite_safe r v (off := 0x23) rfl (by decide) rfl

theorem State.ioWrite_swdcfg (s : State) (r : Req) (v : W64) :
    s.ioWrite r Reg.SAFE_SWDCFG v = if s.reqPart r = 0 then s.swdcfgWrite v else s :=
  s.ioWrite_safe r v (off := 0x20) rfl (by decide) rfl

theorem State.ioWrite_swdkick (s : State) (r : Req) (v : W64) : s.ioWrite r Reg.SAFE_SWDKICK v = s.swdKick (s.reqPart r) v :=
  s.ioWrite_safe r v (off := 0x21) rfl (by decide) rfl

/-! The settings of an input (R459). -/

/-- The ACT that a write stores: a reserved one is not taken, and none below FLOOR. -/
def State.newAct (s : State) (k : Nat) (v : W64) : Nat :=
  if 6 ≤ fld v 2 0 then s.fact_ k else max (s.rf (Reg.SAFE_FCFG k) 10 8) (fld v 2 0)

/-- The groups that a write stores: those of Table 18-1 stay where the input has a FLOOR. -/
def State.newMask (s : State) (k : Nat) (v : W64) : Nat :=
  if s.rf (Reg.SAFE_FCFG k) 10 8 = 0 then fld v 31 24 else fld v 31 24 ||| s.defaultMask k

def State.newFcfg (s : State) (k : Nat) (v : W64) : W64 :=
  putFld 31 24 (s.newMask k v) ||| putFld 19 16 (fld v 19 16) ||| putFld 10 8 (s.rf (Reg.SAFE_FCFG k) 10 8) ||| putFld 2 0 (s.newAct k v)

theorem State.fcfgWrite_of_unlocked {s : State} (h : ¬ s.rb Reg.SAFE_SLOCK 0 = true) (k : Nat) (v : W64) :
    s.fcfgWrite k v = s.ioW (Reg.SAFE_FCFG k) (s.newFcfg k v) := by
  have hact : (if 6 ≤ fld v 2 0 then fld (s.ioR (Reg.SAFE_FCFG k)) 2 0 else
      if fld v 2 0 < fld (s.ioR (Reg.SAFE_FCFG k)) 10 8 then fld (s.ioR (Reg.SAFE_FCFG k)) 10 8 else fld v 2 0) = s.newAct k v := by
    unfold State.newAct State.fact_ State.rf
    split
    · rfl
    · split <;> omega
  unfold State.fcfgWrite State.slocked
  rw [if_neg h]
  dsimp only
  rw [hact]
  rfl

theorem State.newAct_lt (s : State) (k : Nat) (v : W64) : s.newAct k v < 8 := by
  have hold : s.fact_ k < 8 := fld_lt _ 2 0
  have hfloor : s.rf (Reg.SAFE_FCFG k) 10 8 < 8 := fld_lt _ 10 8
  have hnew : fld v 2 0 < 8 := fld_lt _ 2 0
  unfold State.newAct
  split <;> omega

/-- A field of the new setting is the part written there. -/
theorem State.newFcfg_act (s : State) (k : Nat) (v : W64) : fld (s.newFcfg k v) 2 0 = s.newAct k v := by
  unfold State.newFcfg
  rw [fld_or, fld_or, fld_or, fld_putFld_of_disjoint _ (by decide) (by decide), fld_putFld_of_disjoint _ (by decide) (by decide),
    fld_putFld_of_disjoint _ (by decide) (by decide), fld_putFld _ (by decide)]
  simpa using Nat.mod_eq_of_lt (s.newAct_lt k v)

theorem State.newFcfg_floor (s : State) (k : Nat) (v : W64) : fld (s.newFcfg k v) 10 8 = s.rf (Reg.SAFE_FCFG k) 10 8 := by
  unfold State.newFcfg
  rw [fld_or, fld_or, fld_or, fld_putFld_of_disjoint _ (by decide) (by decide), fld_putFld_of_disjoint _ (by decide) (by decide),
    fld_putFld _ (by decide), fld_putFld_of_disjoint _ (by decide) (by decide)]
  rw [Nat.zero_or, Nat.zero_or, Nat.or_zero]
  exact Nat.mod_eq_of_lt (fld_lt _ 10 8)

theorem State.newFcfg_part (s : State) (k : Nat) (v : W64) : fld (s.newFcfg k v) 19 16 = fld v 19 16 := by
  unfold State.newFcfg
  rw [fld_or, fld_or, fld_or, fld_putFld_of_disjoint _ (by decide) (by decide), fld_putFld _ (by decide),
    fld_putFld_of_disjoint _ (by decide) (by decide), fld_putFld_of_disjoint _ (by decide) (by decide)]
  simpa using Nat.mod_eq_of_lt (fld_lt v 19 16)

theorem State.newFcfg_mask (s : State) (k : Nat) (v : W64) :
    fld (s.newFcfg k v) 31 24 = if s.rf (Reg.SAFE_FCFG k) 10 8 = 0 then fld v 31 24 else (fld v 31 24 ||| s.defaultMask k) % 256 := by
  unfold State.newFcfg
  rw [fld_or, fld_or, fld_or, fld_putFld _ (by decide), fld_putFld_of_disjoint _ (by decide) (by decide),
    fld_putFld_of_disjoint _ (by decide) (by decide), fld_putFld_of_disjoint _ (by decide) (by decide)]
  unfold State.newMask
  split
  · simpa using Nat.mod_eq_of_lt (fld_lt v 31 24)
  · simp

section
variable {s : State} (hs : s.railUp = true) {r : Req} {v : W64}
include hs

theorem exec_fcfgWrite (k : Fin 256) : exec (.fcfgWrite r k v) s = .next (if s.reqPart r = 0 then s.fcfgWrite k v else s) := by
  rw [← s.ioWrite_fcfg]
  exact whenUp_of_railUp hs (fun s => s.ioWrite r (Reg.SAFE_FCFG k) v)

theorem fcfgWrite_idle {k : Fin 256} (h : s.reqPart r ≠ 0 ∨ s.rb Reg.SAFE_SLOCK 0 = true) : Idle s (.fcfgWrite r k v) := by
  rw [Idle, exec_fcfgWrite hs]
  rcases h with h | h
  · rw [if_neg h]
  · simp [State.fcfgWrite, State.slocked, h]

theorem fcfgWrite_stores {k : Fin 256} (hq : s.reqPart r = 0) (hl : ¬ s.rb Reg.SAFE_SLOCK 0 = true) :
    Does s (.fcfgWrite r k v) (· = Reg.SAFE_FCFG k) (fun _ => s) (fun t =>
      t.fact_ k = (if 6 ≤ fld v 2 0 then s.fact_ k else max (s.rf (Reg.SAFE_FCFG k) 10 8) (fld v 2 0)) ∧
      t.rf (Reg.SAFE_FCFG k) 10 8 = s.rf (Reg.SAFE_FCFG k) 10 8 ∧ t.rf (Reg.SAFE_FCFG k) 19 16 = fld v 19 16 ∧
      t.rf (Reg.SAFE_FCFG k) 31 24 =
        if s.rf (Reg.SAFE_FCFG k) 10 8 = 0 then fld v 31 24 else (fld v 31 24 ||| s.defaultMask k) % 256) := by
  refine ⟨s.ioW (Reg.SAFE_FCFG k) (s.newFcfg k v), ?_, ?_, OnlyRegs.ioW s _ _ rfl⟩
  · rw [exec_fcfgWrite hs, if_pos hq, State.fcfgWrite_of_unlocked hl]
  · simp only [State.fact_, State.rf, State.ioR_ioW]
    exact ⟨s.newFcfg_act k v, s.newFcfg_floor k v, s.newFcfg_part k v, s.newFcfg_mask k v⟩

/-! Software faults (R463). -/

theorem exec_swfltWrite : exec (.swfltWrite r v) s = .next (s.swfltWrite (s.reqPart r) v) := by
  rw [← s.ioWrite_swflt]
  exact whenUp_of_railUp hs (fun s => s.ioWrite r Reg.SAFE_SWFLT v)

theorem swfltWrite_foreign (h : ¬ (fld v 7 0 = 224 + 2 * s.reqPart r ∨ fld v 7 0 = 225 + 2 * s.reqPart r)) : Idle s (.swfltWrite r v) := by
  rw [Idle, exec_swfltWrite hs, State.swfltWrite]
  exact congrArg _ (if_neg h)

section
variable (h : fld v 7 0 = 224 + 2 * s.reqPart r ∨ fld v 7 0 = 225 + 2 * s.reqPart r)
include h

theorem exec_swfltWrite_own : exec (.swfltWrite r v) s = .next (s.latchInput (fld v 7 0) (s.reqPart r) 0) := by
  rw [exec_swfltWrite hs, State.swfltWrite]
  exact congrArg _ (if_pos h)

theorem swfltWrite_ignored (hold : inputReserved (fld v 7 0) = true ∨ s.fpend (fld v 7 0) = true) : Idle s (.swfltWrite r v) :=
  (exec_swfltWrite_own hs h).trans (congrArg _ (State.latchInput_of_old hold ..))

theorem swfltWrite_latches (hr : inputReserved (fld v 7 0) = false) (hp : s.fpend (fld v 7 0) = false)
    (ha : s.fact_ (fld v 7 0) < 3 ∨ 5 < s.fact_ (fld v 7 0)) :
    Does s (.swfltWrite r v) (latchRegs (fld v 7 0)) (fun t => { s with saf := t.saf }) (fun t =>
      Latched s t (fld v 7 0) (s.concernedBy (fld v 7 0) (s.reqPart r)) 0) :=
  ⟨_, (exec_swfltWrite_own hs h).trans (congrArg _ (State.latchInput_plain hr hp _ 0 ha)), s.latchRecorded_latched (fld_lt v 7 0) _ 0,
    s.latchRecorded_only ..⟩

end

end

/-! The safety watchdog (R464, R465). -/

/-- Times that SWDCFG can take (R464). -/
def swdLegal (v : W64) : Prop := 100 ≤ fld v 13 0 ∧ fld v 13 0 ≤ 10000 ∧ fld v 29 16 + 100 ≤ fld v 13 0

/-- SWDCFG of a write, EN being b. -/
def swdcfgOf (v : W64) (b : Nat) : W64 := putFld 63 63 b ||| (v &&& (fmask 59 56 ||| fmask 29 16 ||| fmask 13 0))

theorem bitAt_swdcfgOf (v : W64) : bitAt (swdcfgOf v 1) 63 = true := by
  rw [swdcfgOf, bitAt_or, putFld, bitAt_setFld _ _ _ _ (by decide)]
  rfl

theorem State.swdcfgWrite_of_refused {s : State} {v : W64} (h : ¬ (¬ s.rb Reg.SAFE_SLOCK 0 = true ∧ swdLegal v)) : s.swdcfgWrite v = s := by
  unfold State.swdcfgWrite State.slocked
  dsimp only
  rw [if_pos]
  by_contra hc
  simp only [Bool.or_eq_true, decide_eq_true_eq, not_or, Nat.not_lt] at hc
  obtain ⟨⟨⟨hl, h1⟩, h2⟩, h3⟩ := hc
  exact h ⟨hl, h1, h2, h3⟩

theorem State.swdcfgWrite_of_legal {s : State} {v : W64} (hl : ¬ s.rb Reg.SAFE_SLOCK 0 = true) (hv : swdLegal v) :
    s.swdcfgWrite v =
      (let u := s.ioW Reg.SAFE_SWDCFG (swdcfgOf v (s.rb Reg.SAFE_SWDCFG 63 || bitAt v 63).toNat)
       if !s.rb Reg.SAFE_SWDCFG 63 && bitAt v 63 then u.swdRestart else u) := by
  obtain ⟨h1, h2, h3⟩ := hv
  unfold State.swdcfgWrite State.slocked
  dsimp only
  rw [if_neg]
  · rfl
  · simp only [Bool.or_eq_true, decide_eq_true_eq, not_or, Nat.not_lt]
    exact ⟨⟨⟨hl, h1⟩, h2⟩, h3⟩

/-- SWDSTAT with the next key, and whether the window is the first. -/
def State.swdWindow (s : State) (key first : Nat) : State := (s.wf Reg.SAFE_SWDSTAT 63 48 key).wf Reg.SAFE_SWDSTAT 32 32 first

theorem State.swdWindow_only (s : State) (key first : Nat) : OnlyRegs (· = Reg.SAFE_SWDSTAT) s (s.swdWindow key first) :=
  (OnlyRegs.wf (P := (· = Reg.SAFE_SWDSTAT)) s _ _ _ _ rfl).trans (OnlyRegs.wf _ _ _ _ _ rfl)

theorem State.swdWindow_stat (s : State) (key first : Nat) :
    (s.swdWindow key first).ioR Reg.SAFE_SWDSTAT = setFld (setFld (s.ioR Reg.SAFE_SWDSTAT) 63 48 key) 32 32 first := by
  rw [State.swdWindow, State.wf, State.ioR_ioW, State.wf, State.ioR_ioW]

theorem State.swdWindow_now (s : State) (key first : Nat) : (s.swdWindow key first).now = s.now := (s.swdWindow_only key first).now (by decide)

/-- A watchdog that is on restarts with the first key and a first window. -/
theorem State.swdRestart_of_on {s : State} (h : s.rb Reg.SAFE_SWDCFG 63 = true) :
    s.swdRestart = (s.swdWindow 0x5A3C 1).modSaf (fun x => { x with swdAt := s.now, swdRuns := true }) := by
  rw [← s.swdWindow_now 0x5A3C 1, State.swdRestart, h]
  rfl

/-- A kick comes in time and brings the key (R464). -/
def State.kickGood (s : State) (v : W64) : Prop :=
  fld v 15 0 = s.rf Reg.SAFE_SWDSTAT 63 48 ∧
  (s.rb Reg.SAFE_SWDSTAT 32 = true ∨ s.saf.swdAt + s.rf Reg.SAFE_SWDCFG 29 16 * 1000 ≤ s.now) ∧ s.now ≤ s.swdDeadline

theorem State.swdKick_of_other {s : State} {q : Nat} {v : W64}
    (h : ¬ ((s.rb Reg.SAFE_SWDCFG 63 = true ∧ s.saf.swdRuns = true) ∧ s.rf Reg.SAFE_SWDCFG 59 56 = q)) : s.swdKick q v = s := by
  rw [State.swdKick, if_pos]
  simpa [or_iff_not_imp_left] using h

section
variable {s : State} {q : Nat} {v : W64} (hon : s.rb Reg.SAFE_SWDCFG 63 = true ∧ s.saf.swdRuns = true)
  (hq : s.rf Reg.SAFE_SWDCFG 59 56 = q)
include hon hq

/-- The test of a kick by the partition that serves the watchdog. -/
theorem State.swdKick_of_mine :
    s.swdKick q v =
      if fld v 15 0 != s.rf Reg.SAFE_SWDSTAT 63 48 ||
          (!s.rb Reg.SAFE_SWDSTAT 32 && decide (s.now < s.saf.swdAt + s.rf Reg.SAFE_SWDCFG 29 16 * 1000)) || decide (s.swdDeadline < s.now)
      then s.chipReset 5
      else (s.swdWindow (if s.rf Reg.SAFE_SWDSTAT 63 48 = 0x5A3C then 0xC3A5 else 0x5A3C) 0).modSaf (fun x => { x with swdAt := s.now }) := by
  rw [State.swdKick, if_neg (by simp [hon, hq])]
  dsimp only
  rw [← s.swdWindow_now (if s.rf Reg.SAFE_SWDSTAT 63 48 = 0x5A3C then 0xC3A5 else 0x5A3C) 0]
  rfl

theorem State.swdKick_of_good (h : s.kickGood v) :
    s.swdKick q v = (s.swdWindow (if fld v 15 0 = 0x5A3C then 0xC3A5 else 0x5A3C) 0).modSaf (fun x => { x with swdAt := s.now }) := by
  obtain ⟨hkey, hfrom, hto⟩ := h
  rw [State.swdKick_of_mine hon hq, if_neg, hkey]
  rcases hfrom with h | h
  · simp [hkey, h, hto]
  · simp [hkey, h, hto]

theorem State.swdKick_of_bad (h : ¬ s.kickGood v) : s.swdKick q v = s.chipReset 5 := by
  rw [State.swdKick_of_mine hon hq, if_pos]
  by_contra hc
  simp only [Bool.or_eq_true, bne_iff_ne, ne_eq, Bool.and_eq_true, Bool.not_eq_true', decide_eq_true_eq, not_or, not_not, not_and_or,
    Bool.not_eq_false, Nat.not_lt] at hc
  obtain ⟨⟨hkey, hfrom⟩, hto⟩ := hc
  exact h ⟨hkey, hfrom, hto⟩

end

section
variable {s : State} (hs : s.railUp = true) {r : Req} {v : W64}
include hs

theorem exec_swdcfgWrite : exec (.swdcfgWrite r v) s = .next (if s.reqPart r = 0 then s.swdcfgWrite v else s) := by
  rw [← s.ioWrite_swdcfg]
  exact whenUp_of_railUp hs (fun s => s.ioWrite r Reg.SAFE_SWDCFG v)

theorem swdcfgWrite_idle (h : ¬ (s.reqPart r = 0 ∧ ¬ s.rb Reg.SAFE_SLOCK 0 = true ∧ swdLegal v)) : Idle s (.swdcfgWrite r v) := by
  rw [Idle, exec_swdcfgWrite hs]
  split
  · rw [State.swdcfgWrite_of_refused (fun k => h ⟨‹_›, k⟩)]
  · rfl

section
variable (hq : s.reqPart r = 0) (hl : ¬ s.rb Reg.SAFE_SLOCK 0 = true) (hv : swdLegal v)
include hq hl hv

/-- A write that does not switch the watchdog on stores its settings. -/
theorem swdcfgWrite_stores (h : s.rb Reg.SAFE_SWDCFG 63 = true ∨ bitAt v 63 = false) :
    Does s (.swdcfgWrite r v) (· = Reg.SAFE_SWDCFG) (fun _ => s) (fun t =>
      t.ioR Reg.SAFE_SWDCFG = swdcfgOf v (s.rb Reg.SAFE_SWDCFG 63).toNat) := by
  refine ⟨s.ioW Reg.SAFE_SWDCFG (swdcfgOf v (s.rb Reg.SAFE_SWDCFG 63).toNat), ?_, State.ioR_ioW .., OnlyRegs.ioW s _ _ rfl⟩
  rw [exec_swdcfgWrite hs, if_pos hq, State.swdcfgWrite_of_legal hl hv]
  rcases h with h | h <;> simp [h]

/-- A write that switches the watchdog on starts its first window. -/
theorem swdcfgWrite_starts (hoff : ¬ s.rb Reg.SAFE_SWDCFG 63 = true) (hon : bitAt v 63 = true) :
    Does s (.swdcfgWrite r v) (fun a => a = Reg.SAFE_SWDCFG ∨ a = Reg.SAFE_SWDSTAT) (fun t => { s with saf := t.saf }) (fun t =>
      t.ioR Reg.SAFE_SWDCFG = swdcfgOf v 1 ∧
      t.ioR Reg.SAFE_SWDSTAT = setBit (setFld (s.ioR Reg.SAFE_SWDSTAT) 63 48 0x5A3C) 32 true ∧
      t.saf = { s.saf with swdAt := s.now, swdRuns := true }) := by
  let u := s.ioW Reg.SAFE_SWDCFG (swdcfgOf v 1)
  let w := u.swdWindow 0x5A3C 1
  have hu : u.rb Reg.SAFE_SWDCFG 63 = true := (congrArg (bitAt · 63) (s.ioR_ioW ..)).trans (bitAt_swdcfgOf v)
  have hw : OnlyRegs (fun a => a = Reg.SAFE_SWDCFG ∨ a = Reg.SAFE_SWDSTAT) s w :=
    (OnlyRegs.ioW s _ _ (.inl rfl)).trans ((u.swdWindow_only 0x5A3C 1).mono fun _ => .inr)
  have hnow : u.now = s.now := congrArg BitVec.toNat (s.ioR_ioW_ne _ _ _ (by decide))
  refine ⟨w.modSaf (fun x => { x with swdAt := s.now, swdRuns := true }), ?_, ⟨?_, ?_, ?_⟩, ?_⟩
  · rw [exec_swdcfgWrite hs, if_pos hq, State.swdcfgWrite_of_legal hl hv]
    simp only [hoff, hon, Bool.or_true, Bool.not_false, Bool.and_self, if_true, Bool.toNat_true]
    rw [State.swdRestart_of_on hu, hnow]
  · exact ((u.swdWindow_only 0x5A3C 1).regs _ (by decide)).trans (s.ioR_ioW ..)
  · refine (u.swdWindow_stat 0x5A3C 1).trans ?_
    rw [State.ioR_ioW_ne _ _ _ _ (by decide)]
    rfl
  · rw [← hw.saf]
    rfl
  · exact hw.modSaf _

end

/-! Kicks of the safety watchdog, and its expiry. -/

theorem exec_swdkick : exec (.swdkick r v) s = .next (s.swdKick (s.reqPart r) v) := by
  rw [← s.ioWrite_swdkick]
  exact whenUp_of_railUp hs (fun s => s.ioWrite r Reg.SAFE_SWDKICK v)

theorem swdkick_idle (h : ¬ ((s.rb Reg.SAFE_SWDCFG 63 = true ∧ s.saf.swdRuns = true) ∧ s.rf Reg.SAFE_SWDCFG 59 56 = s.reqPart r)) :
    Idle s (.swdkick r v) := by
  rw [Idle, exec_swdkick hs, State.swdKick_of_other h]

section
variable (hon : s.rb Reg.SAFE_SWDCFG 63 = true ∧ s.saf.swdRuns = true)
include hon

theorem safetyWatchdogExpiry_resets (hio : Rising s.io) : ∃ t, exec .safetyWatchdogExpiry s = .next t ∧ ResetFor t 5 := by
  obtain ⟨hen, hruns⟩ := hon
  refine ⟨(s.advanceTo s.swdDeadline).chipReset 5, ?_, State.chipReset_resets ?_ (State.rising_advanceTo hio _) (by decide) (by decide) 0⟩
  · refine (whenUp_of_railUp hs State.swdExpiry).trans (congrArg _ ?_)
    simp [State.swdExpiry, hs, hen, hruns]
  · rw [State.powered, (s.advanceTo_only _).hs]
    exact State.powered_of_railUp hs

variable (hq : s.rf Reg.SAFE_SWDCFG 59 56 = s.reqPart r)
include hq

/-- A kick in time with the right key starts the next window with the other key. -/
theorem swdkick_restarts (hk : s.kickGood v) :
    Does s (.swdkick r v) (· = Reg.SAFE_SWDSTAT) (fun t => { s with saf := t.saf }) (fun t => t.saf = { s.saf with swdAt := s.now } ∧
      t.ioR Reg.SAFE_SWDSTAT =
        setFld (setFld (s.ioR Reg.SAFE_SWDSTAT) 63 48 (if fld v 15 0 = 0x5A3C then 0xC3A5 else 0x5A3C)) 32 32 0) := by
  have hw := s.swdWindow_only (if fld v 15 0 = 0x5A3C then 0xC3A5 else 0x5A3C) 0
  refine ⟨(s.swdWindow (if fld v 15 0 = 0x5A3C then 0xC3A5 else 0x5A3C) 0).modSaf (fun x => { x with swdAt := s.now }), ?_,
    ⟨?_, s.swdWindow_stat _ 0⟩, hw.modSaf _⟩
  · rw [exec_swdkick hs, State.swdKick_of_good hon hq hk]
  · rw [← hw.saf]
    rfl

theorem swdkick_resets (hk : ¬ s.kickGood v) (hio : Rising s.io) : ∃ t, exec (.swdkick r v) s = .next t ∧ ResetFor t 5 := by
  refine ⟨s.chipReset 5, ?_, State.chipReset_resets (State.powered_of_railUp hs) hio (by decide) (by decide) 0⟩
  rw [exec_swdkick hs, State.swdKick_of_bad hon hq hk]

end

theorem safetyWatchdogExpiry_idle (h : ¬ (s.rb Reg.SAFE_SWDCFG 63 = true ∧ s.saf.swdRuns = true)) : Idle s .safetyWatchdogExpiry := by
  refine (whenUp_of_railUp hs State.swdExpiry).trans (congrArg _ ?_)
  rw [State.swdExpiry, if_pos]
  simp only [hs, Bool.not_true, Bool.false_or, Bool.or_eq_true, Bool.not_eq_true', ← Bool.not_eq_true]
  exact not_and_or.1 h

/-! Task watchdogs (R467). -/

/-- Of the watchdogs, that of partition p alone counts anew: its start, and when it was frozen. -/
def TwCounts (s t : State) (p : PartId) (x : Nat × Nat) : Prop :=
  t.tw p = x ∧ (∀ k, k ≠ p.val → t.tw k = s.tw k) ∧ t.saf = { s.saf with tw := t.saf.tw }

omit hs in
theorem State.setTw_counts (s : State) (p : PartId) (x : Nat × Nat) : TwCounts s (s.setTw p x) p x :=
  ⟨Tab.get_set .., fun _ hk => Tab.get_set_ne _ _ _ _ _ _ hk, rfl⟩

omit hs in
theorem TwCounts.of_same {s t u w : State} {p : PartId} {x : Nat × Nat} (h : TwCounts t u p x) (ht : t.saf = s.saf) (hw : w.saf = u.saf) :
    TwCounts s w p x := by
  unfold TwCounts State.tw at *
  rw [hw, ← ht]
  exact h

theorem exec_twkick (p : PartId) :
    exec (.twkick r p) s = .next (if s.reqPart r = 0 ∨ s.reqPart r = p.val then s.twKick p else s) := by
  rw [← s.ioWrite_twkick r p 0#64]
  exact whenUp_of_railUp hs (fun s => s.ioWrite r (Reg.SAFE_TWKICK p) 0#64)

theorem twkick_idle {p : PartId} (h : ¬ (s.reqPart r = 0 ∨ s.reqPart r = p.val)) : Idle s (.twkick r p) := by
  rw [Idle, exec_twkick hs, if_neg h]

theorem twkick_counts {p : PartId} (h : s.reqPart r = 0 ∨ s.reqPart r = p.val) :
    Does s (.twkick r p) (fun _ => False) (fun t => { s with saf := t.saf }) (fun t =>
      TwCounts s t p (s.now, if (s.tw p).2 = 0 then 0 else s.now + 1)) :=
  ⟨s.twKick p, by rw [exec_twkick hs, if_pos h], s.setTw_counts p _, OnlyRegs.refl _ _⟩

theorem exec_taskWatchdogExpiry (p : PartId) : exec (.taskWatchdogExpiry p) s = .next (s.twExpiry p) :=
  whenUp_of_railUp hs (fun s => s.twExpiry p)

theorem taskWatchdogExpiry_idle {p : PartId} (h : s.rb (Reg.SAFE_TWCFG p) 63 = false ∨ (s.tw p).2 ≠ 0) : Idle s (.taskWatchdogExpiry p) := by
  rw [Idle, exec_taskWatchdogExpiry hs, State.twExpiry, if_pos]
  rcases h with h | h <;> simp [h]

theorem taskWatchdogExpiry_asserts {p : PartId} (hon : s.rb (Reg.SAFE_TWCFG p) 63 = true) (hf : (s.tw p).2 = 0)
    (hT : (s.tw p).1 + s.rf (Reg.SAFE_TWCFG p) 23 0 * 1000 < 2 ^ 64) :
    Does s (.taskWatchdogExpiry p) (fun a => a = Reg.SAFE_TWCFG p ∨ a = Reg.CGL_TIMENS)
      (fun t => { s with saf := t.saf, faultIn := t.faultIn }) (fun t =>
        t.now = max s.now ((s.tw p).1 + s.rf (Reg.SAFE_TWCFG p) 23 0 * 1000) ∧
        t.ioR (Reg.SAFE_TWCFG p) = setBit (s.ioR (Reg.SAFE_TWCFG p)) 61 true ∧
        TwCounts s t p (max s.now ((s.tw p).1 + s.rf (Reg.SAFE_TWCFG p) 23 0 * 1000), 0) ∧ Asserts s t (144 + p.val)) := by
  generalize hT' : (s.tw p).1 + s.rf (Reg.SAFE_TWCFG p) 23 0 * 1000 = T at *
  have hadv := s.advanceTo_only T
  have hnow := s.now_advanceTo hT
  have hcfg : Reg.SAFE_TWCFG p ≠ Reg.CGL_TIMENS := by unfold Reg.SAFE_TWCFG Reg.CGL_TIMENS; omega
  let u := (s.advanceTo T).setB (Reg.SAFE_TWCFG p) 61
  have hu : OnlyRegs (fun a => a = Reg.SAFE_TWCFG p ∨ a = Reg.CGL_TIMENS) s u :=
    (hadv.mono fun _ => .inr).trans (OnlyRegs.wf _ _ _ _ _ (.inl rfl))
  let w := u.setTw p (max s.now T, 0)
  have hexec : s.twExpiry p = w.raiseFault (144 + p.val) := by
    rw [State.twExpiry, if_neg (by simp [hs, hon, hf])]
    dsimp only
    rw [hT', hnow, Nat.max_left_comm, Nat.max_self]
  refine ⟨w.raiseFault (144 + p.val), ?_, ⟨?_, ?_, ?_, ?_⟩, ?_⟩
  · rw [exec_taskWatchdogExpiry hs, hexec]
  · rw [← hnow]
    exact congrArg BitVec.toNat ((w.ioR_raiseFault ..).trans (State.ioR_ioW_ne _ _ _ _ hcfg.symm))
  · rw [State.ioR_raiseFault, ← hadv.regs _ hcfg]
    exact State.ioR_setB ..
  · exact (u.setTw_counts p _).of_same hu.saf (w.saf_raiseFault ..)
  · exact (w.raiseFault_asserts ..).of_same hu.faultIn
  · dsimp only
    rw [State.saf_raiseFault]
    exact (hu.modSaf _).raiseFault ..

end

end Sys2Proof.Machine
end

section
/-!
SUPPORT. The clearing of inputs (spec 18 R460): a write of FPEND goes through its word input by input, and no input's clearing shows in the source
of another.
-/
namespace Sys2Proof.Machine

open Sys2Proof

/-! The clearing of inputs (R460). -/

/-- Nothing has changed but registers, pulses and the safety monitor's own state. -/
def MonitorMoved (s t : State) : Prop := t = { s with io := t.io, pulses := t.pulses, saf := t.saf }

theorem MonitorMoved.trans {s t u : State} (h : MonitorMoved s t) (k : MonitorMoved t u) : MonitorMoved s u := by
  unfold MonitorMoved at *
  rw [k, h]

theorem MonitorMoved.of_pins {s t : State} (h : PinsMoved s t) : MonitorMoved s t := by
  unfold MonitorMoved
  rw [h.rest]

/-- The registers that a clearing of word w can move: the word, and the pins. -/
def clearRegs (w a : Nat) : Prop := a = Reg.SAFE_FPEND w ∨ ∃ n, n < 96 ∧ a = Reg.GPIO_GPCFG n

/-- The registers that show the sources of the inputs lie elsewhere. -/
theorem not_clearRegs {w a : Nat} (h : a < 0xFF00CA0000 ∨ (0xFF00CB0000 ≤ a ∧ a < 0xFF00E00000)) : ¬ clearRegs w a := by
  rintro (e | ⟨n, hn, e⟩)
  · unfold Reg.SAFE_FPEND at e
    omega
  · unfold Reg.GPIO_GPCFG at e
    omega

/-- Partition q may clear the pending input k by a write of v to word w. -/
abbrev State.clears (s : State) (q w : Nat) (v : W64) (j : Nat) : Prop :=
  bitAt v j = true ∧ s.fpend (64 * w + j) = true ∧ (q = 0 ∨ Tab.get s.saf.concerned (64 * w + j) 0 = q + 1) ∧
    s.faultStands (64 * w + j) = false

/-- The state shows the sources of the inputs as another does: the cores, the registers but those that a clearing moves, and the clocks. -/
structure SameSources (s t : State) : Prop where
  cores : t.cores = s.cores
  regs : ∀ a, a < 0xFF00CA0000 ∨ (0xFF00CB0000 ≤ a ∧ a < 0xFF00E00000) → t.ioR a = s.ioR a
  pll : t.saf.pllLost = s.saf.pllLost
  ref : t.saf.refBad = s.saf.refBad

theorem findN_congr {n : Nat} {p q : Nat → Bool} (h : ∀ i, i < n → p i = q i) : findN n p = findN n q := by
  have hgo : ∀ m i, i + m ≤ n → findGo p m i = findGo q m i := by
    intro m
    induction m with
    | zero => exact fun _ _ => rfl
    | succ m ih =>
      intro i hi
      rw [findGo, findGo, h i (by omega), ih (i + 1) (by omega)]
  exact hgo n 0 (by omega)

theorem any_congr_of_mem {l : List Nat} {p q : Nat → Bool} (h : ∀ c, c ∈ l → p c = q c) : l.any p = l.any q := by
  rw [Bool.eq_iff_iff, List.any_eq_true, List.any_eq_true]
  exact exists_congr fun c => and_congr_right fun hc => by rw [h c hc]

namespace SameSources

variable {s t : State} (h : SameSources s t)
include h

theorem core (c : Nat) : t.core c = s.core c := by unfold State.core; rw [h.cores]

theorem rb {a : Nat} (ha : a < 0xFF00CA0000 ∨ (0xFF00CB0000 ≤ a ∧ a < 0xFF00E00000)) (i : Nat) : t.rb a i = s.rb a i := by
  unfold State.rb
  rw [h.regs a ha]

theorem rf {a : Nat} (ha : a < 0xFF00CA0000 ∨ (0xFF00CB0000 ≤ a ∧ a < 0xFF00E00000)) (hi lo : Nat) : t.rf a hi lo = s.rf a hi lo := by
  unfold State.rf
  rw [h.regs a ha]

theorem groupChans (g : Nat) : t.groupChans g = s.groupChans g := by
  refine List.filter_congr fun c hc => ?_
  have hc : c < 256 := by simpa using hc
  have ha : Reg.STK_CHCFG c < 0xFF00CA0000 := by unfold Reg.STK_CHCFG; omega
  rw [State.chPhase, State.chGroup, h.rf (.inl ha), h.rf (.inl ha)]
  rfl

theorem coresOf (p : Nat) : t.coresOf p = s.coresOf p := by
  refine List.filter_congr fun c hc => ?_
  have hc : c < 64 := by simpa using hc
  have ha : Reg.CORE_CINFO c < 0xFF00CA0000 := by unfold Reg.CORE_CINFO; omega
  rw [State.coreOwned, State.corePart, h.rb (.inl ha), h.rf (.inl ha)]
  rfl

theorem senseFault (port : Nat) : t.senseFault port = s.senseFault port := by
  unfold State.senseFault
  rw [findN_congr fun ch hch => ?_]
  have hf : Reg.SNS_CFRAME ch < 0xFF00CA0000 := by unfold Reg.SNS_CFRAME; omega
  have hst : Reg.SNS_CSTAT ch < 0xFF00CA0000 := by unfold Reg.SNS_CSTAT; omega
  rw [State.snsPort, h.rf (.inl hf), h.rb (.inl hf), h.rb (.inl hst)]
  rfl

theorem faultStands {k : Nat} (hk : k < 256) : t.faultStands k = s.faultStands k := by
  have hchan (g c : Nat) (hc : c ∈ s.groupChans g) :
      t.rb (Reg.STK_RBERR (c / 64)) (c % 64) = s.rb (Reg.STK_RBERR (c / 64)) (c % 64) := by
    have hc : c < 256 := by simpa using (List.mem_filter.1 hc).1
    exact h.rb (.inl (by unfold Reg.STK_RBERR; omega)) _
  refine ite_congr rfl (fun _ => ?_) fun _ => ite_congr rfl (fun _ => ?_) fun _ => ite_congr rfl (fun _ => ?_) fun _ =>
    ite_congr rfl (fun _ => ?_) fun _ => ite_congr rfl (fun _ => ?_) fun _ => ite_congr rfl (fun _ => ?_) fun _ =>
    ite_congr rfl (fun _ => ?_) fun _ => ite_congr rfl (fun _ => ?_) fun _ => ite_congr rfl (fun _ => ?_) fun _ => rfl
  · exact any_congr_of_mem fun c _ => by rw [h.core]
  · exact h.rb (by decide) 17
  · rw [h.groupChans, any_congr_of_mem (hchan (k - 80)), h.rb (.inl (by unfold Reg.STK_GCTL; omega))]
  · exact h.senseFault _
  · exact h.rb (.inl (by unfold Reg.HKA_HLIM; omega)) 0
  · rw [h.coresOf]
    exact any_congr_of_mem fun c _ => by rw [h.core]
  · rw [h.coresOf]
    exact any_congr_of_mem fun c _ => by simp only [State.corePowered, State.cl, State.crF, State.crR, h.core]
  · rw [h.pll]
  · exact h.ref

end SameSources

/-! The loop of a clearing. -/

theorem State.fpend_word (s : State) (w : Nat) {j : Nat} (hj : j < 64) : s.fpend (64 * w + j) = s.rb (Reg.SAFE_FPEND w) j := by
  have hdiv : (64 * w + j) / 64 = w := by omega
  have hmod : (64 * w + j) % 64 = j := by omega
  rw [State.fpend, hdiv, hmod]

/-- Pending input 64·w + j is cleared, and the pins of its partition follow. -/
def State.clearInput (s : State) (w j : Nat) : State :=
  ((s.wf (Reg.SAFE_FPEND w) j j 0).modSaf (fun x =>
    { x with concerned := Tab.set x.concerned (64 * w + j) 0 0, mask := Tab.set x.mask (64 * w + j) 0 0 })).refreshPins
      (Tab.get s.saf.concerned (64 * w + j) 0 - 1)

/-- One round of a write to FPEND. -/
def State.clearRound (q w : Nat) (v : W64) (j : Nat) (s : State) : State :=
  if bitAt v j && s.fpend (64 * w + j) && (q == 0 || Tab.get s.saf.concerned (64 * w + j) 0 == q + 1) && !s.faultStands (64 * w + j) then
    s.clearInput w j
  else s

theorem State.fpendWrite_eq (s : State) (q w : Nat) (v : W64) : s.fpendWrite q w v = forN 64 (State.clearRound q w v) s := rfl

theorem State.clearRound_of_clears {s : State} {q w : Nat} {v : W64} {j : Nat} (h : s.clears q w v j) :
    State.clearRound q w v j s = s.clearInput w j := by
  obtain ⟨hv, hp, hq, hf⟩ := h
  rw [State.clearRound, if_pos]
  simpa [hv, hp, hf] using hq

theorem State.clearRound_of_kept {s : State} {q w : Nat} {v : W64} {j : Nat} (h : ¬ s.clears q w v j) : State.clearRound q w v j s = s := by
  rw [State.clearRound, if_neg]
  intro hc
  simp only [Bool.and_eq_true, Bool.or_eq_true, beq_iff_eq, Bool.not_eq_true'] at hc
  obtain ⟨⟨⟨hv, hp⟩, hq⟩, hf⟩ := hc
  exact h ⟨hv, hp, hq, hf⟩

/-- What clearing one input changes. -/
theorem State.clearInput_saf (s : State) (w j : Nat) :
    (s.clearInput w j).saf = { s.saf with concerned := Tab.set s.saf.concerned (64 * w + j) 0 0, mask := Tab.set s.saf.mask (64 * w + j) 0 0 } :=
  (State.refreshPins_moved _ _).saf

theorem State.clearInput_regs (s : State) (w j : Nat) {a : Nat} (ha : ¬ clearRegs w a) : (s.clearInput w j).ioR a = s.ioR a := by
  rw [State.clearInput, (State.refreshPins_moved _ _).regs _ (fun n hn e => ha (.inr ⟨n, hn, e⟩))]
  exact State.ioR_ioW_ne _ _ _ _ (fun e => ha (.inl e))

theorem State.clearInput_fpend (s : State) (w j : Nat) :
    (s.clearInput w j).ioR (Reg.SAFE_FPEND w) = setBit (s.ioR (Reg.SAFE_FPEND w)) j false := by
  rw [State.clearInput, (State.refreshPins_moved _ _).regs _ (fun n hn => by unfold Reg.SAFE_FPEND Reg.GPIO_GPCFG; omega)]
  exact State.ioR_ioW ..

theorem State.clearInput_moved (s : State) (w j : Nat) : MonitorMoved s (s.clearInput w j) :=
  .trans (t := (s.wf (Reg.SAFE_FPEND w) j j 0).modSaf (fun x =>
    { x with concerned := Tab.set x.concerned (64 * w + j) 0 0, mask := Tab.set x.mask (64 * w + j) 0 0 })) rfl
    (.of_pins (State.refreshPins_moved _ _))

/-- The first n inputs of word w have been tried: those that could be cleared are, and all else stands as it did. -/
structure Cleared (s : State) (q w : Nat) (v : W64) (n : Nat) (t : State) : Prop where
  regs : ∀ a, ¬ clearRegs w a → t.ioR a = s.ioR a
  rest : MonitorMoved s t
  saf : t.saf = { s.saf with concerned := t.saf.concerned, mask := t.saf.mask }
  gone : ∀ j, j < 64 → j < n → s.clears q w v j →
    t.fpend (64 * w + j) = false ∧ Tab.get t.saf.concerned (64 * w + j) 0 = 0 ∧ Tab.get t.saf.mask (64 * w + j) 0 = 0
  kept : ∀ j, j < 64 → n ≤ j ∨ ¬ s.clears q w v j →
    t.fpend (64 * w + j) = s.fpend (64 * w + j) ∧ Tab.get t.saf.concerned (64 * w + j) 0 = Tab.get s.saf.concerned (64 * w + j) 0

namespace Cleared

variable {s t : State} {q w n : Nat} {v : W64}

theorem sources (h : Cleared s q w v n t) : SameSources s t where
  cores := by rw [show t = _ from h.rest]
  regs a ha := h.regs a (not_clearRegs ha)
  pll := by rw [h.saf]
  ref := by rw [h.saf]

/-- The next input can be cleared now where it could at first. -/
theorem clears_iff (h : Cleared s q w v n t) (hw : w < 4) (hn : n < 64) : t.clears q w v n ↔ s.clears q w v n := by
  obtain ⟨hp, hc⟩ := h.kept n hn (.inl (Nat.le_refl n))
  unfold State.clears
  rw [hp, hc, h.sources.faultStands (by omega)]

theorem clearInput (h : Cleared s q w v n t) (hn : n < 64) (hc : s.clears q w v n) : Cleared s q w v (n + 1) (t.clearInput w n) := by
  have hne {j : Nat} (hj : j ≠ n) : 64 * w + j ≠ 64 * w + n := by omega
  have hpend {j : Nat} (hj : j < 64) (e : j ≠ n) : (t.clearInput w n).fpend (64 * w + j) = t.fpend (64 * w + j) := by
    rw [State.fpend_word _ w hj, State.fpend_word _ w hj, State.rb, State.clearInput_fpend, bitAt_setBit_ne _ _ hj e]
    rfl
  have hsaf := t.clearInput_saf w n
  refine ⟨fun a ha => (t.clearInput_regs w n ha).trans (h.regs a ha), ?_, ?_, fun j hj hlt hcj => ?_, fun j hj hk => ?_⟩
  · exact h.rest.trans (t.clearInput_moved w n)
  · rw [hsaf, h.saf]
  · rw [hsaf]
    by_cases e : j = n
    · subst e
      refine ⟨?_, Tab.get_set .., Tab.get_set ..⟩
      rw [State.fpend_word _ w hj, State.rb, State.clearInput_fpend, bitAt_setBit _ _ hj]
    · obtain ⟨h1, h2, h3⟩ := h.gone j hj (by omega) hcj
      exact ⟨(hpend hj e).trans h1, (Tab.get_set_ne _ _ _ _ _ _ (hne e)).trans h2, (Tab.get_set_ne _ _ _ _ _ _ (hne e)).trans h3⟩
  · have e : j ≠ n := by
      rintro rfl
      exact hk.elim (by omega) (fun hk => hk hc)
    obtain ⟨h1, h2⟩ := h.kept j hj (hk.imp_left (by omega))
    rw [hsaf]
    exact ⟨(hpend hj e).trans h1, (Tab.get_set_ne _ _ _ _ _ _ (hne e)).trans h2⟩

/-- A round that clears nothing carries on. -/
theorem skip (h : Cleared s q w v n t) (hc : ¬ s.clears q w v n) : Cleared s q w v (n + 1) t := by
  refine ⟨h.regs, h.rest, h.saf, fun j hj hlt hcj => h.gone j hj ?_ hcj, fun j hj hk => h.kept j hj (hk.imp_left (by omega))⟩
  have : j ≠ n := fun e => hc (e ▸ hcj)
  omega

theorem round (h : Cleared s q w v n t) (hw : w < 4) (hn : n < 64) : Cleared s q w v (n + 1) (State.clearRound q w v n t) := by
  by_cases hc : s.clears q w v n
  · rw [State.clearRound_of_clears ((h.clears_iff hw hn).2 hc)]
    exact h.clearInput hn hc
  · rw [State.clearRound_of_kept (fun k => hc ((h.clears_iff hw hn).1 k))]
    exact h.skip hc

end Cleared

theorem State.fpendWrite_cleared (s : State) (q : Nat) {w : Nat} (hw : w < 4) (v : W64) : Cleared s q w v 64 (s.fpendWrite q w v) := by
  rw [State.fpendWrite_eq]
  refine forN_induct (Cleared s q w v) _ s 64 ?_ (fun n t hn ht => ht.round hw hn)
  exact ⟨fun _ _ => rfl, rfl, rfl, fun j _ hj => absurd hj (Nat.not_lt_zero j), fun j _ _ => ⟨rfl, rfl⟩⟩

theorem fpendClear_clears {s : State} (hs : s.railUp = true) (r : Req) (w : Fin 4) (v : W64) :
    Does s (.fpendClear r w v) (clearRegs w) (fun t => { s with saf := t.saf, pulses := t.pulses }) (fun t => ∀ j, j < 64 →
      (s.clears (s.reqPart r) w v j → t.fpend (64 * w.val + j) = false ∧ Tab.get t.saf.concerned (64 * w.val + j) 0 = 0 ∧
        Tab.get t.saf.mask (64 * w.val + j) 0 = 0) ∧
      (¬ s.clears (s.reqPart r) w v j → t.fpend (64 * w.val + j) = s.fpend (64 * w.val + j))) := by
  have h := s.fpendWrite_cleared (s.reqPart r) w.isLt v
  refine ⟨s.fpendWrite (s.reqPart r) w v, ?_, fun j hj => ⟨h.gone j hj hj, fun hc => (h.kept j hj (.inr hc)).1⟩, ?_, h.regs⟩
  · rw [← s.ioWrite_fpend]
    exact whenUp_of_railUp hs (fun s => s.ioWrite r (Reg.SAFE_FPEND w) v)
  · exact h.rest

end Sys2Proof.Machine
end

section
/-!
THEOREMS. The safety monitor (spec 18).
-/
namespace Sys2Proof.Machine

open Sys2Proof

/-- Settles O55: an input that latches is recorded and its ACT decides the reaction; a mismatch, a failed test and a lost clock assert inputs; the
settings of inputs and of the watchdog are stored under the lock; a clearing goes through the word input by input; and a watchdog that is not served
resets the chip or asserts its input. -/
theorem safetyMonitor : Obligations.SafetyMonitor := by
  unfold Obligations.SafetyMonitor
  intro s r v hs
  refine ⟨fun k => ⟨faultInputLatch_idle hs, fun pre post p core h hpre => ⟨faultInputLatch_ignored hs h hpre, fun hr hp =>
      ⟨faultInputLatch_recorded hs h hpre hr hp, faultInputLatch_held hs h hpre hr hp, faultInputLatch_resets hs h hpre hr hp⟩⟩⟩,
    fun j what idx => ⟨lockstepMismatch_idle hs what idx, lockstepMismatch_stops hs what idx⟩,
    fun k => ⟨fun h ok => comparatorSelfTest_idle hs h ok, fun h => ⟨comparatorSelfTest_passes hs h, comparatorSelfTest_fails hs h⟩⟩,
    rcCheck_passes hs, rcCheck_fails hs, pllLockLoss_asserts hs,
    fun k => ⟨fcfgWrite_idle hs, fcfgWrite_stores hs⟩, fun w => ?_,
    ⟨swfltWrite_foreign hs, swfltWrite_ignored hs, swfltWrite_latches hs⟩,
    ⟨swdcfgWrite_idle hs, fun hq hl hv => ⟨swdcfgWrite_stores hs hq hl hv, swdcfgWrite_starts hs hq hl hv⟩,
      swdkick_idle hs, swdkick_restarts hs, swdkick_resets hs, safetyWatchdogExpiry_idle hs, safetyWatchdogExpiry_resets hs⟩,
    fun p => ⟨twkick_idle hs, twkick_counts hs, taskWatchdogExpiry_idle hs, taskWatchdogExpiry_asserts hs⟩⟩
  obtain ⟨t, hexec, hclear, honly⟩ := fpendClear_clears hs r w v
  refine ⟨t, hexec, fun j hj => ?_, honly⟩
  obtain ⟨hgone, hkept⟩ := hclear j hj
  by_cases hc : s.clears (s.reqPart r) w v j
  · obtain ⟨hpend, hrec⟩ := hgone hc
    exact ⟨by rw [hpend, decide_eq_true hc, Bool.not_true, Bool.and_false], fun _ => hrec⟩
  · exact ⟨by rw [hkept hc, decide_eq_false hc, Bool.not_false, Bool.and_true], fun h => absurd h hc⟩

end Sys2Proof.Machine
end
